-- ==== Sys2Proof/Word.lean ====
section
/-! DEFINITION. The plain words of the GD-24 model: bytes, 32-bit words, and lengths of time. -/

namespace Sys2Proof

/-- One byte (00, Conventions: bit 0 is the least significant bit). -/
abbrev Byte := BitVec 8

/-- A 32-bit register, identity, generation, digest or CRC. -/
abbrev Word := BitVec 32

/-- A length of time in units of 1/7,200,000,000 s (log 5): in this unit one cycle of the 25 MHz
reference (R210), one millisecond and the byte time of every listed rate (R101) are all whole. -/
abbrev Time := Nat

end Sys2Proof
end

