-- ==== Sys2Proof/Config.lean ====
section
/-! DEFINITION. What one implementation fixes: the constants the manual gives, and the one free value it
leaves open. -/

namespace Sys2Proof.Config

/-- Part code of IDENT bits 0-15 (R183). -/
def partCode : Nat := 0x2D24

/-- Revision number of IDENT bits 16-23 (R183: "1 for the parts this manual describes"). -/
def revision : Nat := 1

/-- One cycle of the 25 MHz reference (R210) in units of `Time`. -/
def cycle : Time := 288

/-- One millisecond in units of `Time`. -/
def ms : Time := 7200000

/-- One second in units of `Time`. -/
def second : Time := 1000 * ms

/-- The limit of the generation G (R11): 4,294,967,040. -/
def spentG : Word := 0xFFFFFF00

/-- The bytes of a roster record that would show a capability record or a pending edition the slot does
not hold (R199 names the fields and states no contents for the absent case; the protocol level, byte 29,
and the pending number, bytes 46-47, are stated to be 0). A FREE VALUE by slot, update count and byte offset:
nothing constrains it (DESIGN CHOICE, log 6). -/
opaque unstatedByte : Nat → Nat → Nat → Byte

end Sys2Proof.Config
end

