-- ==== Sys2Proof/Syntax.lean ====
section
/-! DEFINITION. The commands of the GD-24: one constructor of `Instr` for each row of
spec/opcode_table.json. The table gives no operand fields; the operands are those the rules name. -/

namespace Sys2Proof

/-- The two request strips (R188). -/
inductive Strip where
  | priority
  | routine
deriving DecidableEq, Repr

/-- The two sides of a loop pair (R112); a single line has only its PRIMARY side. -/
inductive Side where
  | primary
  | secondary
deriving DecidableEq, Repr

/-- How a received frame ended (R107). -/
inductive FrameEnd where
  /-- the last byte its data length calls for -/
  | complete
  /-- an idle of more than 2 byte times before that -/
  | idle
  /-- a further byte arrived within 2 byte times after the declared end -/
  | extra
deriving DecidableEq, Repr

/-- The shared-memory access that drew an error response (R196). The access in error has no effect of its
own; what the step had done before it stands (log 12). -/
inductive Access where
  /-- the 64-byte descriptor read of STARTING (R186) -/
  | descriptorRead
  /-- the read of the mark at a strip's scan position, after `done` requests of the strip completed in the step -/
  | markRead (strip : Strip) (done : Nat)
  /-- the write of TAKEN, after `done` completions -/
  | takenWrite (strip : Strip) (done : Nat)
  /-- the read of bytes 1-63 after TAKEN was written, after `done` completions -/
  | requestRead (strip : Strip) (done : Nat)
  /-- a write of a completion, after `done` others: 0 outcome, 1 clamp flag, 2 detail count, 3 DONE (R192) -/
  | completionWrite (strip : Strip) (done : Nat) (stage : Fin 4)
  /-- the read of the next change item -/
  | itemRead
  /-- a page read or write in the live image for the next change item -/
  | itemPage
  /-- a page read or write in the new image for the next change item, mirrored into it (R42) -/
  | mirrorPage
  /-- the header write of a finished new page that a mirrored item changed (R42) -/
  | mirrorHeader
  /-- the write of the next item's outcome byte -/
  | itemOutcome
  /-- a header write at the end of a batch, after `done` changed pages were brought up to date -/
  | batchHeader (done : Nat)
  /-- a page write of a format, after `done` void pages were written -/
  | formatPage (strip : Strip) (done : Nat)
  /-- a page access of a purge job, after `done` pages were visited -/
  | purgePage (done : Nat)
  /-- a header write at the end of a purge job, after `done` changed pages were brought up to date -/
  | purgeHeader (done : Nat)
  /-- a page access of a rebuild slice, after `done` pages of the slice -/
  | rebuildPage (done : Nat)
  /-- the read of the next product record -/
  | productRead
  /-- the write of the next product record into its edition page -/
  | editionPage
  /-- the zero fill or the header write that closes an edition page, its last record written (R55) -/
  | editionClose
  /-- the page read before a blocklist or edition frame (R106) -/
  | framePage (line : Fin 4)
  /-- a write of a record rewrite: 0 the odd count, 1 the fields, 2 the even count (R200) -/
  | reportWrite (record : Fin 29) (stage : Fin 3)
deriving DecidableEq, Repr

/-- The commands. Each is one whole step of the part (95). -/
inductive Instr where
  /-- POWER_ON (R204): the reset pin rises. -/
  | powerOn
  /-- RUN (R203): CONTROL written with bit 1 clear. -/
  | run (value : Word)
  /-- RESTART (R204): CONTROL written with bit 1 set. -/
  | restart (value : Word)
  /-- REGISTER_WRITE (R183): a write to a register with no row of its own; `stores` are what the host stored
  into shared memory since its last command (log 2). -/
  | registerWrite (offset value : Word) (stores : List (Word × Byte))
  /-- KICK (R190). -/
  | kick (value : Word)
  /-- EVENTS_CLEAR (R194). -/
  | eventsClear (value : Word)
  /-- EVMASK_WRITE (R195). -/
  | evmaskWrite (value : Word)
  /-- DESCRIPTOR_READ (R186). -/
  | descriptorRead
  /-- STARTING_END (R205). -/
  | startingEnd
  /-- DRAIN_COMPLETE (R207). -/
  | drainComplete
  /-- MEMORY_ERROR (R196). -/
  | memoryError (access : Access)
  /-- SCAN_INTERVAL_EXPIRY (R190). -/
  | scanIntervalExpiry
  /-- APPLY_CHANGES (R22): taken up from the holder of a strip. -/
  | applyChanges (strip : Strip)
  /-- CHANGE_ITEM (R23). -/
  | changeItem
  /-- BATCH_END (R30). -/
  | batchEnd
  /-- FORMAT_IMAGE (R17). -/
  | formatImage (strip : Strip)
  /-- FORMAT_SWITCH (R18). -/
  | formatSwitch
  /-- REBUILD_IMAGE (R39). -/
  | rebuildImage (strip : Strip)
  /-- REBUILD_SLICE (R41). -/
  | rebuildSlice
  /-- PURGE_JOB (R37). -/
  | purgeJob
  /-- LOAD_EDITION (R54). -/
  | loadEdition (strip : Strip)
  /-- PRODUCT_RECORD (R48). -/
  | productRecord
  /-- RESCHEDULE_EDITION (R57). -/
  | rescheduleEdition (strip : Strip)
  /-- WITHDRAW_EDITION (R58). -/
  | withdrawEdition (strip : Strip)
  /-- SET_CLOCK (R67). -/
  | setClock (strip : Strip)
  /-- MINUTE_TICK (R65). -/
  | minuteTick
  /-- PIN_SLOT (R84). -/
  | pinSlot (strip : Strip)
  /-- FREE_SLOT (R85). -/
  | freeSlot (strip : Strip)
  /-- RELEASE_SLOT (R86). -/
  | releaseSlot (strip : Strip)
  /-- RESYNC_SLOT (R87). -/
  | resyncSlot (strip : Strip)
  /-- CLEAR_COUNTERS (R88). -/
  | clearCounters (strip : Strip)
  /-- SET_LINE (R97). -/
  | setLine (strip : Strip)
  /-- SET_PROFILE (R99). -/
  | setProfile (strip : Strip)
  /-- LINE_MODE_CHANGE_APPLIED (R98). -/
  | lineModeChangeApplied (line : Fin 4)
  /-- KEEPALIVE_DUE (R92). -/
  | keepaliveDue (slot : Fin 24)
  /-- BACKOFF_EXPIRY (R93). -/
  | backoffExpiry (slot : Fin 24)
  /-- REPLACEMENT_WINDOW_CLOSE (R79). -/
  | replacementWindowClose (slot : Fin 24)
  /-- DISCOVERY_VISIT_DUE (R89). -/
  | discoveryVisitDue
  /-- IDENTIFY_DUE (R77). -/
  | identifyDue (slot : Fin 24)
  /-- LINE_RECORD_TIMER (R115). -/
  | lineRecordTimer (line : Fin 4)
  /-- FRAME_START (R106). -/
  | frameStart (line : Fin 4)
  /-- FRAME_SENT (R106): the end of the frame's last byte. -/
  | frameSent (line : Fin 4)
  /-- ECHO_JUDGED (R111): what the secondary received of the frame sent on the primary, and whether its last
  byte came no later than 2 byte times after the frame's. -/
  | echoJudged (line : Fin 4) (copy : List Byte) (inTime : Bool)
  /-- HEADER_MARK (R107): 0xB4 at the receiver of one side. -/
  | headerMark (line : Fin 4) (side : Side)
  /-- FRAME_RECEIVED (R107): the bytes from the header mark on, and how the frame ended. -/
  | frameReceived (line : Fin 4) (bytes : List Byte) (ending : FrameEnd)
  /-- REPLY_TIMEOUT (R108). -/
  | replyTimeout (line : Fin 4)
  /-- GAP_END (R110). -/
  | gapEnd (line : Fin 4)
  /-- STATUS (R121): the fit STATUS the line's port holds is taken. -/
  | status (line : Fin 4)
  /-- IDENT (R122). -/
  | ident (line : Fin 4)
  /-- ACCEPT (R126). -/
  | accept (line : Fin 4)
  /-- REFUSE (R126). -/
  | refuse (line : Fin 4)
  /-- PAGE_ACK (R130). -/
  | pageAck (line : Fin 4)
  /-- CLOSE_ACK (R135). -/
  | closeAck (line : Fin 4)
  /-- CHECK_REPORT (R175). -/
  | checkReport (line : Fin 4)
  /-- BUSY (R119). -/
  | busy (line : Fin 4)
  /-- REPORT_REWRITE (R200): record 0 is the summary, 1-4 the lines, 5-28 the roster slots. -/
  | reportRewrite (record : Fin 29)
  /-- RESET_PIN_LOW (R204). -/
  | resetPinLow
deriving DecidableEq, Repr

end Sys2Proof
end

