-- ==== Sys2Proof/Decode.lean ====
section
/-! DEFINITION. Decoding. The opcode table of this block gives no row any bits, so no word spells a command. -/

namespace Sys2Proof

/-- The command that a word spells: none, for every row of the table (its "fields" are empty). -/
def decodeTableWord (_nbits _w : Nat) : Option Instr := none

end Sys2Proof
end

