-- ==== Sys2Proof/Machine/State.lean ====
section
/-! DEFINITION. The state of the GD-24: every register, table, record, timer and mark the manual gives it, one
structure per block of the block diagram (00), with the value each takes after power-on. -/

namespace Sys2Proof.Machine

/-! ## Registers and engine (chapters 9 and 10) -/

/-- The cause of FAULTED (R183). -/
inductive FaultCause where
  | descriptor
  | memory
deriving DecidableEq, Repr

/-- The engine states of R203. -/
inductive Engine where
  | haltedCold
  | starting
  | running
  | stopping
  | haltedResumable
  | faulted (cause : FaultCause)
deriving DecidableEq, Repr

/-- The registers that hold something (R183); IDENT, STATE and the interrupt output are functions. -/
structure Regs where
  /-- CONTROL bit 0 as last taken (R184) -/
  run : Bool
  /-- XBASE, bits 0-11 always 0 (R185) -/
  xbase : Word
  /-- the eight sticky notice bits (R194) -/
  events : Byte
  /-- the eight enable bits (R195) -/
  evmask : Byte
deriving DecidableEq, Repr

/-- The notices of EVENTS, bit 0 to bit 7 (R183). -/
inductive Notice where
  | done
  | roster
  | line
  | edition
  | clock
  | quarantine
  | saturated
  | fault
deriving DecidableEq, Repr

/-! ## Exchange interface (chapter 9) -/

/-- One of two regions, A or B (R7, R53). -/
inductive Region where
  | a
  | b
deriving DecidableEq, Repr

/-- The descriptor copy (R186). -/
structure Descriptor where
  scanInterval : Nat
  priorityAddr : Nat
  routineAddr : Nat
  priorityCount : Nat
  routineCount : Nat
  report : Nat
  imageA : Nat
  imageB : Nat
  editionA : Nat
  editionB : Nat
deriving DecidableEq, Repr

/-- A request as read from its strip slot when it was taken (R191): the kind, the notify bit and the
parameter bytes 8-63. -/
structure Request where
  kind : Nat
  notify : Bool
  params : List Byte
deriving DecidableEq, Repr

/-- The scan state of a strip (R189). In HOLDING, `held` says the request still waits in its owner's holder,
and `free` that it came to an idle owner, so that no order binds it (R34, R59). -/
inductive Scan where
  | stopped
  | holding (request : Request) (held free : Bool)
deriving DecidableEq, Repr

/-- A strip as the exchange interface keeps it (R189, R198). -/
structure StripState where
  position : Nat
  scan : Scan
deriving DecidableEq, Repr

/-- The exchange interface beside its registers (R198). -/
structure ExchangeIf where
  descriptor : Option Descriptor
  priority : StripState
  routine : StripState
  /-- time left of the scan interval timer, none while it does not run (R190) -/
  scanTimer : Option Time
deriving DecidableEq, Repr

/-! ## Change engine (chapters 1 and 2) -/

/-- One record of the stamp table (R12). -/
structure StampRec where
  stamp : Word
  hot : Word
  crc : Word
  live : Nat
deriving DecidableEq, Repr

/-- One record of the working table of a rebuild (R40). -/
structure WorkRec where
  live : Nat
  crc : Word
  hot : Bool
deriving DecidableEq, Repr

/-- A running batch (R23): `next` items done; `faulty` the FULL, EXPIRED and BAD_ITEM items so far (R31);
`changed` the pages it changed, ascending (R29). -/
structure Batch where
  strip : Strip
  list : Nat
  count : Nat
  next : Nat
  faulty : Nat
  anyFull : Bool
  changed : List Nat
deriving DecidableEq, Repr

/-- A format in progress (R18). -/
structure Format where
  strip : Strip
  target : Region
  pages : Nat
  seed : Word
  identity : Word
  table : List StampRec
deriving DecidableEq, Repr

/-- The phases of a rebuild (R40). -/
inductive Phase where
  | clearing
  | copying
  | finishing
deriving DecidableEq, Repr

/-- A rebuild in progress (R40, R41). `startG` is the G at which it began (R43); `cleared` and `finished`
count the new pages done in CLEARING and FINISHING; `look` says that the last slice ended with an APPLY CHANGES in the
priority-strip holder, which runs before the next slice (R42). -/
structure Rebuild where
  strip : Strip
  phase : Phase
  pages : Nat
  seed : Word
  identity : Word
  startG : Word
  cleared : Nat
  finished : Nat
  unplaced : Nat
  table : List WorkRec
  look : Bool
deriving DecidableEq, Repr

/-- The purge job queue, 0 or 1 job (R33); `free` as in `Scan`. -/
inductive PurgeQueue where
  | empty
  | queued (free : Bool)
deriving DecidableEq, Repr

/-- The change engine (R9, R12, R33, R35, R40). -/
structure ChangeEngine where
  identity : Word
  pages : Nat
  seed : Word
  gen : Word
  region : Region
  digest : Word
  refused : Nat
  table : List StampRec
  changing : Bool
  purge : PurgeQueue
  purgeSkipped : Bool
  batch : Option Batch
  format : Option Format
  rebuild : Option Rebuild
  copyCursor : Nat
deriving DecidableEq, Repr

/-! ## Edition manager and service clock (chapter 3) -/

/-- The ACTIVE slot (R53); `present` is its state ACTIVE. -/
structure ActiveSlot where
  present : Bool
  number : BitVec 16
  total : Nat
  crcs : List Word
  digest : Word
  region : Region
deriving DecidableEq, Repr

/-- The states of the PENDING slot (R53). -/
inductive PendingState where
  | empty
  | composing
  | pending
deriving DecidableEq, Repr

/-- The PENDING slot (R53). -/
structure PendingSlot where
  state : PendingState
  number : BitVec 16
  total : Nat
  crcs : List Word
  digest : Word
  effective : Word
  region : Region
  atRisk : Bool
  warned : Bool
deriving DecidableEq, Repr

/-- A load in progress (R55): `next` records read, `lastCode` the code of the record before, `clamped` the
records clamped so far (R49). -/
structure Load where
  strip : Strip
  list : Nat
  count : Nat
  next : Nat
  lastCode : Nat
  clamped : Nat
deriving DecidableEq, Repr

/-- The service clock (R64). `part` is the time within the second; `stopped` that it stopped at its end
(R65). -/
structure Clock where
  isSet : Bool
  day : Nat
  minute : Nat
  seconds : Nat
  dayStart : Nat
  part : Time
  stopped : Bool
deriving DecidableEq, Repr

/-- The edition manager (R53, R59, R69). With `testsDue` the tests of R60 and R63 that a minute tick calls for wait for the
end of the running job (R59; log 48). -/
structure EditionMgr where
  active : ActiveSlot
  pending : PendingSlot
  load : Option Load
  timeDue : Vector Bool 4
  testsDue : Bool
deriving DecidableEq, Repr

/-! ## Roster (chapter 4) -/

/-- Roster slot states (R71). -/
inductive SlotState where
  | vacant
  | silent
  | identifying
  | behind
  | current
  | quarantined
deriving DecidableEq, Repr

/-- Binding modes (R72). -/
inductive BindMode where
  | free
  | learned
  | pinned
deriving DecidableEq, Repr

/-- Quarantine reasons (R82). -/
inductive Reason where
  | none
  | identity
  | clash
  | failures
  | store
deriving DecidableEq, Repr

/-- A capability record as taken (R73). -/
structure Capability where
  model : BitVec 16
  blocklist : Nat
  edition : Nat
  rate : Fin 7
  level : Nat
deriving DecidableEq, Repr

/-- An edition named by number and digest (R52). -/
structure EditionRef where
  number : BitVec 16
  digest : Word
deriving DecidableEq, Repr

/-- A held pending edition (R71). -/
structure HeldPending where
  edition : EditionRef
  complete : Bool
  mask : BitVec 64
deriving DecidableEq, Repr

/-- The content of a STATUS (chapter 6, section 6.1). -/
structure Status where
  serial : BitVec 64
  identity : Word
  gen : Word
  digest : Word
  active : EditionRef
  pending : Option HeldPending
  openDelivery : Bool
  storeFault : Bool
  busy : Bool
deriving DecidableEq, Repr

/-- The eight counters of a slot (R75). -/
structure Counters where
  misses : Nat
  garbled : Nat
  stale : Nat
  busy : Nat
  refusals : Nat
  tallyFailures : Nat
  mismatches : Nat
  pagesSent : Nat
deriving DecidableEq, Repr

/-- A roster slot (R71). `kept` is the STATUS kept aside and `identify` the time until the IDENTIFY is due
(R77). Every timer is a time left. -/
structure Slot where
  state : SlotState
  binding : Option (Fin 4 × Nat)
  mode : BindMode
  frozen : Bool
  serial : BitVec 64
  serialSeen : BitVec 64
  cap : Option Capability
  served : Fin 7
  blIncapable : Bool
  edIncapable : Bool
  heldId : Word
  heldH : Word
  heldActive : EditionRef
  heldPending : Option HeldPending
  reload : Bool
  repair : Bool
  unconfirmed : Bool
  reason : Reason
  replaced : Bool
  duplicate : Bool
  window : Option Time
  reach : Side
  misses : Nat
  failures : Nat
  garbleRun : Nat
  backoff : Option Time
  keepalive : Option Time
  kept : Option Status
  identify : Option Time
  counters : Counters
deriving DecidableEq, Repr

/-- What the roster keeps per line (R71, R90, R91): the discovery position, the clash list, the count of
consecutive garbled discovery replies per drop address (entry 0 unused), and whether the roster-full notice
was given in this sweep. -/
structure LineRoster where
  position : Nat
  clash : List Nat
  garbles : List Nat
  fullNoticed : Bool
deriving DecidableEq, Repr

/-- The roster (R71). `visitLeft` is the time until the next discovery visit falls due (R89, R95). -/
structure Roster where
  slots : Vector Slot 24
  lines : Vector LineRoster 4
  full : Bool
  visitLeft : Time
deriving DecidableEq, Repr

/-! ## Line ports and profiles (chapter 5) -/

/-- Line modes (R96). -/
inductive LineMode where
  | off
  | single
  | pairPrimary
  | pairSecondary
deriving DecidableEq, Repr

/-- Where a port was when a header mark took it to RECEIVING (R107, R108). -/
inductive From where
  | awaiting
  | idle
  | gap
deriving DecidableEq, Repr

/-- Exchange states (chapter 5, section 5.5). -/
inductive XState where
  | idle
  | sending
  | awaiting
  | receiving (origin : From)
  | gap
deriving DecidableEq, Repr

/-- What an OPEN opens (R146, R153, R154, R174, R180). -/
inductive OpenKind where
  | blocklist
  | repair
  | stage
  | install
deriving DecidableEq, Repr

/-- The exchanges the arbiter hands to a port (chapters 6 and 7). `poll` is a keep-alive POLL, `confirm` a
confirming POLL (R157). -/
inductive Work where
  | poll (slot : Fin 24)
  | confirm (slot : Fin 24)
  | identify (slot : Fin 24)
  | discovery
  | openTo (slot : Fin 24) (kind : OpenKind)
  | page (slot : Fin 24)
  | close (slot : Fin 24)
  | check (slot : Fin 24)
  | activate (slot : Fin 24)
  | discard (slot : Fin 24)
  | groupPage (group : Nat)
  | activateAll
  | time
deriving DecidableEq, Repr

/-- What follows the turnaround gap of an exchange not yet ended (R109, R113). -/
inductive After where
  /-- nothing: the exchange ends with its result -/
  | nothing
  /-- another attempt: a retry, or discovery's second IDENTIFY -/
  | attempt
  /-- the second copy of a group or broadcast frame -/
  | copy
deriving DecidableEq, Repr

/-- A request frame whose page was read at its start (R106): the page number, whether it goes as VOID, the
CRC added to the tally (0 for a VOID) and the CRC a PAGE ACK must carry (R130, R131). -/
structure PageRead where
  page : Nat
  void : Bool
  tallyCrc : Word
  ackCrc : Word
deriving DecidableEq, Repr

/-- An exchange handed to a port (R106). `started` is false until its first frame starts. `withdrawn` says its
purpose was withdrawn (R109); `detached` that the slot itself was freed or pinned anew (R84, R85). `retries`
are the attempts left; `repeated` that the next frame carries REPEAT; `members` the group members at the
frame's start (R131); `silentPoll` a POLL to a SILENT slot (R114). -/
structure Exchange where
  work : Work
  started : Bool
  addr : Nat
  code : Byte
  content : List Byte
  noReply : Bool
  rate : Fin 7
  retries : Nat
  side : Side
  tag : BitVec 4
  after : After
  twice : Bool
  repeated : Bool
  page : Option PageRead
  members : List (Fin 24)
  timeout : Time
  gap : Time
  silentPoll : Bool
  withdrawn : Bool
  detached : Bool
deriving DecidableEq, Repr

/-- A good, fit reply handed to the scheduler and not yet taken (R118). -/
structure Reply where
  code : Byte
  content : List Byte
deriving DecidableEq, Repr

/-- The five line counters (R114). -/
structure LineCounters where
  sent : Nat
  received : Nat
  garbled : Nat
  timeouts : Nat
  stale : Nat
deriving DecidableEq, Repr

/-- A line port (R96). `mode` is the mode recorded and `applied` the mode in force (R98); `last` is the
last-exchange mark (R83); `echoDue` a frame on a pair's primary not yet judged (R111); `forming`, on the even line of a pair, that the pair was accepted and has yet to start (R98);
`rate` the rate of the frame
last driven, at which the receiver takes frames (log 49); `idleTime` the time the line has been idle, held at the longest
R101 asks for; `tx` the bytes of the frame last driven. -/
structure Port where
  mode : LineMode
  applied : LineMode
  forming : Bool
  profile : Fin 4
  xstate : XState
  tag : BitVec 4
  last : Option (Nat × Bool)
  missRun : Nat
  goodRun : Nat
  broken : Bool
  echoDue : Bool
  exchange : Option Exchange
  reply : Option Reply
  replyLeft : Time
  gapLeft : Time
  sendLeft : Time
  gap : Time
  rate : Fin 7
  idleTime : Time
  rxSide : Side
  recordTimer : Option Time
  tx : List Byte
  counters : LineCounters
deriving DecidableEq, Repr

/-- A profile (R99). -/
structure Profile where
  rate : Fin 7
  timeout : Nat
  gap : Nat
  retries : Nat
  missLimit : Nat
  keepalive : Nat
  quarantine : Nat
  streamed : Bool
  group : Bool
deriving DecidableEq, Repr

/-! ## Delivery scheduler (chapter 7) -/

/-- The seven classes in order (R142). -/
inductive Cls where
  | urgent
  | activation
  | upkeep
  | install
  | stage
  | routine
  | repair
deriving DecidableEq, Repr

/-- Whom a turn serves (R142, R144). -/
inductive Target where
  | slot (n : Fin 24)
  | group (id : Nat)
  | line
deriving DecidableEq, Repr

/-- A turn (R142): its class, its slot or group, and the PAGE, VOID and CHECK exchanges ended in it. -/
structure Turn where
  cls : Cls
  target : Target
  burst : Nat
deriving DecidableEq, Repr

/-- The seven round-robin pointers of an arbiter (R144); in UPKEEP a position 0-25. -/
structure Pointers where
  urgent : Option Nat
  activation : Option Nat
  upkeep : Option Nat
  install : Option Nat
  stage : Option Nat
  routine : Option Nat
  repair : Option Nat
deriving DecidableEq, Repr

/-- An arbiter (R141), with the discovery visit due on its line (R89). -/
structure Arbiter where
  turn : Option Turn
  pointers : Pointers
  activateDue : Option (BitVec 16)
  discoveryDue : Bool
deriving DecidableEq, Repr

/-- Delivery modes (R145). -/
inductive Mode where
  | delta
  | reload
  | repair
  | stage
  | install
deriving DecidableEq, Repr

/-- Delivery phases (R145). -/
inductive DPhase where
  | opening
  | opened
  | closing
deriving DecidableEq, Repr

/-- A delivery record (R145). The plan cursor is the length of the plan. `late` are the pages of R150 that
wait while the delivery is CLOSING; `inFlight` the page of the frame on the wire; `mask` the ACCEPT mask of an
edition delivery; `makeActive` that its last CLOSE carried MAKE ACTIVE (R132, R135); `repairReload` the mark of R180. -/
structure Delivery where
  mode : Mode
  identity : Word
  baseH : Word
  edition : EditionRef
  total : Nat
  target : Word
  streamed : Bool
  grouped : Bool
  urgent : List Nat
  rest : List Nat
  late : List Nat
  inFlight : Option Nat
  mask : BitVec 64
  tallyCount : BitVec 16
  tallySum : Word
  phase : DPhase
  makeActive : Bool
  repairReload : Bool
deriving DecidableEq, Repr

/-- The three marks per slot (R157, R162). -/
structure Marks where
  confirmDue : Bool
  activateSent : Bool
  solo : Bool
deriving DecidableEq, Repr

/-- A group (R159 to R161). `id` is the least number no other group has (the model's own name for it);
`toOpen` are the members whose OPEN is not yet answered; `target` the T fixed at the first OPEN; `planned`
that the common plan has been fixed. -/
structure Group where
  id : Nat
  line : Fin 4
  cls : Cls
  members : List (Fin 24)
  toOpen : List (Fin 24)
  target : Option Word
  planned : Bool
  plan : List Nat
  inFlight : Option Nat
  rate : Fin 7
deriving DecidableEq, Repr

/-- The delivery scheduler (R141). -/
structure Sched where
  arbiters : Vector Arbiter 4
  deliveries : Vector (Option Delivery) 24
  marks : Vector Marks 24
  groups : List Group
deriving DecidableEq, Repr

/-! ## Verify unit (chapter 8) -/

/-- A CHECK REPORT waiting for the image to stop changing (R175). -/
structure HeldReport where
  first : Nat
  crcs : List Word
deriving DecidableEq, Repr

/-- A sweep record (R169). -/
structure Sweep where
  cursor : Nat
  list : List Nat
  run : Nat
  held : Option HeldReport
deriving DecidableEq, Repr

/-! ## Report writer (chapter 10) -/

/-- A request's result (R192). -/
structure Result where
  outcome : Byte
  clamp : Bool
  detail : Nat
deriving DecidableEq, Repr

/-- What waits for rewrites (R201): a notice, or the outcome of a strip's request. -/
inductive WaitAct where
  | notice (n : Notice)
  | outcome (strip : Strip) (result : Result)
deriving DecidableEq, Repr

/-- A notice or outcome, and the records whose rewrites it still waits for. -/
structure Waiting where
  needs : List (Fin 29)
  act : WaitAct
deriving DecidableEq, Repr

/-- The report writer (R200): the update count of each record, the records due a rewrite, and what waits. -/
structure Report where
  counts : Vector Nat 29
  wanted : Vector Bool 29
  waiting : List Waiting
deriving DecidableEq, Repr

/-! ## The whole part -/

/-- The state of the GD-24, the shared memory it works in, and the queue of commands that wait. -/
structure State where
  regs : Regs
  engine : Engine
  /-- the reset pin is held low (R204) -/
  resetLow : Bool
  exch : ExchangeIf
  change : ChangeEngine
  editions : EditionMgr
  clock : Clock
  roster : Roster
  ports : Vector Port 4
  profiles : Vector Profile 4
  sched : Sched
  sweeps : Vector Sweep 24
  report : Report
  /-- shared memory: address and byte, strictly rising, no zero byte (log 3) -/
  mem : List Host.Cell
  /-- the commands waiting, first in, first out -/
  pending : List Instr
deriving DecidableEq, Repr

/-- No command of the GD-24 stops the model: what the manual calls FAULTED is an engine state (R209). -/
inductive Fault where
deriving DecidableEq, Repr

/-- Refusals. -/
inductive Refusal where
  /-- Raised by exec alone, for a row without a meaning (none in this model); safe. -/
  | notModelled (mnemonic : String)
deriving DecidableEq, Repr

/-! ## Cold values -/

/-- Registers after power-on (R183). -/
def Regs.cold : Regs := ⟨false, 0, 0, 0⟩

/-- A strip after power-on and RESTART (R198). -/
def StripState.cold : StripState := ⟨0, .stopped⟩

/-- The exchange interface after power-on and RESTART (R198). -/
def ExchangeIf.cold : ExchangeIf := ⟨none, .cold, .cold, none⟩

/-- The change engine after power-on and RESTART (R9, R21, R33, R40). -/
def ChangeEngine.cold : ChangeEngine :=
  { identity := 0, pages := 0, seed := 0, gen := 0, region := .a, digest := 0, refused := 0, table := [],
    changing := false, purge := .empty, purgeSkipped := false, batch := none, format := none,
    rebuild := none, copyCursor := 0 }

/-- The ACTIVE slot after power-on and RESTART (R53). -/
def ActiveSlot.cold : ActiveSlot := ⟨false, 0, 0, [], 0, .a⟩

/-- An EMPTY PENDING slot that names region `r` (R53, R58; log 16). -/
def PendingSlot.empty (r : Region) : PendingSlot := ⟨.empty, 0, 0, [], 0, 0, r, false, false⟩

/-- The edition manager after power-on and RESTART (R53, R59, R69). -/
def EditionMgr.cold : EditionMgr := ⟨.cold, .empty .b, none, Vector.replicate 4 false, false⟩

/-- The service clock after power-on and RESTART (R64). -/
def Clock.cold : Clock := ⟨false, 0, 0, 0, 0, 0, false⟩

/-- Counters at 0 (R75). -/
def Counters.zero : Counters := ⟨0, 0, 0, 0, 0, 0, 0, 0⟩

/-- The cold value of a roster slot (R71). -/
def Slot.cold : Slot :=
  { state := .vacant, binding := none, mode := .free, frozen := false, serial := 0, serialSeen := 0,
    cap := none, served := 0, blIncapable := false, edIncapable := false, heldId := 0, heldH := 0,
    heldActive := ⟨0, 0⟩, heldPending := none, reload := false, repair := false, unconfirmed := false,
    reason := .none, replaced := false, duplicate := false, window := none, reach := .primary, misses := 0,
    failures := 0, garbleRun := 0, backoff := none, keepalive := none, kept := none, identify := none,
    counters := .zero }

/-- What the roster keeps per line, cold (R71, R91). -/
def LineRoster.cold : LineRoster := ⟨1, [], List.replicate 31 0, false⟩

/-- The roster after power-on and RESTART (R71); the first discovery visit is a period away (R89, log 25). -/
def Roster.cold : Roster := ⟨Vector.replicate 24 .cold, Vector.replicate 4 .cold, false, 250 * Config.ms⟩

/-- Line counters at 0 (R114). -/
def LineCounters.zero : LineCounters := ⟨0, 0, 0, 0, 0⟩

/-- A line port after power-on and RESTART (R96). -/
def Port.cold : Port :=
  { mode := .off, applied := .off, forming := false, profile := 0, xstate := .idle, tag := 0, last := none, missRun := 0,
    goodRun := 0, broken := false, echoDue := false, exchange := none, reply := none, replyLeft := 0,
    gapLeft := 0, sendLeft := 0, gap := 0, rate := 0, idleTime := 0, rxSide := .primary, recordTimer := none,
    tx := [], counters := .zero }

/-- The default profile (R99). -/
def Profile.default : Profile := ⟨3, 40, 2, 2, 3, 8, 8, false, true⟩

/-- An arbiter after power-on and RESTART (R141). -/
def Arbiter.cold : Arbiter := ⟨none, ⟨none, none, none, none, none, none, none⟩, none, false⟩

/-- The scheduler after power-on and RESTART (R141). -/
def Sched.cold : Sched :=
  ⟨Vector.replicate 4 .cold, Vector.replicate 24 none, Vector.replicate 24 ⟨false, false, false⟩, []⟩

/-- The cold sweep record (R169). -/
def Sweep.cold : Sweep := ⟨0, [], 0, none⟩

/-- The report writer after power-on and RESTART (R200). -/
def Report.cold : Report := ⟨Vector.replicate 29 0, Vector.replicate 29 false, []⟩

/-- The machine right after power-on (R204): HALTED cold, every block cold, every register at its power-on
value, nothing written in shared memory (log 3), no command waiting. -/
def State.reset : State :=
  { regs := .cold, engine := .haltedCold, resetLow := false, exch := .cold, change := .cold,
    editions := .cold, clock := .cold, roster := .cold, ports := Vector.replicate 4 .cold,
    profiles := Vector.replicate 4 .default, sched := .cold, sweeps := Vector.replicate 24 .cold,
    report := .cold, mem := [], pending := [] }

end Sys2Proof.Machine
end

