-- ==== Sys2Proof/Machine/Memory.lean ====
section
/-! DEFINITION. Shared memory in its canonical form, bytes in little-endian order, and the two CRCs. -/

namespace Sys2Proof.Machine

/-! ## Memory: a strictly rising list of (address, nonzero byte) -/

/-- What an unlisted address reads as (DESIGN CHOICE, log 3). -/
def Memory.unlisted : Byte := 0

/-- The cells from `lo` on are strictly rising and none holds the unlisted byte. -/
def Memory.wfFrom (lo : Nat) : List Host.Cell → Bool
  | [] => true
  | (a, b) :: m => decide (lo ≤ a) && decide (b ≠ Memory.unlisted) && Memory.wfFrom (a + 1) m

/-- The canonical form of a memory. -/
def Memory.wf (m : List Host.Cell) : Bool := Memory.wfFrom 0 m

/-- One byte. -/
def Memory.read : List Host.Cell → Nat → Byte
  | [], _ => Memory.unlisted
  | (k, b) :: m, a => if k = a then b else Memory.read m a

/-- Stores one byte, keeping the canonical form. -/
def Memory.write : List Host.Cell → Nat → Byte → List Host.Cell
  | [], a, b => if b = Memory.unlisted then [] else [(a, b)]
  | (k, c) :: m, a, b =>
    if a < k then (if b = Memory.unlisted then (k, c) :: m else (a, b) :: (k, c) :: m)
    else if a = k then (if b = Memory.unlisted then m else (a, b) :: m)
    else (k, c) :: Memory.write m a b

/-- `n` bytes from address `a` on. -/
def Memory.readBytes (m : List Host.Cell) : Nat → Nat → List Byte
  | _, 0 => []
  | a, n + 1 => Memory.read m a :: Memory.readBytes m (a + 1) n

/-- Stores bytes from address `a` on. -/
def Memory.writeBytes (m : List Host.Cell) (a : Nat) : List Byte → List Host.Cell
  | [] => m
  | b :: bs => Memory.writeBytes (Memory.write m a b) (a + 1) bs

/-- Stores single bytes at given addresses, in order. -/
def Memory.storeAll (m : List Host.Cell) : List (Word × Byte) → List Host.Cell
  | [] => m
  | (a, b) :: rest => Memory.storeAll (Memory.write m a.toNat b) rest

/-! ## Byte order (00: least significant byte first) -/

/-- The `n` low bytes of `v`, least significant first. -/
def leBytes : Nat → Nat → List Byte
  | 0, _ => []
  | n + 1, v => BitVec.ofNat 8 v :: leBytes n (v / 256)

/-- The number a list of bytes spells, least significant first. -/
def leNat : List Byte → Nat
  | [] => 0
  | b :: bs => b.toNat + 256 * leNat bs

/-- The `n`-byte field at offset `off` of a structure. -/
def fieldAt (bs : List Byte) (off n : Nat) : Nat := leNat ((bs.drop off).take n)

/-! ## CRCs -/

/-- One bit of a CRC, most significant bit first. -/
def crcBit {w : Nat} (poly c : BitVec w) : BitVec w := if c.msb then (c <<< 1) ^^^ poly else c <<< 1

/-- One byte of a CRC, most significant bit first, no reflection. -/
def crcByte {w : Nat} (poly c : BitVec w) (b : Byte) : BitVec w :=
  (List.range 8).foldl (fun c _ => crcBit poly c) (c ^^^ (b.setWidth w <<< (w - 8)))

/-- CRC-32 with the parameters of R6. -/
def crc32 (bs : List Byte) : Word := bs.foldl (crcByte 0x04C11DB7) 0xFFFFFFFF ^^^ 0xFFFFFFFF

/-- CRC-16 with the parameters of R103. -/
def crc16 (bs : List Byte) : BitVec 16 := bs.foldl (crcByte 0x8005) 0xFFFF

/-- The page CRC of R6: bytes 12-15 are fed in as zero. -/
def pageCrc (page : List Byte) : Word := crc32 (page.take 12 ++ [0, 0, 0, 0] ++ page.drop 16)

/-- The page CRC field of a page, bytes 12-15. -/
def pageCrcField (page : List Byte) : Word := BitVec.ofNat 32 (fieldAt page 12 4)

/-- A page with its CRC computed over its final bytes and stored in bytes 12-15 (R6). -/
def sealPage (page : List Byte) : List Byte :=
  page.take 12 ++ leBytes 4 (pageCrc page).toNat ++ page.drop 16

end Sys2Proof.Machine
end

