-- ==== Sys2Proof/Machine/Image.lean ====
section
/-! DEFINITION. The blocklist image in memory: entries, pages, key placement, and the application of one
change item to an image (chapters 1 and 2). Nothing here knows the State. -/

namespace Sys2Proof.Machine

/-- A blocklist entry (chapter 1, section 1.1). -/
structure Entry where
  key : BitVec 64
  action : Byte
  reason : Byte
  expiry : Nat
deriving DecidableEq, Repr

/-- An image as the change engine addresses it: region base, page count and seed. -/
structure Surface where
  base : Nat
  pages : Nat
  seed : Word
deriving DecidableEq, Repr

/-- Entry slots of a page (R4). -/
def pageRoom : Nat := 20

/-- The 12 bytes of an entry. -/
def entryBytes (e : Entry) : List Byte :=
  leBytes 8 e.key.toNat ++ [e.action, e.reason] ++ leBytes 2 e.expiry

/-- The entry that 12 bytes spell. -/
def parseEntry (bs : List Byte) : Entry :=
  { key := BitVec.ofNat 64 (fieldAt bs 0 8), action := BitVec.ofNat 8 (fieldAt bs 8 1),
    reason := BitVec.ofNat 8 (fieldAt bs 9 1), expiry := fieldAt bs 10 2 }

/-- The address of page `n` (R7). -/
def pageAddr (base n : Nat) : Nat := base + 256 * n

/-- The first `live` entries of page `n`: the region holds the entries, the stamp table their number (R8). -/
def readEntries (mem : List Host.Cell) (base n live : Nat) : List Entry :=
  (List.range live).map fun i => parseEntry (Memory.readBytes mem (pageAddr base n + 16 + 12 * i) 12)

/-- Bytes 16-255 of a page that holds `es`, packed, the rest zero (R4). -/
def bodyBytes (es : List Entry) : List Byte :=
  (es.flatMap entryBytes) ++ List.replicate (12 * (pageRoom - es.length)) 0

/-- Writes the 20 entry slots of page `n`. -/
def writeEntries (mem : List Host.Cell) (base n : Nat) (es : List Entry) : List Host.Cell :=
  Memory.writeBytes mem (pageAddr base n + 16) (bodyBytes es)

/-! ## Key placement (R14, R15) -/

/-- The home page of a key. -/
def homePage (key : BitVec 64) (pages : Nat) (seed : Word) : Nat :=
  let f : Word := key.extractLsb' 32 32 ^^^ key.extractLsb' 0 32 ^^^ seed
  let m : Word := f ^^^ (f >>> 16)
  m.toNat * pages / 2 ^ 32

/-- The probe window of a key, in window order. -/
def probeWindow (key : BitVec 64) (pages : Nat) (seed : Word) : List Nat :=
  let h := homePage key pages seed
  [h % pages, (h + 1) % pages, (h + 2) % pages, (h + 3) % pages]

/-! ## Entries of one page (R4) -/

/-- Inserts an entry at its sorted position (R27). -/
def insertEntry (e : Entry) : List Entry → List Entry
  | [] => [e]
  | x :: xs => if e.key < x.key then e :: x :: xs else x :: insertEntry e xs

/-- Removes the entry of a key, closing the gap (R28). -/
def removeEntry (key : BitVec 64) : List Entry → List Entry
  | [] => []
  | x :: xs => if x.key = key then xs else x :: removeEntry key xs

/-- Replaces the fields of a key's entry in place (R26). -/
def updateEntry (e : Entry) : List Entry → List Entry
  | [] => []
  | x :: xs => if x.key = e.key then e :: xs else x :: updateEntry e xs

/-! ## Change items (R23 to R28) -/

/-- A change item (chapter 2, section 2.1). -/
structure Item where
  operation : Byte
  entry : Entry
deriving DecidableEq, Repr

/-- Item outcomes. -/
inductive ItemOutcome where
  | added
  | updated
  | unchanged
  | removed
  | absent
  | full
  | expired
  | badItem
deriving DecidableEq, Repr

/-- The outcome's code (chapter 2, section 2.1). -/
def ItemOutcome.code : ItemOutcome → Byte
  | .added => 1
  | .updated => 2
  | .unchanged => 3
  | .removed => 4
  | .absent => 5
  | .full => 6
  | .expired => 7
  | .badItem => 8

/-- Outcomes that change a page (R29). -/
def ItemOutcome.changes : ItemOutcome → Bool
  | .added | .updated | .removed => true
  | _ => false

/-- Outcomes counted in the batch's detail count (R31). -/
def ItemOutcome.faulty : ItemOutcome → Bool
  | .full | .expired | .badItem => true
  | _ => false

/-- The item that 16 bytes spell. -/
def parseItem (bs : List Byte) : Item :=
  { operation := BitVec.ofNat 8 (fieldAt bs 8 1),
    entry := { key := BitVec.ofNat 64 (fieldAt bs 0 8), action := BitVec.ofNat 8 (fieldAt bs 9 1),
               reason := BitVec.ofNat 8 (fieldAt bs 10 1), expiry := fieldAt bs 12 2 } }

/-- What applying an item did: the memory, the outcome, and the page changed with its new live count. -/
structure Applied where
  mem : List Host.Cell
  outcome : ItemOutcome
  page : Option (Nat × Nat)
deriving DecidableEq, Repr

/-- The first page of a window that holds the key; `lives` gives live counts. -/
def findPage (mem : List Host.Cell) (base : Nat) (lives : Nat → Nat) (key : BitVec 64) :
    List Nat → Option Nat
  | [] => none
  | p :: ps =>
    if (readEntries mem base p (lives p)).any (fun e => e.key = key) then some p
    else findPage mem base lives key ps

/-- ADD (R26, R27). -/
def applyAdd (mem : List Host.Cell) (img : Surface) (lives : Nat → Nat) (e : Entry) : Applied :=
  let window := probeWindow e.key img.pages img.seed
  match findPage mem img.base lives e.key window with
  | some p =>
    let es := readEntries mem img.base p (lives p)
    if es.any (fun x => decide (x = e)) then ⟨mem, .unchanged, none⟩
    else ⟨writeEntries mem img.base p (updateEntry e es), .updated, some (p, lives p)⟩
  | none =>
    match window.find? (fun p => lives p < pageRoom) with
    | some p =>
      let es := readEntries mem img.base p (lives p)
      ⟨writeEntries mem img.base p (insertEntry e es), .added, some (p, lives p + 1)⟩
    | none => ⟨mem, .full, none⟩

/-- REMOVE (R28). -/
def applyRemove (mem : List Host.Cell) (img : Surface) (lives : Nat → Nat) (key : BitVec 64) : Applied :=
  match findPage mem img.base lives key (probeWindow key img.pages img.seed) with
  | some p =>
    let es := readEntries mem img.base p (lives p)
    ⟨writeEntries mem img.base p (removeEntry key es), .removed, some (p, lives p - 1)⟩
  | none => ⟨mem, .absent, none⟩

/-- A bad item (R24). -/
def Item.bad (i : Item) : Bool :=
  decide (i.entry.key = 0) || decide (i.operation ≠ 1 ∧ i.operation ≠ 2) ||
  (decide (i.operation = 1) &&
    (decide (i.entry.action ≠ 1 ∧ i.entry.action ≠ 2) || decide (63 < i.entry.reason.toNat)))

/-- An ADD that is EXPIRED (R25); `sd` is the service day, none while the clock is unset. -/
def Item.isExpired (i : Item) (sd : Option Nat) : Bool :=
  decide (i.operation = 1) && decide (i.entry.expiry ≠ 0) &&
  (match sd with
   | none => false
   | some d => decide (i.entry.expiry < d))

/-- One item against an image: the first rule that decides it gives its outcome (R24 to R28). -/
def applyItem (mem : List Host.Cell) (img : Surface) (lives : Nat → Nat) (sd : Option Nat) (i : Item) :
    Applied :=
  if i.bad then ⟨mem, .badItem, none⟩
  else if i.isExpired sd then ⟨mem, .expired, none⟩
  else if i.operation = 1 then applyAdd mem img lives i.entry
  else applyRemove mem img lives i.entry.key

/-! ## Page headers (R3) -/

/-- The first 16 bytes of a page, its CRC field zero. -/
def headerBytes (n live : Nat) (stamp identity : Word) : List Byte :=
  leBytes 2 n ++ [BitVec.ofNat 8 live, 1] ++ leBytes 4 stamp.toNat ++ leBytes 4 identity.toNat ++
  [0, 0, 0, 0]

/-- The bytes of page `n` in memory. -/
def readPage (mem : List Host.Cell) (base n : Nat) : List Byte :=
  Memory.readBytes mem (pageAddr base n) 256

/-- The final bytes of a page under a new header: its entry slots as memory holds them. -/
def sealedPage (mem : List Host.Cell) (base n live : Nat) (stamp identity : Word) : List Byte :=
  sealPage (headerBytes n live stamp identity ++ Memory.readBytes mem (pageAddr base n + 16) 240)

/-- Rewrites the header of page `n`, its CRC over the page's final bytes (R30). -/
def writeHeader (mem : List Host.Cell) (base n live : Nat) (stamp identity : Word) : List Host.Cell :=
  Memory.writeBytes mem (pageAddr base n) ((sealedPage mem base n live stamp identity).take 16)

/-- The CRC of page `n` under that header. -/
def headerCrc (mem : List Host.Cell) (base n live : Nat) (stamp identity : Word) : Word :=
  pageCrcField (sealedPage mem base n live stamp identity)

/-- A void page (R5, R18). -/
def voidPage (n : Nat) (stamp identity : Word) : List Byte :=
  sealPage (headerBytes n 0 stamp identity ++ List.replicate 240 0)

/-- Writes void pages `first` to `first + k - 1`, stamp 1 (R18, R41). -/
def writeVoids (mem : List Host.Cell) (base first : Nat) (identity : Word) : Nat → List Host.Cell
  | 0 => mem
  | k + 1 =>
    writeVoids (Memory.writeBytes mem (pageAddr base first) (voidPage first 1 identity)) base (first + 1)
      identity k

end Sys2Proof.Machine
end

