-- ==== Sys2Proof/Machine/Ops.lean ====
section
/-! DEFINITION. The named operations over the state: accessors, the lines and pairs, time, saturating counts,
report rewrites and what waits for them. -/

namespace Sys2Proof.Machine

/-- The outcome type of every meaning. -/
abbrev Out := Host.Outcome State Fault Refusal

/-- All roster slots, ascending. -/
def allSlots : List (Fin 24) := List.finRange 24

/-- All lines, ascending. -/
def allLines : List (Fin 4) := List.finRange 4

/-! ## Accessors -/

/-- Roster slot `n`. -/
def State.slot (s : State) (n : Fin 24) : Slot := s.roster.slots[n]

/-- Replaces roster slot `n`. -/
def State.setSlot (s : State) (n : Fin 24) (v : Slot) : State :=
  { s with roster := { s.roster with slots := s.roster.slots.set n v } }

/-- Changes roster slot `n`. -/
def State.modSlot (s : State) (n : Fin 24) (f : Slot → Slot) : State := s.setSlot n (f (s.slot n))

/-- What the roster keeps of line `l`. -/
def State.lineRoster (s : State) (l : Fin 4) : LineRoster := s.roster.lines[l]

/-- Changes what the roster keeps of line `l`. -/
def State.modLineRoster (s : State) (l : Fin 4) (f : LineRoster → LineRoster) : State :=
  { s with roster := { s.roster with lines := s.roster.lines.set l (f (s.lineRoster l)) } }

/-- Line port `l`. -/
def State.port (s : State) (l : Fin 4) : Port := s.ports[l]

/-- Changes line port `l`. -/
def State.modPort (s : State) (l : Fin 4) (f : Port → Port) : State :=
  { s with ports := s.ports.set l (f (s.port l)) }

/-- Arbiter of line `l`. -/
def State.arbiter (s : State) (l : Fin 4) : Arbiter := s.sched.arbiters[l]

/-- Changes the arbiter of line `l`. -/
def State.modArbiter (s : State) (l : Fin 4) (f : Arbiter → Arbiter) : State :=
  { s with sched := { s.sched with arbiters := s.sched.arbiters.set l (f (s.arbiter l)) } }

/-- The delivery record of slot `n`. -/
def State.delivery (s : State) (n : Fin 24) : Option Delivery := s.sched.deliveries[n]

/-- Replaces the delivery record of slot `n`. -/
def State.setDelivery (s : State) (n : Fin 24) (d : Option Delivery) : State :=
  { s with sched := { s.sched with deliveries := s.sched.deliveries.set n d } }

/-- Changes the delivery record of slot `n`, if it has one. -/
def State.modDelivery (s : State) (n : Fin 24) (f : Delivery → Delivery) : State :=
  s.setDelivery n ((s.delivery n).map f)

/-- The three marks of slot `n`. -/
def State.marks (s : State) (n : Fin 24) : Marks := s.sched.marks[n]

/-- Changes the marks of slot `n`. -/
def State.modMarks (s : State) (n : Fin 24) (f : Marks → Marks) : State :=
  { s with sched := { s.sched with marks := s.sched.marks.set n (f (s.marks n)) } }

/-- Replaces the groups. -/
def State.setGroups (s : State) (gs : List Group) : State := { s with sched := { s.sched with groups := gs } }

/-- The sweep record of slot `n`. -/
def State.sweep (s : State) (n : Fin 24) : Sweep := s.sweeps[n]

/-- Replaces the sweep record of slot `n`. -/
def State.setSweep (s : State) (n : Fin 24) (v : Sweep) : State := { s with sweeps := s.sweeps.set n v }

/-- Applies an operation for every slot of a list, in order. -/
def forSlots (f : Fin 24 → State → State) (ns : List (Fin 24)) (s : State) : State :=
  ns.foldl (fun s n => f n s) s

/-- Applies an operation for every line of a list, in order. -/
def forLines (f : Fin 4 → State → State) (ls : List (Fin 4)) (s : State) : State :=
  ls.foldl (fun s l => f l s) s

/-- The descriptor copy; all zero while there is none (R198). -/
def State.desc (s : State) : Descriptor :=
  s.exch.descriptor.getD ⟨0, 0, 0, 0, 0, 0, 0, 0, 0, 0⟩

/-- The base of an image region (R7). -/
def State.imageBase (s : State) : Region → Nat
  | .a => s.desc.imageA
  | .b => s.desc.imageB

/-- The base of an edition region (R53). -/
def State.editionBase (s : State) : Region → Nat
  | .a => s.desc.editionA
  | .b => s.desc.editionB

/-- The other region. -/
def Region.other : Region → Region
  | .a => .b
  | .b => .a

/-! ## Engine -/

/-- The part takes up and runs jobs: RUNNING or STOPPING (R34, R59). -/
def State.working (s : State) : Bool := s.engine = .running || s.engine = .stopping

/-- The part is RUNNING. -/
def State.running (s : State) : Bool := s.engine = .running

/-- The part is FAULTED. -/
def State.isFaulted (s : State) : Bool :=
  match s.engine with
  | .faulted _ => true
  | _ => false

/-! ## Lines and pairs (R72, R96) -/

/-- The other line of the two that can form a pair. -/
def partner : Fin 4 → Fin 4
  | 0 => 1
  | 1 => 0
  | 2 => 3
  | 3 => 2

/-- The even line of the two that can form a pair. -/
def evenLine : Fin 4 → Fin 4
  | 0 => 0
  | 1 => 0
  | 2 => 2
  | 3 => 2

/-- Lines `l` and its partner are a pair (R96). -/
def State.paired (s : State) (l : Fin 4) : Bool :=
  (s.port (evenLine l)).mode = .pairPrimary && (s.port (partner (evenLine l))).mode = .pairSecondary

/-- The line whose exchange state, arbiter and discovery serve `l`: a pair's primary, else `l` itself. -/
def State.actingLine (s : State) (l : Fin 4) : Fin 4 := if s.paired l then evenLine l else l

/-- A line that counts as one line and is not OFF: SINGLE, or the primary of a pair (00, R89). -/
def State.lineOn (s : State) (l : Fin 4) : Bool :=
  (s.port l).mode = .single || (s.port l).mode = .pairPrimary

/-- The port that drives or reads a side of line `l` (R112). -/
def sidePort (l : Fin 4) : Side → Fin 4
  | .primary => l
  | .secondary => partner l

/-- The other side. -/
def otherSide : Side → Side
  | .primary => .secondary
  | .secondary => .primary

/-- The profile of line `l` (R99). -/
def State.profileOf (s : State) (l : Fin 4) : Profile := s.profiles[(s.port l).profile]

/-- Line of a bound slot. -/
def State.lineOf (s : State) (n : Fin 24) : Option (Fin 4) := (s.slot n).binding.map (·.1)

/-- The profile of the line of a slot; the default profile for an unbound slot. -/
def State.slotProfile (s : State) (n : Fin 24) : Profile :=
  match s.lineOf n with
  | some l => s.profileOf l
  | none => .default

/-- The slots bound to line `l`, ascending. -/
def State.slotsOn (s : State) (l : Fin 4) : List (Fin 24) :=
  allSlots.filter fun n => s.lineOf n = some l

/-! ## Time -/

/-- The keep-alive interval of a profile (R92): units of 250 ms. -/
def Profile.interval (p : Profile) : Time := p.keepalive * (250 * Config.ms)

/-- The multiple of 19,200 baud a rate code stands for (R73). -/
def rateFactor : Fin 7 → Nat
  | 0 => 1
  | 1 => 2
  | 2 => 3
  | 3 => 6
  | 4 => 12
  | 5 => 24
  | 6 => 48

/-- A listed rate in baud. -/
def baud (r : Fin 7) : Nat := 19200 * rateFactor r

/-- A byte time, ten bit times (R101), at a listed rate: whole in units of `Time`. -/
def byteTime (r : Fin 7) : Time := 3750000 / rateFactor r

/-- The later of a running time left and a new one (R93). -/
def later (cur : Option Time) (new : Time) : Option Time := some (max (cur.getD 0) new)

/-- A saturating 16-bit count (R75). -/
def satInc (n : Nat) : Nat := min (n + 1) 65535

/-! ## Report records and what waits for them (R200, R201) -/

/-- The summary record. -/
def summaryRec : Fin 29 := 0

/-- The record of line `l`. -/
def lineRec (l : Fin 4) : Fin 29 := ⟨1 + l.val, by omega⟩

/-- The record of roster slot `n`. -/
def rosterRec (n : Fin 24) : Fin 29 := ⟨5 + n.val, by omega⟩

/-- Has a record rewritten. -/
def want (r : Fin 29) (s : State) : State :=
  { s with report := { s.report with wanted := s.report.wanted.set r true } }

/-- Has records rewritten. -/
def wantAll (rs : List (Fin 29)) (s : State) : State := rs.foldl (fun s r => want r s) s

/-- Something to give once the records named have been rewritten (R201). -/
def awaitRecords (needs : List (Fin 29)) (act : WaitAct) (s : State) : State :=
  { s with report := { s.report with waiting := s.report.waiting ++ [⟨needs, act⟩] } }

/-- The EVENTS bit of a notice (R183). -/
def Notice.bit : Notice → Nat
  | .done => 0
  | .roster => 1
  | .line => 2
  | .edition => 3
  | .clock => 4
  | .quarantine => 5
  | .saturated => 6
  | .fault => 7

/-- Sets the bit of a notice in EVENTS. -/
def setNotice (n : Notice) (s : State) : State :=
  { s with regs := { s.regs with events := s.regs.events ||| (1#8 <<< n.bit) } }

/-- An owner raises a notice at once; in FAULTED the owners raise none (R194). -/
def raise (n : Notice) (s : State) : State := if s.isFaulted then s else setNotice n s

/-- Has records rewritten and raises a notice after them (R201). -/
def raiseAfter (n : Notice) (rs : List (Fin 29)) (s : State) : State :=
  if s.isFaulted then s else awaitRecords rs (.notice n) (wantAll rs s)

/-- A notice of a slot's change of state waits for its record and the summary (R201). -/
def raiseForSlot (n : Notice) (k : Fin 24) (s : State) : State := raiseAfter n [rosterRec k, summaryRec] s

/-! ### Which records a step makes due (R71, R115, R201) -/

/-- A slot as its record shows it: without the three timers and the fields no record shows. -/
def Slot.shown (v : Slot) : Slot :=
  { v with backoff := none, keepalive := none, window := none, kept := none, identify := none }

/-- Slot `n`'s record shows something new. -/
def rosterChanged (old new : State) (n : Fin 24) : Bool :=
  decide ((old.slot n).shown ≠ (new.slot n).shown) ||
  decide ((old.sweep n).cursor ≠ (new.sweep n).cursor) ||
  decide ((old.sweep n).list.length ≠ (new.sweep n).list.length)

/-- The summary's slot counts or its roster-full flag show something new. -/
def countsChanged (old new : State) : Bool :=
  allSlots.any (fun n => decide ((old.slot n).state ≠ (new.slot n).state)) ||
  decide (old.roster.full ≠ new.roster.full)

/-- What a line record must show at once: mode, profile index, loop state, clash list (R115). -/
def State.lineNow (s : State) (l : Fin 4) : LineMode × Fin 4 × Bool × List Nat :=
  let p := s.port l
  let a := s.actingLine l
  (p.mode, p.profile, (s.port a).broken, (s.lineRoster a).clash)

/-- What a line record may show 250 ms later: counters, discovery position, exchange state (R115). -/
def State.lineLater (s : State) (l : Fin 4) : LineCounters × Nat × XState :=
  let a := s.actingLine l
  ((s.port l).counters, (s.lineRoster a).position, (s.port a).xstate)

/-- Marks due every record whose shown fields a step changed, and starts the line record timers (R115). It
touches the rewrites due and those timers only. -/
def settle (old new : State) : State :=
  { new with
    report := { new.report with
      wanted := Vector.ofFn fun r : Fin 29 =>
        new.report.wanted[r] ||
        (if r.val = 0 then countsChanged old new
         else if h : r.val < 5 then decide (old.lineNow ⟨r.val - 1, by omega⟩ ≠ new.lineNow ⟨r.val - 1, by omega⟩)
         else rosterChanged old new ⟨r.val - 5, by omega⟩) }
    ports := Vector.ofFn fun l : Fin 4 =>
      let p := new.ports[l]
      if p.recordTimer = none ∧ old.lineLater l ≠ new.lineLater l ∧ old.lineNow l = new.lineNow l then
        { p with recordTimer := some (250 * Config.ms) }
      else p }

/-- A step of a part whose reset pin is high (R204; log 23), whose changes mark the records they show. -/
def recorded (s : State) (f : State → State) : Out :=
  .next (if s.resetLow then s else settle s (f s))

end Sys2Proof.Machine
end

