-- ==== Sys2Proof/Machine/Deliveries.lean ====
section
/-! DEFINITION. Delivery records, plans and groups: needs, plans, insertion of urgent pages, and every way a
delivery ends at the part (chapter 7, sections 7.2, 7.3, 7.7 and 7.8). -/

namespace Sys2Proof.Machine

/-! ## Modes and classes -/

/-- A blocklist delivery. -/
def Mode.isBlocklist : Mode → Bool
  | .delta | .reload | .repair => true
  | .stage | .install => false

/-- The class that owns a delivery (R145). -/
def Delivery.owner (d : Delivery) : Cls :=
  match d.mode with
  | .delta | .reload => if d.urgent = [] then .routine else .urgent
  | .repair => .repair
  | .stage => .stage
  | .install => .install

/-- The pages left in a delivery's own plan (R145); a REPAIR's plan is its repair list. -/
def Delivery.cursor (d : Delivery) : Nat := d.urgent.length + d.rest.length

/-- The slot an exchange is addressed to. -/
def Work.slot : Work → Option (Fin 24)
  | .poll n | .confirm n | .identify n | .openTo n _ | .page n | .close n | .check n | .activate n
  | .discard n => some n
  | .discovery | .groupPage _ | .activateAll | .time => none

/-- An exchange of a delivery to one slot. -/
def Work.isDelivery : Work → Bool
  | .openTo _ _ | .page _ | .close _ | .check _ => true
  | _ => false

/-- An exchange counted toward the 16 of a turn (R144). -/
def Work.counted : Work → Bool
  | .page _ | .check _ | .groupPage _ => true
  | _ => false

/-- An exchange that ends its turn whatever it draws: a DISCARD (R154). -/
def Work.endsTurn : Work → Bool
  | .discard _ => true
  | _ => false

/-! ## Needs and plans (R146, R147, R149) -/

/-- The blocklist need of a slot (R146, R173): RELOAD, DELTA or REPAIR. -/
def State.need (s : State) (n : Fin 24) : Option Mode :=
  let v := s.slot n
  if s.change.pages = 0 then none
  else if v.reload || v.heldId ≠ s.change.identity || v.heldH = 0 then some .reload
  else if v.heldH < s.change.gen then some .delta
  else if v.repair then some .repair
  else none

/-- The page numbers, ascending from `i`, whose stamp table record satisfies `f`. -/
def pagesWhere (f : StampRec → Bool) : Nat → List StampRec → List Nat
  | _, [] => []
  | i, r :: rs => if f r then i :: pagesWhere f (i + 1) rs else pagesWhere f (i + 1) rs

/-- A page a new delivery plans (R147): a DELTA every page stamped above H; a RELOAD every page not void or
stamped above 1. -/
def planned (mode : Mode) (h : Word) (r : StampRec) : Bool :=
  match mode with
  | .delta => decide (h < r.stamp)
  | .reload => decide (r.live ≠ 0) || decide (1 < r.stamp)
  | _ => false

/-- The H a plan counts from: the slot's recorded H, or 0 for a RELOAD (R147). -/
def planBase (mode : Mode) (h : Word) : Word :=
  match mode with
  | .delta => h
  | _ => 0

/-- The urgent part of a new plan (R147). -/
def urgentPart (mode : Mode) (h : Word) (table : List StampRec) : List Nat :=
  pagesWhere (fun r => planned mode h r && decide (planBase mode h < r.hot)) 0 table

/-- The rest of a new plan (R147). -/
def restPart (mode : Mode) (h : Word) (table : List StampRec) : List Nat :=
  pagesWhere (fun r => planned mode h r && !decide (planBase mode h < r.hot)) 0 table

/-- The DELTA or RELOAD a slot needs, if its plan now would have an urgent part (R149, R151). A hot-marked page that is void
with stamp 1 is not planned (R147; log 63). -/
def State.urgentNeed (s : State) (n : Fin 24) : Bool :=
  match s.need n with
  | some .delta => decide (urgentPart .delta (s.slot n).heldH s.change.table ≠ [])
  | some .reload => decide (urgentPart .reload 0 s.change.table ≠ [])
  | _ => false

/-- The DELTA or RELOAD a slot needs, if its plan now would have no urgent part (R152). -/
def State.routineNeed (s : State) (n : Fin 24) : Bool :=
  match s.need n with
  | some .delta => decide (urgentPart .delta (s.slot n).heldH s.change.table = [])
  | some .reload => decide (urgentPart .reload 0 s.change.table = [])
  | _ => false

/-! ## Sorted page lists -/

/-- Inserts a page number into an ascending list, once. -/
def insertPage (p : Nat) : List Nat → List Nat
  | [] => [p]
  | q :: qs => if p < q then p :: q :: qs else if p = q then q :: qs else q :: insertPage p qs

/-- Merges page numbers into an ascending list. -/
def mergePages (ps qs : List Nat) : List Nat := ps.foldl (fun acc p => insertPage p acc) qs

/-! ## Turns and groups -/

/-- Ends every turn that serves target `t`. -/
def endTurns (t : Target) (s : State) : State :=
  { s with sched := { s.sched with
      arbiters := s.sched.arbiters.map fun a =>
        match a.turn with
        | some u => if u.target = t then { a with turn := none } else a
        | none => a } }

/-- The group a slot belongs to. -/
def State.groupOf (s : State) (n : Fin 24) : Option Group := s.sched.groups.find? fun g => g.members.contains n

/-- The group of an id. -/
def State.group (s : State) (id : Nat) : Option Group := s.sched.groups.find? fun g => g.id = id

/-- Changes the group of an id. -/
def State.modGroup (s : State) (id : Nat) (f : Group → Group) : State :=
  s.setGroups (s.sched.groups.map fun g => if g.id = id then f g else g)

/-- The least id no group has; at most 24 groups can exist. -/
def State.freshGroup (s : State) : Nat :=
  ((List.range 25).find? fun i => s.sched.groups.all fun g => g.id ≠ i).getD 25

/-- The pages a member of a ROUTINE group needs (R161): for DELTA members every page stamped above the lowest
base H among them, for a RELOAD member what R147 plans. -/
def routineUnion (ds : List Delivery) (table : List StampRec) : List Nat :=
  let bases := (ds.filter (fun d => d.mode = .delta)).map (·.baseH)
  pagesWhere (fun r => bases.any (fun b => decide (b < r.stamp)) ||
    (ds.any (fun d => d.mode = .reload) && planned .reload 0 r)) 0 table

/-- The pages whose bit is clear in at least one member's ACCEPT mask (R161). -/
def maskUnion (ds : List Delivery) (total : Nat) : List Nat :=
  (List.range total).filter fun k => ds.any fun d => !d.mask.getLsbD k

/-- The common plan of a group (R161). A page already in every member's own urgent part is sent to each
individually (R150) and is left out (log 15). -/
def commonPlan (s : State) (g : Group) : List Nat :=
  let ds := g.members.filterMap fun n => s.delivery n
  match ds with
  | [] => []
  | d :: _ =>
    if d.mode.isBlocklist then
      (routineUnion ds s.change.table).filter fun p => !ds.all (fun d => d.urgent.contains p)
    else maskUnion ds d.total

/-- Ends groups without members (R160, R163), and fixes the common plan of a group whose last OPEN has been
answered (R160). -/
def tendGroups (s : State) : State :=
  let dead := s.sched.groups.filter fun g => g.members.isEmpty
  let s1 := dead.foldl (fun s g => endTurns (.group g.id) s) s
  s1.setGroups ((s1.sched.groups.filter fun g => !g.members.isEmpty).map fun g =>
    if !g.planned && g.toOpen.isEmpty then { g with planned := true, plan := commonPlan s1 g } else g)

/-- A slot leaves its group (R160, R162). -/
def leaveGroup (n : Fin 24) (s : State) : State :=
  tendGroups (s.setGroups (s.sched.groups.map fun g =>
    { g with members := g.members.filter (fun m => decide (m ≠ n))
             toOpen := g.toOpen.filter (fun m => decide (m ≠ n)) }))

/-- A member's OPEN has drawn ACCEPT: it stays, and the group opens the next (R160). -/
def memberOpened (n : Fin 24) (s : State) : State :=
  tendGroups (s.setGroups (s.sched.groups.map fun g =>
    { g with toOpen := g.toOpen.filter (fun m => decide (m ≠ n)) }))

/-! ## Ends of a delivery -/

/-- A sweep cut short (R179): the list empties and the cursor goes back to the first page of the CHECK range
that held the lowest listed page; the held report is discarded. -/
def cutShort (n : Fin 24) (s : State) : State :=
  let w := s.sweep n
  s.setSweep n { w with
    cursor := match w.list with
      | [] => w.cursor
      | p :: _ => p / 8 * 8
    list := []
    held := none }

/-- A group frame on the wire counts no more for slot `n`: the delivery it had as the frame started is over, and one opened
since takes none of its tally (R131, R161). -/
def unlist (n : Fin 24) (s : State) : State :=
  { s with ports := s.ports.map fun q =>
      { q with exchange := q.exchange.map fun ex =>
          { ex with members := ex.members.filter fun m => decide (m ≠ n) } } }

/-- The delivery record of a slot is discarded, with its plan and tally; the turn serving it ends and the slot
leaves its group (R162, R164). -/
def dropDelivery (n : Fin 24) (s : State) : State :=
  if (s.delivery n).isSome then
    leaveGroup n (endTurns (.slot n) (unlist n (s.setDelivery n none)))
  else s

/-- A delivery that ends before its CLOSE ACK (R140, R164, R165): the record goes, and a sweep is cut short. -/
def endDelivery (n : Fin 24) (s : State) : State :=
  match s.delivery n with
  | some d => (if d.mode = .repair then cutShort n else id) (dropDelivery n s)
  | none => s

/-- Withdraws the purpose of exchanges of slot `n` that satisfy `p` (R109): one not started is taken back, one
started finishes its attempt and its reply is discarded. -/
def withdraw (n : Fin 24) (p : Work → Bool) (detach : Bool) (s : State) : State :=
  { s with ports := s.ports.map fun q =>
      match q.exchange with
      | some ex =>
        if ex.work.slot = some n ∧ p ex.work = true then
          (if ex.started then
            { q with exchange := some { ex with withdrawn := true, detached := ex.detached || detach } }
          else { q with exchange := none })
        else q
      | none => q }

/-- A delivery is abandoned (R164): no CLOSE, no failure; a slot not yet opened in a forming group leaves
it. -/
def abandon (n : Fin 24) (s : State) : State :=
  leaveGroup n (endDelivery n (withdraw n Work.isDelivery false s))

/-- Abandons the delivery of each slot whose delivery satisfies `p` (R166, R167). -/
def abandonWhere (p : Delivery → Bool) (s : State) : State :=
  forSlots (fun n s =>
    match s.delivery n with
    | some d => if p d then abandon n s else s
    | none => s) allSlots s

/-! ## Urgent insertion (R150) -/

/-- Pages inserted into a delivery's plan. -/
def Delivery.insert (ps : List Nat) (d : Delivery) : Delivery :=
  { d with
    urgent := mergePages ps d.urgent
    rest := d.rest.filter fun p => !ps.contains p
    inFlight := match d.inFlight with
      | some p => if ps.contains p then none else some p
      | none => none }

/-- The pages of a priority batch go into every open DELTA and RELOAD (R150); into one in CLOSING only if its CLOSE is
answered BUSY. Group plans lose them. A CLOSE in a port's hands and not yet started is not taken back (log 19). -/
def insertUrgent (ps : List Nat) (s : State) : State :=
  { s with sched := { s.sched with
      deliveries := s.sched.deliveries.map fun o => o.map fun d =>
        match d.mode, d.phase with
        | .delta, .closing => { d with late := mergePages ps d.late }
        | .reload, .closing => { d with late := mergePages ps d.late }
        | .delta, _ => d.insert ps
        | .reload, _ => d.insert ps
        | _, _ => d
      groups := s.sched.groups.map fun g =>
        if g.cls = .routine then { g with plan := g.plan.filter fun p => !ps.contains p } else g } }

end Sys2Proof.Machine
end

