-- ==== Sys2Proof/Machine/Flags.lean ====
section
/-! DEFINITION. The registers as the host reads them, and the interrupt output (chapter 9). -/

namespace Sys2Proof.Machine

/-- The engine state's code in STATE bits 0-2 (R183). -/
def Engine.code : Engine → Nat
  | .haltedCold => 0
  | .starting => 1
  | .running => 2
  | .stopping => 3
  | .haltedResumable => 0
  | .faulted _ => 4

/-- The resumable bit (R183). -/
def Engine.resumable : Engine → Bool
  | .haltedResumable => true
  | _ => false

/-- The fault cause's code (R183). -/
def Engine.causeCode : Engine → Nat
  | .faulted .descriptor => 1
  | .faulted .memory => 2
  | _ => 0

/-- IDENT (R183). -/
def identRegister : Word := BitVec.ofNat 32 (Config.partCode + 65536 * Config.revision)

/-- CONTROL as read: RUN in bit 0, bit 1 reads 0 (R184). -/
def State.controlRegister (s : State) : Word := if s.regs.run then 1 else 0

/-- STATE (R183). -/
def State.stateRegister (s : State) : Word :=
  BitVec.ofNat 32
    (s.engine.code + (if s.engine.resumable then 8 else 0) + 256 * s.engine.causeCode)

/-- What a 32-bit read of the register port returns; it has no side effect (R183). -/
def State.readRegister (s : State) (offset : Word) : Word :=
  if offset = 0x00 then identRegister
  else if offset = 0x04 then s.controlRegister
  else if offset = 0x08 then s.stateRegister
  else if offset = 0x0C then s.regs.xbase
  else if offset = 0x14 then s.regs.events.setWidth 32
  else if offset = 0x18 then s.regs.evmask.setWidth 32
  else 0

/-- The interrupt output: asserted while EVENTS AND EVMASK is nonzero (R195). -/
def State.interrupt (s : State) : Bool := decide (s.regs.events &&& s.regs.evmask ≠ 0)

/-- Driver enable of port `l` (R210): asserted while a frame goes on its side. -/
def State.driverEnable (s : State) (l : Fin 4) : Bool :=
  allLines.any fun a =>
    match (s.port a).exchange with
    | some ex => (s.port a).xstate = .sending && !s.resetLow && sidePort a ex.side = l
    | none => false

end Sys2Proof.Machine
end

