-- ==== Sys2Proof/Machine/Operands.lean ====
section
/-! DEFINITION. The operand forms: request kinds and their parameters (chapter 9, section 9.5), and the contents
of the dialogue's replies (chapter 6, section 6.1). -/

namespace Sys2Proof.Machine

/-! ## Requests -/

/-- The owner of a request kind (R191). -/
inductive Owner where
  | change
  | edition
  | atOnce
deriving DecidableEq, Repr

/-- The table of request kinds (chapter 9, section 9.5); none for a kind not in it. -/
def ownerOf : Nat → Option Owner
  | 0x01 => some .change
  | 0x02 => some .change
  | 0x03 => some .change
  | 0x10 => some .edition
  | 0x11 => some .edition
  | 0x12 => some .edition
  | 0x13 => some .edition
  | 0x20 => some .atOnce
  | 0x21 => some .atOnce
  | 0x22 => some .atOnce
  | 0x23 => some .atOnce
  | 0x24 => some .atOnce
  | 0x30 => some .atOnce
  | 0x31 => some .atOnce
  | _ => none

/-- Request kinds by name. -/
def Kind.applyChanges : Nat := 0x01
/-- FORMAT IMAGE. -/
def Kind.formatImage : Nat := 0x02
/-- REBUILD IMAGE. -/
def Kind.rebuildImage : Nat := 0x03
/-- LOAD EDITION. -/
def Kind.loadEdition : Nat := 0x10
/-- RESCHEDULE EDITION. -/
def Kind.rescheduleEdition : Nat := 0x11
/-- WITHDRAW EDITION. -/
def Kind.withdrawEdition : Nat := 0x12
/-- SET CLOCK. -/
def Kind.setClock : Nat := 0x13
/-- PIN SLOT. -/
def Kind.pinSlot : Nat := 0x20
/-- FREE SLOT. -/
def Kind.freeSlot : Nat := 0x21
/-- RELEASE SLOT. -/
def Kind.releaseSlot : Nat := 0x22
/-- RESYNC SLOT. -/
def Kind.resyncSlot : Nat := 0x23
/-- CLEAR COUNTERS. -/
def Kind.clearCounters : Nat := 0x24
/-- SET LINE. -/
def Kind.setLine : Nat := 0x30
/-- SET PROFILE. -/
def Kind.setProfile : Nat := 0x31

/-- A parameter of a request: `n` bytes at byte `off` of its strip slot, 8 or above. -/
def Request.param (r : Request) (off n : Nat) : Nat := fieldAt r.params (off - 8) n

/-- Outcomes (chapter 9, section 9.6). -/
def Outcome.ok : Byte := 1
/-- PARTIAL. -/
def Outcome.partialBatch : Byte := 2
/-- BAD_KIND. -/
def Outcome.badKind : Byte := 3
/-- BAD_PARAM. -/
def Outcome.badParam : Byte := 4
/-- WRONG_STATE. -/
def Outcome.wrongState : Byte := 5
/-- SPENT. -/
def Outcome.spent : Byte := 6
/-- NOT_PLACED. -/
def Outcome.notPlaced : Byte := 7

/-- A result with no clamp and no detail (R192). -/
def Result.plain (o : Byte) : Result := ⟨o, false, 0⟩

/-- The slot number in byte 8, when it is 0-23 (chapter 4, section 4.3). -/
def Request.slot (r : Request) : Option (Fin 24) :=
  if h : r.param 8 1 < 24 then some ⟨r.param 8 1, h⟩ else none

/-- A number as a line 0-3. -/
def lineOfNat (n : Nat) : Option (Fin 4) := if h : n < 4 then some ⟨n, h⟩ else none

/-! ## Dialogue codes (chapter 6) -/

/-- POLL. -/
def Code.poll : Byte := 0x01
/-- IDENTIFY. -/
def Code.identify : Byte := 0x02
/-- OPEN. -/
def Code.openDelivery : Byte := 0x10
/-- PAGE. -/
def Code.page : Byte := 0x11
/-- VOID. -/
def Code.void : Byte := 0x12
/-- CLOSE. -/
def Code.close : Byte := 0x13
/-- CHECK. -/
def Code.check : Byte := 0x14
/-- ACTIVATE. -/
def Code.activate : Byte := 0x20
/-- DISCARD. -/
def Code.discard : Byte := 0x21
/-- TIME. -/
def Code.time : Byte := 0x22
/-- STATUS. -/
def Code.status : Byte := 0x81
/-- IDENT. -/
def Code.ident : Byte := 0x82
/-- ACCEPT. -/
def Code.accept : Byte := 0x90
/-- REFUSE. -/
def Code.refuse : Byte := 0x91
/-- PAGE ACK. -/
def Code.pageAck : Byte := 0x92
/-- CLOSE ACK. -/
def Code.closeAck : Byte := 0x93
/-- CHECK REPORT. -/
def Code.checkReport : Byte := 0x94
/-- BUSY. -/
def Code.busy : Byte := 0x9F

/-- The replies a request admits (chapter 6, the table of requests). -/
def admitted (request : Byte) : List Byte :=
  if request = Code.poll then [Code.status, Code.busy]
  else if request = Code.identify then [Code.ident, Code.busy]
  else if request = Code.openDelivery then [Code.accept, Code.refuse, Code.busy]
  else if request = Code.page ∨ request = Code.void then [Code.pageAck, Code.refuse, Code.busy]
  else if request = Code.close then [Code.closeAck, Code.busy]
  else if request = Code.check then [Code.checkReport, Code.refuse, Code.busy]
  else if request = Code.activate ∨ request = Code.discard then [Code.status, Code.busy]
  else []

/-- The data length a reply code calls for; a CHECK REPORT's follows the count of its CHECK. -/
def replyLength (code : Byte) (checkCount : Nat) : Nat :=
  if code = Code.status then 42
  else if code = Code.ident then 18
  else if code = Code.accept then 8
  else if code = Code.refuse then 1
  else if code = Code.pageAck then 6
  else if code = Code.closeAck then 8
  else if code = Code.checkReport then 3 + 4 * checkCount
  else 0

/-! ## Contents of replies (chapter 6, section 6.1) -/

/-- A STATUS. -/
def parseStatus (c : List Byte) : Status :=
  { serial := BitVec.ofNat 64 (fieldAt c 0 8)
    identity := BitVec.ofNat 32 (fieldAt c 8 4)
    gen := BitVec.ofNat 32 (fieldAt c 12 4)
    digest := BitVec.ofNat 32 (fieldAt c 16 4)
    active := ⟨BitVec.ofNat 16 (fieldAt c 20 2), BitVec.ofNat 32 (fieldAt c 22 4)⟩
    pending :=
      if fieldAt c 26 2 = 0 then none
      else some ⟨⟨BitVec.ofNat 16 (fieldAt c 26 2), BitVec.ofNat 32 (fieldAt c 28 4)⟩,
                 (BitVec.ofNat 8 (fieldAt c 32 1)).getLsbD 0, BitVec.ofNat 64 (fieldAt c 33 8)⟩
    openDelivery := (BitVec.ofNat 8 (fieldAt c 41 1)).getLsbD 0
    storeFault := (BitVec.ofNat 8 (fieldAt c 41 1)).getLsbD 1
    busy := (BitVec.ofNat 8 (fieldAt c 41 1)).getLsbD 2 }

/-- The serial of an IDENT. -/
def identSerial (c : List Byte) : BitVec 64 := BitVec.ofNat 64 (fieldAt c 0 8)

/-- The highest listed rate not above a rate in baud, 19,200 at least (R73). -/
def listedRate (b : Nat) : Fin 7 :=
  if b < 38400 then 0 else if b < 57600 then 1 else if b < 115200 then 2 else if b < 230400 then 3
  else if b < 460800 then 4 else if b < 921600 then 5 else 6

/-- The capability record an IDENT gives (R73). -/
def identCapability (c : List Byte) : Capability :=
  { model := BitVec.ofNat 16 (fieldAt c 8 2)
    blocklist := min (fieldAt c 10 2) 4096
    edition := min (fieldAt c 12 1) 128
    rate := listedRate (fieldAt c 13 4)
    level := if fieldAt c 17 1 = 0 then 1 else min (fieldAt c 17 1) 2 }

/-- The held-page mask of an ACCEPT. -/
def acceptMask (c : List Byte) : BitVec 64 := BitVec.ofNat 64 (fieldAt c 0 8)

/-- REFUSE reasons: 1 IDENTITY, 2 CAPACITY, 3 STATE, 4 STORE. -/
def refuseReason (c : List Byte) : Nat := fieldAt c 0 1

/-- The CRC of a PAGE ACK. -/
def ackCrc (c : List Byte) : Word := BitVec.ofNat 32 (fieldAt c 2 4)

/-- The CRCs of a CHECK REPORT. -/
def reportCrcs (c : List Byte) : List Word :=
  (List.range (fieldAt c 2 1)).map fun i => BitVec.ofNat 32 (fieldAt c (3 + 4 * i) 4)

end Sys2Proof.Machine
end

