-- ==== Sys2Proof/Machine/Strips.lean ====
section
/-! DEFINITION. The request strips: scanning, taking, handing on and completing requests (chapter 9, sections 9.3
to 9.6). -/

namespace Sys2Proof.Machine

/-! ## Accessors -/

/-- A strip. -/
def State.strip (s : State) : Strip → StripState
  | .priority => s.exch.priority
  | .routine => s.exch.routine

/-- Replaces a strip. -/
def State.setStrip (s : State) (t : Strip) (v : StripState) : State :=
  match t with
  | .priority => { s with exch := { s.exch with priority := v } }
  | .routine => { s with exch := { s.exch with routine := v } }

/-- The address of strip slot 0 (R186). -/
def State.stripAddr (s : State) : Strip → Nat
  | .priority => s.desc.priorityAddr
  | .routine => s.desc.routineAddr

/-- The slot count of a strip (R186). -/
def State.stripCount (s : State) : Strip → Nat
  | .priority => s.desc.priorityCount
  | .routine => s.desc.routineCount

/-- The address of the strip slot at the scan position (R188). -/
def State.slotAddr (s : State) (t : Strip) : Nat := s.stripAddr t + 64 * (s.strip t).position

/-- The request a strip holds TAKEN, and whether it waits in its owner's holder. -/
def State.heldRequest (s : State) (t : Strip) : Option Request :=
  match (s.strip t).scan with
  | .holding r true _ => some r
  | _ => none

/-- The other strip. -/
def otherStrip : Strip → Strip
  | .priority => .routine
  | .routine => .priority

/-! ## Holders and job order (R33, R34, R59) -/

/-- The kind of the request a strip holds TAKEN, in its owner's holder or taken up. -/
def StripState.kind (v : StripState) : Option Nat :=
  match v.scan with
  | .holding r _ _ => some r.kind
  | .stopped => none

/-- A job of owner `o` is over but for its outcome, which still waits for the records that come before it (R31, R44, R56,
R192, R201). The job ends when its outcome is handed over (log 48). -/
def State.handingOver (s : State) (o : Owner) : Bool :=
  s.report.waiting.any fun w =>
    match w.act with
    | .outcome t _ => decide ((s.strip t).kind.bind ownerOf = some o)
    | .notice _ => false

/-- The change engine runs no job (R33). -/
def State.changeIdle (s : State) : Bool :=
  s.change.batch.isNone && s.change.format.isNone && s.change.rebuild.isNone && !s.handingOver .change

/-- The edition manager runs no job (R59). -/
def State.editionIdle (s : State) : Bool := s.editions.load.isNone && !s.handingOver .edition

/-- An owner runs no job; requests acted on at once have no job to wait for. -/
def State.ownerIdle (s : State) : Owner → Bool
  | .change => s.changeIdle
  | .edition => s.editionIdle
  | .atOnce => true

/-- A strip holds a request that waits for owner `o`. -/
def State.waits (s : State) (t : Strip) (o : Owner) : Bool :=
  match s.heldRequest t with
  | some r => decide (ownerOf r.kind = some o)
  | none => false

/-- The waiting request came to an idle owner. -/
def State.heldFree (s : State) (t : Strip) : Bool :=
  match (s.strip t).scan with
  | .holding _ true f => f
  | _ => false

/-- A request that waits for owner `o` on strip `t` waits by the job order: it did not come to an idle owner. -/
def State.waitsBound (s : State) (t : Strip) (o : Owner) : Bool := s.waits t o && !s.heldFree t

/-- What arrives now for owner `o` needs no order: the part is RUNNING or STOPPING, the owner is idle, and what waits for
it, if anything, arrived at an idle owner too. A purge job queued in HALTED is taken up by the job order at resume (R34,
R36, R59, R208). -/
def State.arrivesFree (s : State) (o : Owner) : Bool :=
  s.working && s.ownerIdle o && !s.waitsBound .priority o && !s.waitsBound .routine o &&
  (o ≠ .change || s.change.purge ≠ .queued false)

/-- Job order: a priority-strip request may always be taken up; a routine one when it came to an idle owner, or
when neither a priority request nor, at the change engine, a purge job waits (R34, R59). -/
def State.inOrder (s : State) (t : Strip) (o : Owner) : Bool :=
  match t with
  | .priority => true
  | .routine =>
    s.heldFree .routine || o = .atOnce ||
    (!s.waits .priority o && (o ≠ .change || s.change.purge = .empty))

/-- The request of strip `t` has left its owner's holder. -/
def leaveHolder (t : Strip) (s : State) : State :=
  match (s.strip t).scan with
  | .holding r _ f => s.setStrip t ⟨(s.strip t).position, .holding r false f⟩
  | .stopped => s

/-- A request that waits for owner `o` on strip `t` no longer came to an idle owner (R34, R59). -/
def boundStrip (t : Strip) (o : Owner) (s : State) : State :=
  if s.waits t o then
    match (s.strip t).scan with
    | .holding r h _ => s.setStrip t ⟨(s.strip t).position, .holding r h false⟩
    | .stopped => s
  else s

/-- A purge job that waits no longer came to an idle change engine (R34). -/
def boundPurge (s : State) : State :=
  match s.change.purge with
  | .queued _ => { s with change := { s.change with purge := .queued false } }
  | .empty => s

/-- Marks the request of strip `t` as taken up by owner `o`; what still waits for `o` no longer came to an idle
owner (R34). -/
def takeUp (t : Strip) (o : Owner) (s : State) : State :=
  let s := boundStrip (otherStrip t) o (leaveHolder t s)
  if o = .change then boundPurge s else s

/-! ## Taking and completing (R188 to R193) -/

/-- Byte `off` of the strip slot at the scan position is written. -/
def writeSlotBytes (t : Strip) (off : Nat) (bs : List Byte) (s : State) : State :=
  { s with mem := Memory.writeBytes s.mem (s.slotAddr t + off) bs }

/-- The outcome fields and DONE, in the order of R192; `stage` writes of the four are made. -/
def writeCompletion (t : Strip) (r : Result) (stage : Nat) (s : State) : State :=
  let s := if 0 < stage then writeSlotBytes t 4 [r.outcome] s else s
  let s := if 1 < stage then writeSlotBytes t 5 [if r.clamp then 1 else 0] s else s
  let s := if 2 < stage then writeSlotBytes t 6 (leBytes 2 r.detail) s else s
  if 3 < stage then writeSlotBytes t 0 [3] s else s

/-- A completion: outcome, clamp flag, detail count, DONE; the position advances; EVENTS.DONE with notify
(R192). The strip is left STOPPED; the visit follows. -/
def finish (t : Strip) (notify : Bool) (r : Result) (s : State) : State :=
  let s := writeCompletion t r 4 s
  let s := s.setStrip t ⟨((s.strip t).position + 1) % s.stripCount t, .stopped⟩
  if notify then raise .done s else s

/-- The request in the strip slot at the scan position (R191): bytes 1-63. -/
def readRequest (s : State) (t : Strip) : Request :=
  let b : Byte := Memory.read s.mem (s.slotAddr t + 1)
  { kind := b.toNat % 128, notify := b.getLsbD 7,
    params := Memory.readBytes s.mem (s.slotAddr t + 8) 56 }

/-- A visit (R189): a POSTED request is taken, any other mark leaves the strip STOPPED. A kind not in the table
completes at once with BAD_KIND (R191) and the strip is visited again; each such visit leaves one slot DONE,
so the slot count bounds them. -/
def visitN (t : Strip) : Nat → State → State
  | 0, s => s
  | fuel + 1, s =>
    if s.running && (s.strip t).scan = .stopped && Memory.read s.mem (s.slotAddr t) = 1 then
      let s1 := writeSlotBytes t 0 [2] s
      let r := readRequest s1 t
      match ownerOf r.kind with
      | some o => s1.setStrip t ⟨(s1.strip t).position, .holding r true (s1.arrivesFree o)⟩
      | none => visitN t fuel (finish t r.notify (.plain Outcome.badKind) s1)
    else s

/-- A visit of a strip; a strip has at most 256 slots (R187). -/
def visit (t : Strip) (s : State) : State := visitN t 257 s

/-- Visits both strips; a strip in HOLDING is passed over (R190). Either may come first (R189; log 10). -/
def visitBoth (s : State) : State := visit .routine (visit .priority s)

/-- A request's result is handed back (R192): it completes, and the strip is visited at its new position while
the part is RUNNING (R189, R193). -/
def completeRequest (t : Strip) (r : Result) (s : State) : State :=
  match (s.strip t).scan with
  | .holding req _ _ => if s.isFaulted then s else visit t (finish t req.notify r s)
  | .stopped => s

/-- A result that waits for the summary record (R31, R44, R56 to R58, R67). -/
def completeAfterSummary (t : Strip) (r : Result) (s : State) : State :=
  awaitRecords [summaryRec] (.outcome t r) (want summaryRec s)

/-- A job of owner `o` and kind `k` may be taken up from strip `t`: the part is RUNNING or STOPPING, the
request waits, and its turn has come. -/
def State.mayTake (s : State) (t : Strip) (o : Owner) (k : Nat) : Bool :=
  s.working && s.ownerIdle o && s.inOrder t o &&
  (match s.heldRequest t with
   | some r => decide (r.kind = k)
   | none => false)

/-- The parameters of the request waiting on a strip. -/
def State.request (s : State) (t : Strip) : Request := (s.heldRequest t).getD ⟨0, false, []⟩

/-- A request acted on at once (R191): when strip `t` holds one of kind `k`, its owner answers and it completes. The outcome is
written in the same step, before the rewrites of the records the request made due, those of CLEAR COUNTERS too (log 71). -/
def atOnce (t : Strip) (k : Nat) (answer : Request → State → State × Result) (s : State) : State :=
  if s.mayTake t .atOnce k then
    let x := answer (s.request t) (takeUp t .atOnce s)
    completeRequest t x.2 x.1
  else s

end Sys2Proof.Machine
end

