-- ==== Sys2Proof/Machine/Report.lean ====
section
/-! DEFINITION. The report block (chapter 10): the bytes of the 29 records and the writes of a rewrite. -/

namespace Sys2Proof.Machine

/-! ## The service clock as shown (R66) -/

/-- The service day SD (R66); 0 with the clock unset. -/
def Clock.serviceDay (c : Clock) : Nat :=
  if c.dayStart ≤ c.minute then c.day else c.day - 1

/-- The absolute minute A (R66). -/
def Clock.absolute (c : Clock) : Nat := c.day * 1440 + c.minute

/-! ## Codes -/

/-- Rebuild state, byte 40 of the summary (R40). -/
def rebuildCode : Option Rebuild → Nat
  | none => 0
  | some r =>
    match r.phase with
    | .clearing => 1
    | .copying => 2
    | .finishing => 3

/-- Pending state, byte 51 of the summary. -/
def PendingState.code : PendingState → Nat
  | .empty => 0
  | .composing => 1
  | .pending => 2

/-- Slot states, byte 2 of a roster record. -/
def SlotState.code : SlotState → Nat
  | .vacant => 0
  | .silent => 1
  | .identifying => 2
  | .behind => 3
  | .current => 4
  | .quarantined => 5

/-- Quarantine reasons, byte 6 of a roster record. -/
def Reason.code : Reason → Nat
  | .none => 0
  | .identity => 1
  | .clash => 2
  | .failures => 3
  | .store => 4

/-- Binding modes, byte 5 bits 0-1 of a roster record. -/
def BindMode.code : BindMode → Nat
  | .free => 0
  | .learned => 1
  | .pinned => 2

/-- Line modes, byte 2 of a line record. -/
def LineMode.code : LineMode → Nat
  | .off => 0
  | .single => 1
  | .pairPrimary => 2
  | .pairSecondary => 3

/-- Exchange states, byte 4 of a line record. -/
def XState.code : XState → Nat
  | .idle => 0
  | .sending => 1
  | .awaiting => 2
  | .receiving _ => 3
  | .gap => 4

/-- A flag at a bit. -/
def bitAt (b : Bool) (k : Nat) : Nat := if b then 2 ^ k else 0

/-- A time left in units of 250 ms (R199; log 7). -/
def units (t : Time) : Nat := t / (250 * Config.ms)

/-! ## Records, from byte 2 on (R199) -/

/-- Slots in a state. -/
def State.countIn (s : State) (q : SlotState) : Nat :=
  (allSlots.filter fun n => (s.slot n).state = q).length

/-- Live entries: the sum of the live counts of the stamp table (R12). -/
def ChangeEngine.liveEntries (c : ChangeEngine) : Nat := (c.table.map (·.live)).sum

/-- Void pages (R12). -/
def ChangeEngine.voidPages (c : ChangeEngine) : Nat := (c.table.filter (fun r => r.live = 0)).length

/-- The summary record. -/
def summaryFields (s : State) : List Byte :=
  let c := s.change
  let e := s.editions
  leBytes 1 s.engine.code ++ leBytes 1 (bitAt s.clock.isSet 0) ++
  leBytes 2 s.clock.day ++ leBytes 2 s.clock.minute ++ leBytes 2 s.clock.serviceDay ++
  leBytes 2 s.clock.dayStart ++
  leBytes 4 c.identity.toNat ++ leBytes 2 c.pages ++ leBytes 2 0 ++ leBytes 4 c.seed.toNat ++
  leBytes 4 c.gen.toNat ++ leBytes 4 c.liveEntries ++ leBytes 2 c.refused ++ leBytes 2 c.voidPages ++
  leBytes 4 c.digest.toNat ++ leBytes 1 (rebuildCode c.rebuild) ++
  leBytes 1 (bitAt c.purgeSkipped 0 + bitAt s.roster.full 1 + bitAt e.pending.atRisk 2) ++
  leBytes 2 c.copyCursor ++
  leBytes 2 e.active.number.toNat ++ leBytes 4 e.active.digest.toNat ++ leBytes 1 e.active.total ++
  leBytes 1 e.pending.state.code ++ leBytes 2 e.pending.number.toNat ++
  leBytes 4 e.pending.effective.toNat ++ leBytes 1 e.pending.total ++ leBytes 1 0 ++
  leBytes 1 (s.countIn .vacant) ++ leBytes 1 (s.countIn .silent) ++ leBytes 1 (s.countIn .identifying) ++
  leBytes 1 (s.countIn .behind) ++ leBytes 1 (s.countIn .current) ++ leBytes 1 (s.countIn .quarantined) ++
  List.replicate 62 0

/-- Bit a - 1 for drop address a (R91). -/
def clashMask (addrs : List Nat) : Nat :=
  ((List.range 30).map fun i => bitAt (addrs.contains (i + 1)) i).sum

/-- Loop state, byte 5 of a line record. -/
def State.loopCode (s : State) (l : Fin 4) : Nat :=
  if s.paired l then (if (s.port (evenLine l)).broken then 2 else 1) else 0

/-- A line record; in a pair, exchange state, loop state, discovery position and clash list are the
primary's. -/
def lineFields (s : State) (l : Fin 4) : List Byte :=
  let p := s.port l
  let a := s.actingLine l
  let k := p.counters
  leBytes 1 p.mode.code ++ leBytes 1 p.profile.val ++ leBytes 1 (s.port a).xstate.code ++
  leBytes 1 (s.loopCode l) ++ leBytes 1 (s.lineRoster a).position ++ leBytes 1 0 ++
  leBytes 2 k.sent ++ leBytes 2 k.received ++ leBytes 2 k.garbled ++ leBytes 2 k.timeouts ++
  leBytes 2 k.stale ++ leBytes 4 (clashMask (s.lineRoster a).clash) ++ List.replicate 42 0

/-- Bytes a record would fill from something the slot does not hold: a free value (log 6). -/
def State.unstated (s : State) (k : Fin 24) (off n : Nat) : List Byte :=
  (List.range n).map fun i => Config.unstatedByte k.val (s.report.counts[rosterRec k]) (off + i)

/-- A roster record. -/
def rosterFields (s : State) (n : Fin 24) : List Byte :=
  let v := s.slot n
  let w := s.sweep n
  let k := v.counters
  leBytes 1 v.state.code ++
  (match v.binding with
   | some (l, d) => leBytes 1 l.val ++ leBytes 1 d
   | none => [0xFF, 0]) ++
  leBytes 1 (v.mode.code + bitAt v.frozen 2) ++ leBytes 1 v.reason.code ++
  leBytes 1 (bitAt v.reload 0 + bitAt v.repair 1 + bitAt v.unconfirmed 2 + bitAt v.replaced 3 +
    bitAt v.duplicate 4 + bitAt v.blIncapable 5 + bitAt v.edIncapable 6 +
    bitAt (v.reach = .secondary) 7) ++
  leBytes 8 v.serial.toNat ++ leBytes 8 v.serialSeen.toNat ++
  (match v.cap with
   | some c => leBytes 2 c.model.toNat ++ leBytes 2 c.blocklist ++ leBytes 1 c.edition ++ leBytes 1 c.level
   | none => s.unstated n 24 5 ++ [0]) ++
  leBytes 1 v.served.val ++
  (match v.cap with
   | some c => leBytes 1 c.rate.val
   | none => s.unstated n 31 1) ++
  leBytes 4 v.heldId.toNat ++ leBytes 4 v.heldH.toNat ++
  leBytes 2 v.heldActive.number.toNat ++ leBytes 4 v.heldActive.digest.toNat ++
  (match v.heldPending with
   | some p => leBytes 2 p.edition.number.toNat ++ leBytes 4 p.edition.digest.toNat ++
       leBytes 1 (bitAt p.complete 0)
   | none => [0, 0] ++ s.unstated n 48 5) ++
  leBytes 1 v.misses ++ leBytes 1 v.failures ++ leBytes 1 v.garbleRun ++
  (match v.heldPending with
   | some p => leBytes 8 p.mask.toNat
   | none => s.unstated n 56 8) ++
  leBytes 2 (units (v.backoff.getD 0)) ++
  leBytes 2 (match v.keepalive with
    | some t => units t
    | none => 0xFFFF) ++
  leBytes 2 (units (v.window.getD 0)) ++
  leBytes 2 w.cursor ++ leBytes 2 w.list.length ++
  leBytes 2 k.misses ++ leBytes 2 k.garbled ++ leBytes 2 k.stale ++ leBytes 2 k.busy ++
  leBytes 2 k.refusals ++ leBytes 2 k.tallyFailures ++ leBytes 2 k.mismatches ++ leBytes 2 k.pagesSent ++
  List.replicate 38 0

/-- Bytes 2 onward of a record. -/
def recordFields (s : State) (r : Fin 29) : List Byte :=
  if r.val = 0 then summaryFields s
  else if h : r.val < 5 then lineFields s ⟨r.val - 1, by omega⟩
  else rosterFields s ⟨r.val - 5, by omega⟩

/-- The offset of a record in the report block (chapter 10). -/
def recordOffset (r : Fin 29) : Nat :=
  if r.val = 0 then 0 else if r.val < 5 then 128 + 64 * (r.val - 1) else 384 + 128 * (r.val - 5)

/-- The address of a record. -/
def State.recordAddr (s : State) (r : Fin 29) : Nat := s.desc.report + recordOffset r

/-! ## The writes of a rewrite (R200) -/

/-- The writes of a rewrite: the count raised to odd, the fields, the count raised to even; `stage` of the
three are made. -/
def writeRecord (r : Fin 29) (stage : Nat) (s : State) : State :=
  let c := s.report.counts[r]
  let a := s.recordAddr r
  let fields := recordFields s r
  let m := if 0 < stage then Memory.writeBytes s.mem a (leBytes 2 ((c + 1) % 65536)) else s.mem
  let m := if 1 < stage then Memory.writeBytes m (a + 2) fields else m
  let m := if 2 < stage then Memory.writeBytes m a (leBytes 2 ((c + 2) % 65536)) else m
  { s with mem := m }

/-- Stops the line record timer of a line whose record has been rewritten (R115). -/
def stopRecordTimer (r : Fin 29) (s : State) : State :=
  if h : 0 < r.val ∧ r.val < 5 then s.modPort ⟨r.val - 1, by omega⟩ fun p => { p with recordTimer := none }
  else s

/-- A rewrite of record `r` is counted, 2 higher, and no longer due. -/
def countRewrite (r : Fin 29) (p : Report) : Report :=
  { p with counts := p.counts.set r ((p.counts[r] + 2) % 65536), wanted := p.wanted.set r false }

end Sys2Proof.Machine
end

