-- ==== Sys2Proof/Machine/Roster.lean ====
section
/-! DEFINITION. The roster's shared operations: what a slot holds and matches, its states, misses, failures and
quarantine (chapter 4), and the slot requests. -/

namespace Sys2Proof.Machine

/-! ## Held data against the part's data (R73, R76) -/

/-- The served rate of a slot (R73): the highest listed rate not above the line's and the validator's; 19,200
without a capability record. -/
def State.servedRate (s : State) (n : Fin 24) : Fin 7 :=
  match (s.slot n).cap, s.lineOf n with
  | some c, some l => min c.rate (s.profileOf l).rate
  | _, _ => 0

/-- Works the served rate of a slot out anew (R73). -/
def refreshServed (n : Fin 24) (s : State) : State := s.modSlot n fun v => { v with served := s.servedRate n }

/-- The larger page total of the part's editions, an EMPTY or COMPOSING slot counting 0 (R73). -/
def EditionMgr.largerTotal (e : EditionMgr) : Nat :=
  max (if e.active.present then e.active.total else 0)
    (if e.pending.state = .pending then e.pending.total else 0)

/-- Works the incapable flags of a slot out anew (R73). -/
def refreshIncapable (n : Fin 24) (s : State) : State :=
  s.modSlot n fun v =>
    match v.cap with
    | some c =>
      { v with blIncapable := decide (s.change.pages ≠ 0 ∧ c.blocklist < s.change.pages)
               edIncapable := decide (c.edition < 2 * s.editions.largerTotal) }
    | none => { v with blIncapable := false, edIncapable := false }

/-- The part's active edition, number 0 and digest 0 while EMPTY (R76). -/
def State.activeRef (s : State) : EditionRef := ⟨s.editions.active.number, s.editions.active.digest⟩

/-- The part's pending edition; an EMPTY or COMPOSING slot counts as none (R76). -/
def State.pendingRef (s : State) : Option EditionRef :=
  if s.editions.pending.state = .pending then
    some ⟨s.editions.pending.number, s.editions.pending.digest⟩
  else none

/-- The slot's recorded pending edition is `e`, complete. -/
def Slot.holdsPending (v : Slot) (e : EditionRef) : Bool :=
  match v.heldPending with
  | some p => decide (p.edition = e) && p.complete
  | none => false

/-- The conditions of CURRENT (R76). A slot incapable of a dataset stays BEHIND (log 13). -/
def State.slotMatches (s : State) (n : Fin 24) : Bool :=
  let v := s.slot n
  decide (v.heldId = s.change.identity) && decide (v.heldH = s.change.gen) &&
  decide (v.heldActive = s.activeRef) &&
  (match s.pendingRef with
   | some e => v.holdsPending e
   | none => v.heldPending.isNone) &&
  !v.repair && !v.unconfirmed && !v.blIncapable && !v.edIncapable

/-- Re-evaluates a slot in BEHIND or CURRENT (R76). Its keep-alive due time stays (R92; log 64). -/
def reevaluate (n : Fin 24) (s : State) : State :=
  match (s.slot n).state with
  | .behind | .current =>
    s.modSlot n fun v => { v with state := if s.slotMatches n then .current else .behind }
  | _ => s

/-- Re-evaluates every slot. -/
def reevaluateAll (s : State) : State := forSlots reevaluate allSlots s

/-- The slot enters BEHIND or CURRENT as R76 decides. -/
def identified (n : Fin 24) (s : State) : State :=
  reevaluate n (s.modSlot n fun v => { v with state := .behind, kept := none, identify := none })

/-! ## Keep-alive (R92) -/

/-- Sets the keep-alive due time at the end of an exchange, by the slot's state (R92). -/
def setKeepalive (n : Fin 24) (s : State) : State :=
  let i := (s.slotProfile n).interval
  s.modSlot n fun v =>
    { v with keepalive :=
        match v.state with
        | .vacant => none
        | .silent => some (4 * i)
        | .identifying => none
        | .behind | .current | .quarantined => some i }

/-- The keep-alive POLL falls due at once. -/
def pollNow (n : Fin 24) (s : State) : State := s.modSlot n fun v => { v with keepalive := some 0 }

/-! ## Changes of state -/

/-- The slot goes SILENT (R77, R81, R94): its delivery is abandoned, its next POLL is four intervals ahead. -/
def toSilent (n : Fin 24) (s : State) : State :=
  setKeepalive n ((abandon n s).modSlot n fun v =>
    { v with state := .silent, kept := none, identify := none })

/-- The slot goes to QUARANTINED (R82): its delivery is abandoned and EVENTS.QUARANTINE follows the records. A
slot entering from IDENTIFYING is polled an interval later (R92). A slot already there stays as it is. -/
def quarantine (n : Fin 24) (r : Reason) (s : State) : State :=
  if (s.slot n).state = .quarantined then s
  else
    let fresh := decide ((s.slot n).state = .identifying)
    let s := abandon n (withdraw n (fun _ => true) false s)
    let s := s.modSlot n fun v => { v with state := .quarantined, reason := r, kept := none, identify := none }
    raiseForSlot .quarantine n (if fresh then setKeepalive n s else s)

/-- The slot goes to IDENTIFYING with a STATUS kept aside and its IDENTIFY due at once (R77, R80). -/
def toIdentifying (n : Fin 24) (st : Status) (s : State) : State :=
  s.modSlot n fun v => { v with state := .identifying, kept := some st, identify := some 0, keepalive := none }

/-- A roster event that changes the slot's state raises EVENTS.ROSTER after the two records that show it (R79, R90, R201). -/
def rosterEvent (n : Fin 24) (s : State) : State := raiseForSlot .roster n s

/-- A roster event that leaves the slot's state raises EVENTS.ROSTER after the slot's record (R71, R90, R178). -/
def rosterNote (n : Fin 24) (s : State) : State := raiseAfter .roster [rosterRec n] s

/-! ## Misses and failures (R81, R82, R93) -/

/-- Closes the delivery classes to a slot for a time (R93). -/
def backOff (n : Fin 24) (t : Time) (s : State) : State :=
  s.modSlot n fun v => { v with backoff := later v.backoff t }

/-- Changes a slot's counters. -/
def count (n : Fin 24) (f : Counters → Counters) (s : State) : State :=
  s.modSlot n fun v => { v with counters := f v.counters }

/-- The backoff of the n-th consecutive failure (R93): 500 ms doubled, at most 32,000 ms. -/
def failureBackoff (n : Nat) : Time := min (500 * 2 ^ (n - 1)) 32000 * Config.ms

/-- A delivery failure as the roster takes it (R82): counted, backed off, and at the quarantine limit
QUARANTINED for FAILURES. -/
def countFailure (n : Fin 24) (s : State) : State :=
  let k := (s.slot n).failures + 1
  let limit := (s.slotProfile n).quarantine
  let s := backOff n (failureBackoff k) (s.modSlot n fun v => { v with failures := min k limit })
  if limit ≤ k then quarantine n .failures s else s

/-- A delivery failure (R140): the delivery ends and the roster counts the failure. -/
def deliveryFailure (n : Fin 24) (s : State) : State := countFailure n (endDelivery n s)

/-- A miss as the roster takes it (R77, R81, R92, R93). -/
def missed (n : Fin 24) (s : State) : State :=
  let v := s.slot n
  let p := s.slotProfile n
  match v.state with
  | .vacant => s
  | .silent => setKeepalive n (backOff n p.interval s)
  | .identifying =>
    toSilent n (backOff n p.interval (count n (fun k => { k with misses := satInc k.misses }) s))
  | .quarantined =>
    setKeepalive n (backOff n p.interval (count n (fun k => { k with misses := satInc k.misses }) s))
  | .behind | .current =>
    let s := backOff n p.interval (count n (fun k => { k with misses := satInc k.misses }) s)
    if p.missLimit ≤ v.misses + 1 then
      toSilent n (s.modSlot n fun v => { v with misses := 0 })
    else setKeepalive n (s.modSlot n fun w => { w with misses := v.misses + 1 })

/-! ## Held data (R20, R74) -/

/-- H as the roster records it for an identity (R20, R74): 0 under the reload flag, and 0 for the live identity
with H above G. -/
def State.recordedH (s : State) (v : Slot) (identity gen : Word) : Word :=
  if v.reload then 0
  else if identity = s.change.identity ∧ s.change.gen < gen then 0
  else gen

/-- The activation-unconfirmed flag clears when the part's active edition is held (R74). -/
def State.stillUnconfirmed (s : State) (v : Slot) : Bool :=
  v.unconfirmed && decide (v.heldActive ≠ s.activeRef)

/-- Records the held data of a STATUS (R74). -/
def recordStatus (n : Fin 24) (st : Status) (s : State) : State :=
  s.modSlot n fun v =>
    let v := { v with heldId := st.identity, heldH := s.recordedH v st.identity st.gen
                      heldActive := st.active, heldPending := st.pending }
    { v with unconfirmed := s.stillUnconfirmed v }

/-- Sets the reload flag and records H as 0 (R74, R79, R87, R126). -/
def forceReload (n : Fin 24) (s : State) : State := s.modSlot n fun v => { v with reload := true, heldH := 0 }

/-- Drops a slot's sweep record to cold (R169). -/
def dropSweep (n : Fin 24) (s : State) : State := s.setSweep n .cold

/-! ## Slot requests (R84 to R88) -/

/-- The binding of a request for a line: the secondary of a pair is recorded as its primary (R84). -/
def State.bindingLine (s : State) (l : Fin 4) : Fin 4 := s.actingLine l

/-- Another slot holds this binding. -/
def State.bindingTaken (s : State) (n : Fin 24) (b : Fin 4 × Nat) : Bool :=
  allSlots.any fun m => decide (m ≠ n) && decide ((s.slot m).binding = some b)

/-- PIN SLOT on a slot, its parameters accepted (R84). -/
def pin (n : Fin 24) (b : Fin 4 × Nat) (expected : BitVec 64) (frozen : Bool) (s : State) : State :=
  let old := s.slot n
  let same := decide (old.binding = some b)
  let serial := if expected ≠ 0 then expected else if same then old.serial else 0
  let keep := same && decide (serial = old.serial)
  let s := abandon n (withdraw n (fun _ => true) true s)
  let base : Slot :=
    if keep then old
    else { Slot.cold with counters := old.counters }
  let v : Slot :=
    { base with
      state := .silent, binding := some b, mode := .pinned, frozen := frozen, serial := serial
      serialSeen := 0, reason := .none, replaced := false, duplicate := false, window := none
      reach := .primary, misses := 0, failures := 0, garbleRun := 0, backoff := none
      keepalive := some 0, kept := none, identify := none, counters := old.counters }
  let s := s.setSlot n v
  if keep then s
  else dropSweep n (s.modMarks n fun _ => ⟨false, false, false⟩)

/-- The roster's answer to PIN SLOT (R84). -/
def pinSlot (r : Request) (s : State) : State × Result :=
  match r.slot, lineOfNat (r.param 9 1) with
  | some n, some l =>
    let drop := r.param 10 1
    if drop < 1 ∨ 30 < drop then (s, .plain Outcome.badParam)
    else
      let b := (s.bindingLine l, drop)
      if s.bindingTaken n b then (s, .plain Outcome.wrongState)
      else (pin n b (BitVec.ofNat 64 (r.param 11 8)) (decide (r.param 19 1 ≠ 0)) s, .plain Outcome.ok)
  | _, _ => (s, .plain Outcome.badParam)

/-- A slot goes to VACANT, every field cold (R85). -/
def free (n : Fin 24) (s : State) : State :=
  let s := abandon n (withdraw n (fun _ => true) true s)
  let s := dropSweep n ((s.setSlot n .cold).modMarks n fun _ => ⟨false, false, false⟩)
  { s with roster := { s.roster with full := false } }

/-- The roster's answer to FREE SLOT (R85). -/
def freeSlot (r : Request) (s : State) : State × Result :=
  match r.slot with
  | some n => (free n s, .plain Outcome.ok)
  | none => (s, .plain Outcome.badParam)

/-- A QUARANTINED slot is released (R86). -/
def releaseQuarantine (n : Fin 24) (s : State) : State :=
  s.modSlot n fun v =>
    { v with state := .silent, reason := .none, failures := 0, misses := 0, garbleRun := 0, backoff := none
             window := none, keepalive := some 0 }

/-- The roster's answer to RELEASE SLOT (R86). -/
def releaseSlot (r : Request) (s : State) : State × Result :=
  match r.slot with
  | some n =>
    if (s.slot n).state = .quarantined then (releaseQuarantine n s, .plain Outcome.ok)
    else (s, .plain Outcome.wrongState)
  | none => (s, .plain Outcome.badParam)

/-- A slot is resynchronised (R87). -/
def resync (n : Fin 24) (s : State) : State :=
  let s :=
    match s.delivery n with
    | some d => if d.mode.isBlocklist then abandon n s else s
    | none => s
  let s := dropSweep n ((forceReload n s).modSlot n fun v => { v with repair := false })
  match (s.slot n).state with
  | .current => s.modSlot n fun v => { v with state := .behind }
  | _ => s

/-- The roster's answer to RESYNC SLOT (R87). -/
def resyncSlot (r : Request) (s : State) : State × Result :=
  match r.slot with
  | some n =>
    if (s.slot n).state = .vacant then (s, .plain Outcome.wrongState)
    else (resync n s, .plain Outcome.ok)
  | none => (s, .plain Outcome.badParam)

/-- CLEAR COUNTERS, roster part and line part (R88, R114). Each slot and line cleared has its record
rewritten; the outcome does not wait for those rewrites (log 71). -/
def clearCounters (r : Request) (s : State) : State × Result :=
  let slots := BitVec.ofNat 32 (r.param 8 4)
  let lines := BitVec.ofNat 8 (r.param 12 1)
  let s := forSlots (fun n s =>
    if slots.getLsbD n.val then
      want (rosterRec n) (s.modSlot n fun v => { v with counters := .zero, replaced := false, duplicate := false })
    else s) allSlots s
  let s := forLines (fun l s =>
    if lines.getLsbD l.val then s.modPort l fun p => { p with counters := .zero } else s) allLines s
  (s, .plain Outcome.ok)

end Sys2Proof.Machine
end

