-- ==== Sys2Proof/Machine/Arbiter.lean ====
section
/-! DEFINITION. The arbiter of a line: which class, slot or group has eligible work, turns and their rotation, and the
exchange handed to an idle port (chapter 7, sections 7.1 and 7.3 to 7.7). -/

namespace Sys2Proof.Machine

/-! ## Eligibility (R143, R148) -/

/-- Open to the delivery classes: BEHIND or CURRENT, and not in backoff. -/
def State.deliverable (s : State) (n : Fin 24) : Bool :=
  let v := s.slot n
  (v.state = .behind || v.state = .current) && v.backoff.isNone

/-- The conditions of URGENT, ROUTINE and REPAIR, the image's stillness apart. -/
def State.blockOk (s : State) (n : Fin 24) : Bool :=
  s.deliverable n && decide (s.change.pages ≠ 0) && !(s.slot n).blIncapable

/-- The conditions of INSTALL and STAGE. -/
def State.editionOk (s : State) (n : Fin 24) : Bool := s.deliverable n && !(s.slot n).edIncapable

/-- The live image is not changing (R148). -/
def State.still (s : State) : Bool := !s.change.changing

/-- The conditions of a class for a slot's delivery work, the image's stillness apart (R143). -/
def State.classOk (s : State) (c : Cls) (n : Fin 24) : Bool :=
  match c with
  | .urgent | .routine | .repair => s.blockOk n
  | .install | .stage => s.editionOk n
  | .activation => s.deliverable n
  | .upkeep => (s.slot n).binding.isSome

/-! ## Work of one slot or group -/

/-- An exchange and the target its turn serves. -/
structure Choice where
  work : Work
  target : Target
deriving DecidableEq, Repr

/-- A DISCARD is due (R154): the recorded pending edition is neither the part's pending nor its active edition;
one of the part's pending number is staged without a DISCARD (the note after R154; log 17). -/
def State.discardDue (s : State) (n : Fin 24) : Bool :=
  match (s.slot n).heldPending with
  | some p =>
    decide (p.edition ≠ s.activeRef) &&
    (match s.pendingRef with
     | some e => decide (p.edition.number ≠ e.number)
     | none => true)
  | none => false

/-- Staging is due (R154). -/
def State.stagingDue (s : State) (n : Fin 24) : Bool :=
  match s.pendingRef with
  | some e => !(s.slot n).holdsPending e
  | none => false

/-- Installing is due (R153). -/
def State.installDue (s : State) (n : Fin 24) : Bool :=
  s.editions.active.present && decide ((s.slot n).heldActive ≠ s.activeRef) &&
  !(s.slot n).holdsPending s.activeRef

/-- An individual ACTIVATE is due (R157). -/
def State.activateDueTo (s : State) (n : Fin 24) : Bool :=
  s.editions.active.present && (s.slot n).holdsPending s.activeRef && !(s.marks n).activateSent

/-- What a group's OPEN opens. -/
def Cls.openKind : Cls → OpenKind
  | .stage => .stage
  | .install => .install
  | _ => .blocklist

/-- A group's class serves the blocklist, so its frames wait while the image is changing (R148). -/
def State.groupHeld (s : State) (g : Group) : Bool := g.cls = .routine && !s.still

/-- A member's CLOSE is due (R163): the common plan and its own urgent part are exhausted. -/
def State.memberClose (s : State) (g : Group) (n : Fin 24) : Bool :=
  g.planned && g.plan.isEmpty && s.classOk g.cls n &&
  (match s.delivery n with
   | some d => d.urgent.isEmpty && d.phase = .opened
   | none => false)

/-- A group's OPEN waits for the DISCARD that its unopened member is due first (R154). -/
def State.discardFirst (s : State) (g : Group) (n : Fin 24) : Bool := decide (g.cls = .stage) && s.discardDue n

/-- The common work of a group (R160, R161): its members' OPENs in ascending order, then its common plan. A member that
cannot be opened now, for its backoff or its DISCARD, is passed over, and the common plan waits for it (log 58). -/
def State.groupWork (s : State) (g : Group) : Option Work :=
  if s.groupHeld g then none
  else
    match g.toOpen with
    | _ :: _ =>
      (g.toOpen.find? fun m => s.classOk g.cls m && !s.discardFirst g m).map fun m => .openTo m g.cls.openKind
    | [] =>
      if g.planned && !g.plan.isEmpty && g.members.any (fun m => s.classOk g.cls m) then
        some (.groupPage g.id)
      else none

/-- What the turn of a group does next: common work, then the members' CLOSEs in ascending order (R163). -/
def State.groupTurn (s : State) (g : Group) : Option Work :=
  match s.groupWork g with
  | some w => some w
  | none => (g.members.find? fun m => s.memberClose g m).map .close

/-- The work of a group member in the group's class: the group's, or its own CLOSE (R144). -/
def State.memberWork (s : State) (g : Group) (n : Fin 24) : Option Choice :=
  match s.groupWork g with
  | some w => some ⟨w, .group g.id⟩
  | none => if s.memberClose g n then some ⟨.close n, .slot n⟩ else none

/-- The group of class `c` a slot belongs to. A member of a group of another class that is not yet opened has no open
delivery, and its work in class `c` is its own (R143, R152 to R155; log 55). -/
def State.groupIn (s : State) (c : Cls) (n : Fin 24) : Option Group :=
  match s.groupOf n with
  | some g => if g.cls = c then some g else none
  | none => none

/-- The next exchange of an individual open delivery: the first page of its plan, or the CLOSE (R152, R153,
R163). -/
def State.nextOf (s : State) (n : Fin 24) (d : Delivery) : Option Choice :=
  if d.phase ≠ .opened then none
  else if d.cursor = 0 then some ⟨.close n, .slot n⟩
  else if d.mode.isBlocklist && !s.still then none
  else some ⟨.page n, .slot n⟩

/-- The next exchange of a sweep (R175 to R177). -/
def State.sweepNext (s : State) (n : Fin 24) (d : Delivery) : Option Choice :=
  let w := s.sweep n
  if d.phase ≠ .opened then none
  else if !w.list.isEmpty then (if s.still then some ⟨.page n, .slot n⟩ else none)
  else if w.cursor < s.change.pages then
    (if s.still && w.held.isNone then some ⟨.check n, .slot n⟩ else none)
  else some ⟨.close n, .slot n⟩

/-- The turn of slot `n`'s line is an URGENT turn that serves the slot. -/
def State.inUrgentTurn (s : State) (n : Fin 24) : Bool :=
  match s.lineOf n with
  | some l =>
    match (s.arbiter l).turn with
    | some u => decide (u.cls = .urgent) && decide (u.target = .slot n)
    | none => false
  | none => false

/-- URGENT's next exchange of an open DELTA or RELOAD (R149): the next page of its urgent part. An individual delivery whose
cursor reaches 0 in an URGENT turn of its slot has its CLOSE in that turn, at once (R163); with a rest left the turn ends
and ROUTINE sends the rest and the CLOSE (log 70). A group member's CLOSE is the group's matter. -/
def State.urgentNext (s : State) (n : Fin 24) (d : Delivery) : Option Choice :=
  if d.phase ≠ .opened then none
  else if d.urgent ≠ [] then (if s.still then some ⟨.page n, .slot n⟩ else none)
  else if d.rest = [] ∧ s.groupIn .routine n = none ∧ s.inUrgentTurn n = true then some ⟨.close n, .slot n⟩
  else none

/-- URGENT (R149, R151, R163). While the image is changing nothing but a CLOSE starts (R148). -/
def State.urgentWork (s : State) (n : Fin 24) : Option Choice :=
  let opens := if s.still && s.urgentNeed n then some (Choice.mk (.openTo n .blocklist) (.slot n)) else none
  if !s.blockOk n then none
  else
    match s.delivery n with
    | none => opens
    | some d =>
      match d.mode with
      | .delta | .reload => s.urgentNext n d
      | .repair | .stage | .install => opens

/-- ROUTINE (R152). -/
def State.routineWork (s : State) (n : Fin 24) : Option Choice :=
  if !s.blockOk n then none
  else
    match s.groupIn .routine n with
    | some g => s.memberWork g n
    | none =>
      match s.delivery n with
      | none => if s.still && s.routineNeed n then some ⟨.openTo n .blocklist, .slot n⟩ else none
      | some d => if d.owner = .routine then s.nextOf n d else none

/-- INSTALL (R153). An open INSTALL goes on though the slot's recorded edition has come to match (R143; log 58). -/
def State.installWork (s : State) (n : Fin 24) : Option Choice :=
  if !s.editionOk n then none
  else
    match s.groupIn .install n with
    | some g => s.memberWork g n
    | none =>
      match s.delivery n with
      | none => if s.installDue n then some ⟨.openTo n .install, .slot n⟩ else none
      | some d => if d.owner = .install then s.nextOf n d else none

/-- STAGE (R154): a DISCARD that is due comes before staging, for a group's unopened member too. An open STAGE goes on
though the slot's recorded edition has come to match (R143; log 58). -/
def State.stageWork (s : State) (n : Fin 24) : Option Choice :=
  if !s.editionOk n then none
  else if (s.delivery n).isNone && s.discardDue n then some ⟨.discard n, .slot n⟩
  else
    match s.groupIn .stage n with
    | some g => s.memberWork g n
    | none =>
      match s.delivery n with
      | none => if s.stagingDue n then some ⟨.openTo n .stage, .slot n⟩ else none
      | some d => if d.owner = .stage then s.nextOf n d else none

/-- REPAIR (R155, R173, R174, R180). -/
def State.repairWork (s : State) (n : Fin 24) : Option Choice :=
  if !s.blockOk n || !(s.slot n).repair then none
  else
    match s.delivery n with
    | none => if s.still && s.need n = some .repair then some ⟨.openTo n .repair, .slot n⟩ else none
    | some d => if d.mode = .repair then s.sweepNext n d else none

/-- ACTIVATION of one slot: a confirming POLL, then an individual ACTIVATE (R157). -/
def State.activationWork (s : State) (n : Fin 24) : Option Choice :=
  if !s.deliverable n then none
  else if (s.marks n).confirmDue then some ⟨.confirm n, .slot n⟩
  else if s.activateDueTo n then some ⟨.activate n, .slot n⟩ else none

/-- UPKEEP of one slot (R158). -/
def State.upkeepWork (s : State) (n : Fin 24) : Option Choice :=
  let v := s.slot n
  match v.state with
  | .vacant => none
  | .identifying => if v.identify = some 0 then some ⟨.identify n, .slot n⟩ else none
  | _ => if v.keepalive = some 0 then some ⟨.poll n, .slot n⟩ else none

/-- The work of a slot in a class. -/
def State.slotWork (s : State) (c : Cls) (n : Fin 24) : Option Choice :=
  match c with
  | .urgent => s.urgentWork n
  | .activation => s.activationWork n
  | .upkeep => s.upkeepWork n
  | .install => s.installWork n
  | .stage => s.stageWork n
  | .routine => s.routineWork n
  | .repair => s.repairWork n

/-! ## Discovery (R89) -/

/-- Discovery passes over an address that a slot holds on the line, and one on the clash list (R89, R91). -/
def State.passedOver (s : State) (l : Fin 4) (a : Nat) : Bool :=
  (s.lineRoster l).clash.contains a || allSlots.any fun n => decide ((s.slot n).binding = some (l, a))

/-- The address of the next visit: from the discovery position on, in cyclic order 1 to 30, the first not passed
over. -/
def State.visitAddress (s : State) (l : Fin 4) : Option Nat :=
  ((List.range 30).map fun i => ((s.lineRoster l).position - 1 + i) % 30 + 1).find? fun a =>
    !s.passedOver l a

/-! ## Rotation (R144, R158) -/

/-- Positions 0 to k - 1 from the one after the pointer, wrapping; an unset pointer starts at 0. -/
def rotation (p : Option Nat) (k : Nat) : List Nat :=
  let start := match p with
    | none => 0
    | some q => q + 1
  (List.range k).map fun i => (start + i) % k

/-- The pointer of a class. -/
def Pointers.get (p : Pointers) : Cls → Option Nat
  | .urgent => p.urgent
  | .activation => p.activation
  | .upkeep => p.upkeep
  | .install => p.install
  | .stage => p.stage
  | .routine => p.routine
  | .repair => p.repair

/-- Sets the pointer of a class. -/
def Pointers.put (p : Pointers) (c : Cls) (k : Nat) : Pointers :=
  match c with
  | .urgent => { p with urgent := some k }
  | .activation => { p with activation := some k }
  | .upkeep => { p with upkeep := some k }
  | .install => { p with install := some k }
  | .stage => { p with stage := some k }
  | .routine => { p with routine := some k }
  | .repair => { p with repair := some k }

/-- Slot `k` as a slot of line `l`, with its work in a class. -/
def State.workAt (s : State) (l : Fin 4) (c : Cls) (k : Nat) : Option Choice :=
  if h : k < 24 then
    (if s.lineOf ⟨k, h⟩ = some l then s.slotWork c ⟨k, h⟩ else none)
  else none

/-- UPKEEP at a position (R158): TIME, discovery, then the slots. A discovery visit with all 30 addresses passed over stays
due (log 50). -/
def State.upkeepAt (s : State) (l : Fin 4) (k : Nat) : Option Choice :=
  if k = 0 then (if s.editions.timeDue[l] then some ⟨.time, .line⟩ else none)
  else if k = 1 then
    (if (s.arbiter l).discoveryDue && (s.visitAddress l).isSome then some ⟨.discovery, .line⟩ else none)
  else s.workAt l .upkeep (k - 2)

/-- The first position of a rotation with work, and that work. -/
def firstWork (f : Nat → Option Choice) : List Nat → Option (Nat × Choice)
  | [] => none
  | k :: ks =>
    match f k with
    | some c => some (k, c)
    | none => firstWork f ks

/-- What a new turn of a class would do on a line: the choice, and the pointer it sets (R144). The ACTIVATE
broadcast comes before the slots' work and moves no pointer (R142, R156). -/
def State.offer (s : State) (l : Fin 4) (c : Cls) : Option (Option Nat × Choice) :=
  let p := (s.arbiter l).pointers.get c
  match c with
  | .upkeep => (firstWork (s.upkeepAt l) (rotation p 26)).map fun x => (some x.1, x.2)
  | .activation =>
    if (s.arbiter l).activateDue.isSome then some (none, ⟨.activateAll, .line⟩)
    else (firstWork (s.workAt l c) (rotation p 24)).map fun x => (some x.1, x.2)
  | _ => (firstWork (s.workAt l c) (rotation p 24)).map fun x => (some x.1, x.2)

/-- The classes in order (R142). -/
def classes : List Cls := [.urgent, .activation, .upkeep, .install, .stage, .routine, .repair]

/-- The first class with eligible work on a line (R142). -/
def State.firstClass (s : State) (l : Fin 4) : Option (Cls × Option Nat × Choice) :=
  classes.findSome? fun c => (s.offer l c).map fun o => (c, o)

/-- The next exchange of the current turn, if it has not ended (R142, R144). The 16th counted exchange ends a turn
for further pages; a CLOSE the turn has come to is still sent in it (R163; log 14). Whether the slot or group still has work in
the class is asked at the boundary alone: work that went and is back by then, as an urgent part emptied at a PAGE ACK and
filled again by a BATCH_END in the gap, lets the turn go on with its count (log 75). -/
def State.turnGoesOn (s : State) (l : Fin 4) (u : Turn) : Option Work :=
  match u.cls with
  | .activation | .upkeep => none
  | c =>
    let w :=
      match u.target with
      | .slot n =>
        if s.lineOf n = some l then
          (match s.slotWork c n with
           | some ch => if ch.target = Target.slot n then some ch.work else none
           | none => none)
        else none
      | .group id =>
        (match s.group id with
         | some g => if g.cls = c then s.groupTurn g else none
         | none => none)
      | .line => none
    match w with
    | some w => if 16 ≤ u.burst ∧ w.counted = true then none else some w
    | none => none

/-! ## Groups form (R159) -/

/-- A slot that can join a new group: protocol level 2, not solo, with the work of the kind, and the served rate. -/
def State.canJoin (s : State) (l : Fin 4) (c : Cls) (kind : OpenKind) (rate : Fin 7) (n : Fin 24) : Bool :=
  let v := s.slot n
  decide (s.lineOf n = some l) && decide (s.slotWork c n = some ⟨.openTo n kind, .slot n⟩) &&
  (match v.cap with
   | some k => k.level = 2
   | none => false) && !(s.marks n).solo && decide (v.served = rate)

/-- The members of the group a turn for slot `n` would form. -/
def State.groupFor (s : State) (l : Fin 4) (c : Cls) (ch : Choice) : List (Fin 24) :=
  match c, ch.work with
  | .stage, .openTo n .stage | .routine, .openTo n .blocklist =>
    if (s.profileOf l).group && s.canJoin l c c.openKind (s.slot n).served n then
      allSlots.filter fun m => s.canJoin l c c.openKind (s.slot n).served m
    else []
  | _, _ => []

/-! ## Handing an exchange to a port (R106, R142) -/

/-- An exchange handed and not yet started. -/
def handed (w : Work) : Exchange :=
  { work := w, started := false, addr := 0, code := 0, content := [], noReply := false, rate := 0, retries := 0,
    side := .primary, tag := 0, after := .nothing, twice := false, repeated := false, page := none,
    members := [], timeout := 0, gap := 0, silentPoll := false, withdrawn := false, detached := false }

/-- The port takes an exchange. -/
def handOver (l : Fin 4) (w : Work) (s : State) : State :=
  s.modPort l fun p => { p with exchange := some (handed w) }

/-- An urgent OPEN abandons another open delivery of the slot (R151). Any OPEN takes its slot out of a group of another
class that has not opened it (log 55). -/
def clearWay (c : Cls) (w : Work) (s : State) : State :=
  match c, w with
  | .urgent, .openTo n _ => abandon n s
  | _, .openTo n _ => if (s.groupIn c n).isSome then s else leaveGroup n s
  | _, _ => s

/-- A new turn (R144): the pointer is set, a group may form, and the exchange is handed over. -/
def newTurn (l : Fin 4) (c : Cls) (pointer : Option Nat) (ch : Choice) (s : State) : State :=
  let s := clearWay c ch.work s
  let setTurn (t : Target) (k : Option Nat) (s : State) : State :=
    s.modArbiter l fun a =>
      { a with turn := some ⟨c, t, 0⟩
               pointers := match k with
                 | some k => a.pointers.put c k
                 | none => a.pointers }
  match s.groupFor l c ch with
  | m :: m' :: ms =>
    let members := m :: m' :: ms
    let s := forSlots leaveGroup members s
    let id := s.freshGroup
    let g : Group :=
      { id := id, line := l, cls := c, members := members, toOpen := members, target := none,
        planned := false, plan := [], inFlight := none, rate := (s.slot m).served }
    let s := s.setGroups (s.sched.groups ++ [g])
    handOver l (.openTo m c.openKind) (setTurn (.group id) ((members.getLast?).map (·.val)) s)
  | _ =>
    match ch.target with
    | .group id =>
      let last := ((s.group id).bind fun g => g.members.getLast?).map (·.val)
      handOver l ch.work (setTurn (.group id) last s)
    | t => handOver l ch.work (setTurn t pointer s)

/-- A port that can be handed an exchange (R106): RUNNING, its line on, IDLE, none in hand, and no change of mode
waiting on either port of its pair (R98). -/
def State.portReady (s : State) (l : Fin 4) : Bool :=
  let p := s.port l
  let q := s.port (partner l)
  s.running && s.lineOn l && decide (p.applied = p.mode) && !p.forming && decide (p.xstate = .idle) &&
  p.exchange.isNone && (decide (p.mode ≠ .pairPrimary) || decide (q.applied = q.mode))

/-- An exchange boundary (R142): the first class with eligible work is served; the current turn goes on if it is
of that class. -/
def arbitrate (l : Fin 4) (s : State) : State :=
  if s.portReady l then
    match s.firstClass l with
    | none => s.modArbiter l fun a => { a with turn := none }
    | some (c, pointer, ch) =>
      match (s.arbiter l).turn with
      | some u =>
        if u.cls = c then
          (match s.turnGoesOn l u with
           | some w => handOver l w s
           | none => newTurn l c pointer ch s)
        else newTurn l c pointer ch s
      | none => newTurn l c pointer ch s
  else s

/-- Every idle line weighs its work (R142). -/
def boundaries (s : State) : State := forLines arbitrate allLines s

/-- A step after which every idle line weighs its work. -/
def scheduled (s : State) (f : State → State) : Out := recorded s fun s => boundaries (f s)

end Sys2Proof.Machine
end

