-- ==== Sys2Proof/Machine/Verify.lean ====
section
/-! DEFINITION. The verify unit: page comparisons, the repair flag, and what a close's verdict does (chapter 8). -/

namespace Sys2Proof.Machine

/-- The verdict of a CLOSE ACK (R135). -/
inductive Verdict where
  | unchecked
  | isMatch
  | mismatch
deriving DecidableEq, Repr

/-! ## Sweeps (R175) -/

/-- Pages from `first` on whose reported CRC differs from the stamp table's. -/
def differing (table : List StampRec) (first : Nat) (crcs : List Word) : List Nat :=
  (List.range crcs.length).filterMap fun i =>
    if crcs[i]? = (table[first + i]?).map (·.crc) then none else some (first + i)

/-- A CHECK REPORT is compared (R175): differing pages join the repair list, the cursor passes the range. -/
def compareReport (n : Fin 24) (h : HeldReport) (s : State) : State :=
  let w := s.sweep n
  s.setSweep n { w with list := w.list ++ differing s.change.table h.first h.crcs
                        cursor := h.first + h.crcs.length, held := none }

/-- Every held CHECK REPORT is compared when the image stops changing (R175). -/
def compareHeld (s : State) : State :=
  forSlots (fun n s =>
    match (s.sweep n).held with
    | some h => compareReport n h s
    | none => s) allSlots s

/-! ## The repair flag (R169, R171 to R173) -/

/-- Clears the repair flag and drops the sweep record (R169). -/
def clearRepair (n : Fin 24) (s : State) : State :=
  dropSweep n (s.modSlot n fun v => { v with repair := false })

/-- Sets the repair flag. -/
def setRepair (n : Fin 24) (s : State) : State := s.modSlot n fun v => { v with repair := true }

/-- Raises the digest mismatches counter. -/
def countMismatch (n : Fin 24) (s : State) : State :=
  count n (fun k => { k with mismatches := satInc k.mismatches }) s

/-- The conditions under which a STATUS digest is compared (R172). -/
def State.digestComparable (s : State) (n : Fin 24) (st : Status) : Bool :=
  decide (s.change.pages ≠ 0) && decide (st.identity = s.change.identity) && decide (st.gen = s.change.gen) &&
  !(s.slot n).reload && !s.change.changing && !st.openDelivery &&
  (match s.delivery n with
   | some d => !d.mode.isBlocklist
   | none => true)

/-- The STATUS digest comparison (R172). -/
def compareStatus (n : Fin 24) (st : Status) (s : State) : State :=
  if s.digestComparable n st then
    if st.digest = s.change.digest then
      (if (s.slot n).repair then clearRepair n s else s)
    else if (s.slot n).repair then s
    else countMismatch n (setRepair n s)
  else s

/-- Clears every repair flag and sweep record at a switch or swap (R173). -/
def clearRepairs (s : State) : State := forSlots clearRepair allSlots s

/-! ## The close of a delivery (R171, R177, R178, R180) -/

/-- A repair ended in MISMATCH (R178, R180): the sweep run rises; the second in a row is a delivery failure that
the roster counts and reports, after the slot's record, and after the summary too when it quarantined the slot (R201;
log 45). It adds to the failures counted before, those of earlier pairs among them (log 65). -/
def repairMismatch (n : Fin 24) (s : State) : State :=
  let s := countMismatch n s
  let w := s.sweep n
  if w.run = 0 then s.setSweep n { w with run := 1 }
  else
    let t := countFailure n (s.setSweep n { w with run := 0 })
    if (t.slot n).state = (s.slot n).state then rosterNote n t else rosterEvent n t

/-- A sweep's record starts over at page 0, its run kept (R177). -/
def restartSweep (n : Fin 24) (s : State) : State :=
  s.setSweep n { s.sweep n with cursor := 0, list := [], held := none }

/-- A delivery that repairs the store: a sweep, or a RELOAD in its place (R155, R174, R180). -/
def Delivery.mends (d : Delivery) : Bool :=
  match d.mode with
  | .repair => true
  | .delta | .reload | .stage | .install => d.repairReload

/-- A COMMITTED close with verdict `v` ends a repair in MISMATCH (R178, R180). -/
def Delivery.failedRepair (d : Delivery) (v : Verdict) : Bool := decide (v = .mismatch) && d.mends

/-- The verify unit at a COMMITTED close of a blocklist delivery (R171, R177, R180). UNCHECKED keeps the sweep record, its run
included, unless the close ends a repair (R171; log 66). -/
def judgeCommit (n : Fin 24) (d : Delivery) (v : Verdict) (s : State) : State :=
  match d.mode with
  | .repair =>
    match v with
    | .isMatch | .unchecked => clearRepair n s
    | .mismatch => repairMismatch n (restartSweep n s)
  | _ =>
    match v with
    | .isMatch => clearRepair n s
    | .unchecked => if d.repairReload then clearRepair n s else s
    | .mismatch => if d.repairReload then repairMismatch n s else countMismatch n (setRepair n s)

/-- The verify unit at a close that did not commit (R177): a sweep starts over. -/
def judgeRefused (n : Fin 24) (d : Delivery) (s : State) : State :=
  if d.mode = .repair then restartSweep n s else s

end Sys2Proof.Machine
end

