-- ==== Sys2Proof/Machine/Frames.lean ====
section
/-! DEFINITION. Frames going out: the frame layout, the content of each request, the start of a frame, its end, and
the second attempt or copy (chapter 5, sections 5.3 to 5.6; chapter 6, section 6.1). -/

namespace Sys2Proof.Machine

/-! ## The frame layout (R102, R103) -/

/-- The header mark. -/
def headerMark : Byte := 0xB4

/-- The data mark of a dialogue code: 0xBD for VOID, 0xB7 otherwise (R102). -/
def dataMark (code : Byte) : Byte := if code = Code.void then 0xBD else 0xB7

/-- Byte 3 of a header: tag and flags. -/
def flagByte (tag : BitVec 4) (noReply again : Bool) : Byte :=
  tag.setWidth 8 ||| (if noReply then 0x10 else 0) ||| (if again then 0x20 else 0)

/-- A frame from its address byte, code, byte 3 and content (R102). -/
def frameBytes (address code third : Byte) (content : List Byte) : List Byte :=
  let head : List Byte := [headerMark, address, code, third] ++ leBytes 2 content.length
  let block : List Byte := dataMark code :: content
  head ++ leBytes 2 (crc16 head).toNat ++
    (if content = [] then [] else block ++ leBytes 2 (crc16 block).toNat)

/-! ## Loops and sides (R111, R112) -/

/-- The loop that line `l` drives is in force (R98). -/
def State.looped (s : State) (l : Fin 4) : Bool :=
  decide ((s.port l).applied = .pairPrimary) && decide ((s.port (partner l)).applied = .pairSecondary)

/-- Line `l` drives a broken loop. -/
def State.brokenLoop (s : State) (l : Fin 4) : Bool := s.looped l && (s.port l).broken

/-- The side of a first attempt (R112, R113). -/
def State.firstSide (s : State) (l : Fin 4) (w : Work) : Side :=
  match w.slot with
  | some n => if s.brokenLoop l then (s.slot n).reach else .primary
  | none => .primary

/-! ## The content of requests (chapter 6, section 6.1) -/

/-- A request frame ready to start: its address, code, content and so on, and what its start does to the state. -/
structure RequestFrame where
  addr : Nat
  code : Byte
  content : List Byte
  noReply : Bool
  rate : Fin 7
  page : Option PageRead
  members : List (Fin 24)
  silentPoll : Bool
  after : State

/-- A request to one slot at its served rate that reads no page. -/
def State.toSlot (s : State) (n : Fin 24) (code : Byte) (content : List Byte) (after : State) : RequestFrame :=
  { addr := ((s.slot n).binding.map (·.2)).getD 0, code := code, content := content, noReply := false,
    rate := (s.slot n).served, page := none, members := [], silentPoll := false, after := after }

/-- A broadcast at 19,200 baud (R101). -/
def broadcast (code : Byte) (content : List Byte) (after : State) : RequestFrame :=
  { addr := 31, code := code, content := content, noReply := true, rate := 0, page := none, members := [],
    silentPoll := false, after := after }

/-- The mode byte of an OPEN. -/
def Mode.code : Mode → Nat
  | .delta => 1
  | .reload => 2
  | .repair => 3
  | .stage => 4
  | .install => 5

/-- The content of a blocklist OPEN. -/
def blockOpen (s : State) (d : Delivery) : List Byte :=
  leBytes 1 1 ++ leBytes 1 d.mode.code ++ leBytes 1 (if d.grouped then 1 else 0) ++
  leBytes 4 d.identity.toNat ++ leBytes 4 d.baseH.toNat ++ leBytes 4 d.target.toNat ++
  leBytes 2 s.change.pages ++ leBytes 4 s.change.seed.toNat

/-- The content of an edition OPEN; `effective` is 0 for an INSTALL (R153, R154). -/
def editionOpen (d : Delivery) (effective : Word) : List Byte :=
  leBytes 1 2 ++ leBytes 1 d.mode.code ++ leBytes 1 (if d.grouped then 1 else 0) ++
  leBytes 2 d.edition.number.toNat ++ leBytes 1 d.total ++ leBytes 4 d.edition.digest.toNat ++
  leBytes 4 effective.toNat

/-- A new delivery record in OPENING (R145), its plan still to be given. -/
def Delivery.fresh (mode : Mode) (streamed grouped : Bool) : Delivery :=
  { mode := mode, identity := 0, baseH := 0, edition := ⟨0, 0⟩, total := 0, target := 0, streamed := streamed,
    grouped := grouped, urgent := [], rest := [], late := [], inFlight := none, mask := 0, tallyCount := 0,
    tallySum := 0, phase := .opening, makeActive := false, repairReload := false }

/-- Level 2 by the capability record. -/
def Slot.level2 (v : Slot) : Bool :=
  match v.cap with
  | some c => c.level = 2
  | none => false

/-- The blocklist delivery an OPEN begins (R146, R147, R174, R180): none when the need is gone. -/
def State.blockDelivery (s : State) (n : Fin 24) (l : Fin 4) (kind : OpenKind) (grouped : Bool) (target : Word) :
    Option Delivery :=
  let v := s.slot n
  let base (mode : Mode) : Delivery :=
    { Delivery.fresh mode (s.profileOf l).streamed grouped with
      identity := s.change.identity, target := target }
  let planned (mode : Mode) (h : Word) : Delivery :=
    { base mode with
      baseH := h, urgent := urgentPart mode h s.change.table
      rest := if grouped then [] else restPart mode h s.change.table }
  match kind, s.need n with
  | .blocklist, some .reload => some (planned .reload 0)
  | .blocklist, some .delta => some (planned .delta v.heldH)
  | .repair, some .repair =>
    if v.level2 then some (base .repair) else some { planned .reload 0 with repairReload := true }
  | _, _ => none

/-- The edition delivery an OPEN begins (R153, R154), with the effective minute it carries. -/
def State.editionDelivery (s : State) (l : Fin 4) (kind : OpenKind) (grouped : Bool) : Option (Delivery × Word) :=
  let e := s.editions
  let streamed := (s.profileOf l).streamed
  match kind with
  | .stage =>
    if e.pending.state = .pending then
      some ({ Delivery.fresh .stage streamed grouped with
        edition := ⟨e.pending.number, e.pending.digest⟩, total := e.pending.total }, e.pending.effective)
    else none
  | .install =>
    if e.active.present then
      some ({ Delivery.fresh .install streamed grouped with
        edition := ⟨e.active.number, e.active.digest⟩, total := e.active.total }, 0)
    else none
  | _ => none

/-- The group an OPEN belongs to: the slot's group while its OPEN is still to be answered. -/
def State.openGroup (s : State) (n : Fin 24) (kind : OpenKind) : Option Group :=
  match s.groupOf n with
  | some g => if g.toOpen.contains n && decide (g.cls.openKind = kind) then some g else none
  | none => none

/-- OPEN (R146, R153, R154, R160); no STAGE OPEN while a DISCARD is due. An edition OPEN is for the edition the slot of its
class holds as its frame starts (log 19). -/
def State.openFrame (s : State) (l : Fin 4) (n : Fin 24) (kind : OpenKind) : Option RequestFrame :=
  if (s.delivery n).isSome || (decide (kind = .stage) && s.discardDue n) then none
  else
    let group := s.openGroup n kind
    if (s.groupOf n).isSome && group.isNone then none
    else
      match kind with
      | .blocklist | .repair =>
        if s.change.changing then none
        else
          let target := (group.bind (·.target)).getD s.change.gen
          (s.blockDelivery n l kind group.isSome target).map fun d =>
            let after := s.setDelivery n (some d)
            let after :=
              match group with
              | some g => after.modGroup g.id fun g => { g with target := some target }
              | none => after
            s.toSlot n Code.openDelivery (blockOpen s d) after
      | .stage | .install =>
        (s.editionDelivery l kind group.isSome).map fun x =>
          s.toSlot n Code.openDelivery (editionOpen x.1 x.2) (s.setDelivery n (some x.1))

/-- The next page of a delivery: the first of its repair list, of its urgent part, or of its rest. -/
def State.nextPage (s : State) (n : Fin 24) (d : Delivery) : Option Nat :=
  if d.mode = .repair then (s.sweep n).list.head? else (d.urgent ++ d.rest).head?

/-- The region an edition page is read from (R153, R154, R167). -/
def State.editionRegion (s : State) (mode : Mode) : Region :=
  if mode = .stage then s.editions.pending.region else s.editions.active.region

/-- A blocklist page as its frame goes out (R147): code, content and what was read; none while the image is
changing. Live count, stamp and page CRC are the stamp table's, the 256 bytes the region's (R8; log 18). -/
def State.blockPage (s : State) (p : Nat) : Option (Byte × List Byte × PageRead) :=
  if s.change.changing then none
  else
    match s.change.table[p]? with
    | none => none
    | some r =>
      if r.live = 0 then
        some (Code.void, leBytes 2 p ++ leBytes 4 r.stamp.toNat, ⟨p, true, 0, r.crc⟩)
      else
        let bytes := readPage s.mem (s.imageBase s.change.region) p
        some (Code.page, leBytes 1 1 ++ leBytes 2 p ++ leBytes 4 r.stamp.toNat ++ bytes, ⟨p, false, r.crc, r.crc⟩)

/-- An edition page as its frame goes out (R153), its CRC the page CRC field of the bytes read (R131; log 18). -/
def State.editionPage (s : State) (mode : Mode) (number : BitVec 16) (p : Nat) : Byte × List Byte × PageRead :=
  let bytes := readPage s.mem (s.editionBase (s.editionRegion mode)) p
  let crc := pageCrcField bytes
  (Code.page, leBytes 1 2 ++ leBytes 2 p ++ leBytes 2 number.toNat ++ [0, 0] ++ bytes, ⟨p, false, crc, crc⟩)

/-- The page frame of a delivery or group with a mode and an edition number. -/
def State.pageOf (s : State) (mode : Mode) (number : BitVec 16) (p : Nat) : Option (Byte × List Byte × PageRead) :=
  if mode.isBlocklist then s.blockPage p else some (s.editionPage mode number p)

/-- PAGE or VOID to one slot (R130, R147, R153, R176). -/
def State.pageFrame (s : State) (n : Fin 24) : Option RequestFrame := do
  let d ← s.delivery n
  if d.phase = .opened then
    let p ← s.nextPage n d
    let x ← s.pageOf d.mode d.edition.number p
    let f := s.toSlot n x.1 x.2.1 (s.modDelivery n fun d => { d with inFlight := some p })
    return { f with noReply := d.streamed && decide (d.mode ≠ .repair), page := some x.2.2 }
  else none

/-- CLOSE (R132). One handed over and not yet started when a priority batch inserts pages (R150) goes all the same, with those
pages left in the plan (log 19). -/
def State.closeFrame (s : State) (n : Fin 24) : Option RequestFrame := do
  let d ← s.delivery n
  if d.phase = .opened then
    let quiet := decide (s.change.gen = d.target) && !s.change.changing
    let content :=
      if d.mode.isBlocklist then
        leBytes 1 1 ++ leBytes 4 d.target.toNat ++ leBytes 2 d.tallyCount.toNat ++ leBytes 4 d.tallySum.toNat ++
        leBytes 4 (if quiet then s.change.digest.toNat else 0) ++ leBytes 1 (if quiet then 0 else 1)
      else
        leBytes 1 2 ++ leBytes 4 d.edition.number.toNat ++ leBytes 2 d.tallyCount.toNat ++
        leBytes 4 d.tallySum.toNat ++ leBytes 4 d.edition.digest.toNat ++
        leBytes 1 (if d.mode = .install then 2 else 0)
    return s.toSlot n Code.close content (s.modDelivery n fun d => { d with phase := .closing, makeActive := decide (d.mode = .install) })
  else none

/-- CHECK (R175). -/
def State.checkFrame (s : State) (n : Fin 24) : Option RequestFrame := do
  let d ← s.delivery n
  let c := (s.sweep n).cursor
  if d.mode = .repair ∧ d.phase = .opened ∧ c < s.change.pages ∧ s.change.changing = false then
    return s.toSlot n Code.check (leBytes 2 c ++ leBytes 1 (min 8 (s.change.pages - c))) s
  else none

/-- A group frame (R161): the first page of the common plan, to address 31. -/
def State.groupFrame (s : State) (id : Nat) : Option RequestFrame := do
  let g ← s.group id
  let p ← g.plan.head?
  let d ← g.members.findSome? fun n => s.delivery n
  let x ← s.pageOf d.mode d.edition.number p
  return { addr := 31, code := x.1, content := x.2.1, noReply := true, rate := g.rate, page := some x.2.2,
           members := g.members, silentPoll := false,
           after := s.modGroup id fun g => { g with inFlight := some p } }

/-- A discovery visit begins (R89, R90): the position moves on; the roster-full notice may be given again once a new
sweep has begun. -/
def beginVisit (l : Fin 4) (a : Nat) (s : State) : State :=
  let s := s.modLineRoster l fun r =>
    { r with position := a % 30 + 1
             fullNoticed := if r.position = 1 ∨ a < r.position then false else r.fullNoticed }
  s.modArbiter l fun a => { a with discoveryDue := false }

/-- The request frame of an exchange handed to line `l`; none when its purpose is gone, or when it is a blocklist
frame and the image is changing (R148). -/
def State.requestFrame (s : State) (l : Fin 4) (w : Work) : Option RequestFrame :=
  let here (n : Fin 24) : Bool := s.lineOf n = some l
  match w with
  | .poll n | .confirm n =>
    if here n then
      let silent := decide ((s.slot n).state = .silent)
      let f := s.toSlot n Code.poll [] s
      some { f with rate := if silent then 0 else f.rate, silentPoll := silent }
    else none
  | .identify n =>
    if here n && decide ((s.slot n).state = .identifying) then
      some { s.toSlot n Code.identify [] s with rate := 0 }
    else none
  | .discovery =>
    (s.visitAddress l).map fun a =>
      { addr := a, code := Code.identify, content := [], noReply := false, rate := 0, page := none, members := [],
        silentPoll := false, after := beginVisit l a s }
  | .openTo n kind => if here n then s.openFrame l n kind else none
  | .page n => if here n then s.pageFrame n else none
  | .close n => if here n then s.closeFrame n else none
  | .check n => if here n then s.checkFrame n else none
  | .activate n =>
    if here n && s.activateDueTo n then
      some (s.toSlot n Code.activate (leBytes 2 s.editions.active.number.toNat)
        (s.modMarks n fun m => { m with activateSent := true }))
    else none
  | .discard n =>
    if here n && s.discardDue n then
      (s.slot n).heldPending.map fun p => s.toSlot n Code.discard (leBytes 2 p.edition.number.toNat) s
    else none
  | .groupPage id => s.groupFrame id
  | .activateAll =>
    (s.arbiter l).activateDue.map fun number => broadcast Code.activate (leBytes 2 number.toNat) s
  | .time =>
    some (broadcast Code.time (leBytes 2 s.clock.day ++ leBytes 2 s.clock.minute)
      { s with editions := { s.editions with timeDue := s.editions.timeDue.set l false } })

/-! ## Driving a frame (R101, R104, R106, R114) -/

/-- Changes the line counters of the port that drives or reads a side. -/
def countLine (l : Fin 4) (side : Side) (f : LineCounters → LineCounters) (s : State) : State :=
  s.modPort (sidePort l side) fun p => { p with counters := f p.counters }

/-- The port drives a frame of an exchange: SENDING, the frame counted at the port of its side. -/
def drive (l : Fin 4) (ex : Exchange) (s : State) : State :=
  let frame := frameBytes (BitVec.ofNat 8 ex.addr) ex.code (flagByte ex.tag ex.noReply ex.repeated) ex.content
  let s := s.modPort l fun p =>
    { p with xstate := .sending, exchange := some ex, tx := frame, gap := ex.gap, rate := ex.rate, rxSide := ex.side
             sendLeft := frame.length * byteTime ex.rate }
  countLine l ex.side (fun k => { k with sent := satInc k.sent }) s

/-- Takes the next tag of line `l` (R104). -/
def nextTag (l : Fin 4) (s : State) : BitVec 4 × State :=
  ((s.port l).tag, s.modPort l fun p => { p with tag := p.tag + 1 })

/-- Reply timeout and turnaround gap of a frame that starts now (R100, R110). -/
def State.timing (s : State) (l : Fin 4) (rate : Fin 7) : Time × Time :=
  let p := s.profileOf l
  (p.timeout * (Config.ms / 2), p.gap * byteTime rate)

/-- The first frame of an exchange starts. -/
def startExchange (l : Fin 4) (w : Work) (f : RequestFrame) (s : State) : State :=
  let (tag, s) := nextTag l s
  let (timeout, gap) := s.timing l f.rate
  drive l
    { work := w, started := true, addr := f.addr, code := f.code, content := f.content, noReply := f.noReply,
      rate := f.rate, retries := if w = .discovery then 0 else (s.profileOf l).retries,
      side := s.firstSide l w, tag := tag, after := .nothing,
      twice := decide (f.addr = 31) && s.brokenLoop l, repeated := false, page := f.page, members := f.members,
      timeout := timeout, gap := gap, silentPoll := f.silentPoll, withdrawn := false, detached := false } s

/-- An exchange whose purpose is gone before its frame started is taken back (log 19): a group member with nothing left
to open leaves its group. -/
def takeBack (l : Fin 4) (w : Work) (s : State) : State :=
  let s := s.modPort l fun p => { p with exchange := none }
  match w with
  | .openTo n kind =>
    if (s.openGroup n kind).isSome && !s.change.changing && !(decide (kind = .stage) && s.discardDue n) then
      leaveGroup n s
    else s
  | _ => s

/-- The idle rule (R101): the line has been idle for 2 byte times at the rate of the frame about to start. -/
def State.idleMet (s : State) (l : Fin 4) (rate : Fin 7) : Bool := decide (2 * byteTime rate ≤ (s.port l).idleTime)

/-- FRAME_START (R101, R106): the frame of the exchange handed to an IDLE port starts once the idle rule is met; until then
the port waits in IDLE. -/
def execFrameStart (l : Fin 4) (s : State) : Out :=
  scheduled s fun s =>
    match (s.port l).exchange with
    | some ex =>
      if s.working && decide ((s.port l).xstate = .idle) && !ex.started then
        (match s.requestFrame l ex.work with
         | some f => if s.idleMet l f.rate then startExchange l ex.work f f.after else s
         | none => takeBack l ex.work s)
      else s
    | none => s

/-! ## The end of an exchange (R144) -/

/-- The exchange of a port is over; a PAGE, VOID or CHECK exchange counts toward the 16 of its turn, and a DISCARD ends its
turn (R154). -/
def overExchange (l : Fin 4) (ex : Exchange) (s : State) : State :=
  let s := s.modPort l fun p => { p with exchange := none, reply := none }
  if ex.work.counted then
    s.modArbiter l fun a =>
      { a with turn := a.turn.map fun u => { u with burst := u.burst + 1 } }
  else if ex.work.endsTurn then s.modArbiter l fun a => { a with turn := none }
  else s

/-- The port goes to GAP for the turnaround gap (R110). -/
def toGap (l : Fin 4) (s : State) : State := s.modPort l fun p => { p with xstate := .gap, gapLeft := p.gap }

/-- The port goes to GAP after a frame that no attempt awaited (R110): the gap of its profile, at the rate its receiver
takes frames at (log 49). -/
def toFreshGap (l : Fin 4) (s : State) : State :=
  s.modPort l fun p => { p with xstate := .gap, gapLeft := (s.timing l p.rate).2 }

/-- A page frame counts for a delivery (R131, R145): the tally, the plan and the pages-sent counter. -/
def countPage (n : Fin 24) (r : PageRead) (s : State) : State :=
  let s := s.modDelivery n fun d =>
    let taken := decide (d.inFlight = some r.page)
    { d with
      tallyCount := d.tallyCount + 1, tallySum := d.tallySum + r.tallyCrc
      urgent := if taken then d.urgent.erase r.page else d.urgent
      rest := if taken then d.rest.erase r.page else d.rest
      inFlight := none }
  count n (fun k => { k with pagesSent := satInc k.pagesSent }) s

/-- A group frame counts for a member that still has its delivery (R131, R161). -/
def countMember (r : PageRead) (n : Fin 24) (s : State) : State :=
  if (s.delivery n).isSome then
    count n (fun k => { k with pagesSent := satInc k.pagesSent })
      (s.modDelivery n fun d =>
        { d with tallyCount := d.tallyCount + 1, tallySum := d.tallySum + r.tallyCrc })
  else s

/-- The first copy of a group frame has ended: it counts, and its page leaves the common plan. -/
def countGroup (id : Nat) (ex : Exchange) (s : State) : State :=
  match ex.page with
  | none => s
  | some r =>
    let s := forSlots (countMember r) ex.members s
    s.modGroup id fun g =>
      { g with plan := if g.inFlight = some r.page then g.plan.erase r.page else g.plan, inFlight := none }

/-- A frame without reply has ended (R110, R131): its first copy counts. -/
def countSent (ex : Exchange) (s : State) : State :=
  if ex.repeated || ex.withdrawn then s
  else
    match ex.work, ex.page with
    | .page n, some r => countPage n r s
    | .groupPage id, _ => countGroup id ex s
    | _, _ => s

/-- The ACTIVATE broadcast has ended (R156): the mark becomes none, and unconfirmed slots take their confirm-due
mark. -/
def broadcastEnds (l : Fin 4) (s : State) : State :=
  let s := s.modArbiter l fun a => { a with activateDue := none }
  forSlots (fun n s =>
    if s.lineOf n = some l ∧ (s.slot n).unconfirmed = true then
      s.modMarks n fun m => { m with confirmDue := true }
    else s) allSlots s

/-- A broadcast is over: what the ACTIVATE broadcast leaves, unless its purpose was withdrawn (R156). -/
def broadcastOver (l : Fin 4) (ex : Exchange) (s : State) : State :=
  if ex.work = .activateAll ∧ ex.withdrawn = false then broadcastEnds l s else s

/-- A NO REPLY frame ends at its last byte (R110). One to a single slot leaves the slot's keep-alive due time (R92; log 60). -/
def noReplyEnds (l : Fin 4) (ex : Exchange) (s : State) : State :=
  let s := countSent ex s
  if ex.twice && !ex.repeated then
    toGap l (s.modPort l fun p => { p with exchange := some { ex with after := .copy } })
  else
    let s := toGap l (overExchange l ex (broadcastOver l ex s))
    if (s.port l).mode = .off then
      s.modPort l fun p => { p with xstate := .idle, applied := .off }
    else s

/-- FRAME_SENT (R106, R110, R116): the end of a frame's last byte. In FAULTED the port then stays IDLE. -/
def execFrameSent (l : Fin 4) (s : State) : Out :=
  scheduled s fun s =>
    match (s.port l).exchange with
    | some ex =>
      if (s.port l).xstate ≠ .sending then s
      else if s.isFaulted then
        s.modPort l fun p => { p with xstate := .idle, exchange := none, reply := none, idleTime := 0 }
      else
        let s := s.modPort l fun p =>
          { p with echoDue := p.echoDue || (s.looped l && decide (ex.side = .primary)), idleTime := 0 }
        if ex.noReply then noReplyEnds l ex s
        else s.modPort l fun p => { p with xstate := .awaiting, replyLeft := ex.timeout }
    | none => s

/-! ## The next attempt or copy (R109, R112, R113) -/

/-- The side of the next attempt (R112, R113). -/
def State.nextSide (s : State) (l : Fin 4) (ex : Exchange) : Side :=
  if s.brokenLoop l then otherSide ex.side else .primary

/-- Another attempt: a new tag, and REPEAT unless it is discovery's second IDENTIFY (R104, R113). -/
def nextAttempt (l : Fin 4) (ex : Exchange) (s : State) : State :=
  let side := s.nextSide l ex
  let (tag, s) := nextTag l s
  let (timeout, gap) := s.timing l ex.rate
  drive l { ex with side := side, tag := tag, repeated := decide (ex.work ≠ .discovery), after := .nothing
                    timeout := timeout, gap := gap } s

/-- The second copy on a broken loop: the same tag, with REPEAT, on the secondary (R113), even when the loop became INTACT in
the gap after the first (log 53). -/
def secondCopy (l : Fin 4) (ex : Exchange) (s : State) : State :=
  let (_, gap) := s.timing l ex.rate
  drive l { ex with side := .secondary, repeated := true, after := .nothing, gap := gap } s

/-- The port is IDLE, its exchange over. -/
def toIdle (l : Fin 4) (s : State) : State := s.modPort l fun p => { p with xstate := .idle }

/-- An exchange ends without a result. -/
def endQuietly (l : Fin 4) (ex : Exchange) (s : State) : State := toIdle l (overExchange l ex s)

/-- The line of a port has been idle for `t` more; the count stops at the longest idle R101 asks for. -/
def idleFor (t : Time) (p : Port) : Port := { p with idleTime := min (p.idleTime + t) (2 * byteTime 0) }

/-- What follows the first copy (R113): the second, or the end of the frame when the odd line has been set OFF since, a port
that drives no frame (R96; log 57). -/
def afterFirstCopy (l : Fin 4) (ex : Exchange) (s : State) : State :=
  if s.looped l then secondCopy l ex s else endQuietly l ex (broadcastOver l ex s)

/-- GAP_END (R109, R110, R113): the gap has passed, and the next attempt or copy follows, or IDLE. A reply not yet taken
holds the port. -/
def execGapEnd (l : Fin 4) (s : State) : Out :=
  scheduled s fun s =>
    let p := s.port l
    if p.xstate ≠ .gap ∨ p.reply.isSome = true ∨ s.working = false then s
    else
      let s := s.modPort l fun p => { idleFor p.gapLeft p with gapLeft := 0 }
      match p.exchange with
      | none => toIdle l s
      | some ex =>
        if !ex.started then toIdle l s
        else
          match ex.after with
          | .copy => afterFirstCopy l ex s
          | .attempt =>
            if ex.withdrawn || (decide (ex.work = .discovery) && !s.brokenLoop l) then endQuietly l ex s
            else nextAttempt l ex s
          | .nothing => endQuietly l ex s

end Sys2Proof.Machine
end

