-- ==== Sys2Proof/Machine/Receive.lean ====
section
/-! DEFINITION. Frames coming in: the header mark, the judgment of a received frame, the fit of a reply, garbled replies
and timeouts, misses, clash detection and echoes (chapter 5, sections 5.5 and 5.6; R83, R91, R118). -/

namespace Sys2Proof.Machine

/-! ## The received frame (R102, R103, R107) -/

/-- The declared data length. -/
def declaredLength (bytes : List Byte) : Nat := fieldAt bytes 4 2

/-- The header check is good (R103). -/
def headerGood (bytes : List Byte) : Bool :=
  decide (8 ≤ bytes.length) && decide ((crc16 (bytes.take 6)).toNat = fieldAt bytes 6 2)

/-- The data check is good (R103); with data length 0 it counts as good. The mark's value is not checked (log 22). -/
def dataGood (bytes : List Byte) : Bool :=
  let n := declaredLength bytes
  decide (n = 0) || decide ((crc16 ((bytes.drop 8).take (n + 1))).toNat = fieldAt bytes (n + 9) 2)

/-- The bytes of a frame of data length `n` (R102). -/
def frameLength (n : Nat) : Nat := if n = 0 then 8 else n + 11

/-- A frame is not garbled (R107). -/
def frameIntact (bytes : List Byte) (ending : FrameEnd) : Bool :=
  decide (ending = .complete) && headerGood bytes && decide (declaredLength bytes ≤ 300) &&
  decide (bytes.length = frameLength (declaredLength bytes)) && dataGood bytes

/-- Byte `i` of a frame. -/
def byteOf (bytes : List Byte) (i : Nat) : Byte := (bytes[i]?).getD 0

/-- The drop address a frame carries. -/
def frameAddress (bytes : List Byte) : Nat := (byteOf bytes 1).toNat % 32

/-- Direction 1: from a validator. -/
def fromValidator (bytes : List Byte) : Bool := (byteOf bytes 1).getLsbD 7

/-- The tag a frame carries; the flags of a reply are ignored (R102). -/
def frameTag (bytes : List Byte) : BitVec 4 := (byteOf bytes 3).setWidth 4

/-- The content of a frame. -/
def frameContent (bytes : List Byte) : List Byte := (bytes.drop 9).take (declaredLength bytes)

/-- The judgments of R107. -/
inductive Judgment where
  | garbled
  | good
  | stale
deriving DecidableEq, Repr

/-- The judgment of a frame; `awaited` is the exchange that awaits a reply, if one does (R107). -/
def judge (bytes : List Byte) (ending : FrameEnd) (awaited : Option Exchange) : Judgment :=
  if frameIntact bytes ending then
    match awaited with
    | some ex =>
      if fromValidator bytes ∧ frameAddress bytes = ex.addr ∧ frameTag bytes = ex.tag then .good else .stale
    | none => .stale
  else .garbled

/-- A reply fits its request (R118). -/
def fits (ex : Exchange) (code : Byte) (content : List Byte) : Bool :=
  let checkCount := fieldAt ex.content 2 1
  (admitted ex.code).contains code && decide (content.length = replyLength code checkCount) &&
  (if code = Code.pageAck then
    (match ex.page with
     | some r => decide (fieldAt content 0 2 = r.page)
     | none => false)
   else if code = Code.checkReport then decide (content.take 3 = ex.content.take 3)
   else if code = Code.ident then decide (identSerial content ≠ 0)
   else true)

/-! ## Whom an exchange concerns -/

/-- The slot an exchange is addressed to, none once the slot was freed or pinned anew. -/
def Exchange.slot (ex : Exchange) : Option (Fin 24) := if ex.detached then none else ex.work.slot

/-- Applies an operation to the slot of an exchange. -/
def onSlot (ex : Exchange) (f : Fin 24 → State → State) (s : State) : State :=
  match ex.slot with
  | some n => f n s
  | none => s

/-- The slot bound to an address on line `l`. -/
def State.slotAt (s : State) (l : Fin 4) (a : Nat) : Option (Fin 24) :=
  allSlots.find? fun n => (s.slot n).binding = some (s.actingLine l, a)

/-! ## Clash detection (R83) and the clash list (R91) -/

/-- The garble run after a garbled reply (R83): a suspect's run stays at 4. -/
def garbleRunAfter (run : Nat) (own : Nat) (last : Option (Nat × Bool)) : Nat :=
  if 4 ≤ run then 4
  else
    match last with
    | some (a, true) => if a ≠ own then run + 1 else 0
    | _ => 0

/-- A garbled reply to an exchange with a slot (R75, R83). -/
def garbledAt (l : Fin 4) (addr : Nat) (n : Fin 24) (s : State) : State :=
  s.modSlot n fun v =>
    { v with counters := { v.counters with garbled := satInc v.counters.garbled }
             garbleRun := garbleRunAfter v.garbleRun addr (s.port l).last }

/-- A slot's garble run goes to 0. -/
def endGarbleRun (n : Fin 24) (s : State) : State := s.modSlot n fun v => { v with garbleRun := 0 }

/-- The suspects of a line whose address is not `a`. -/
def State.suspects (s : State) (l : Fin 4) (a : Nat) : List (Fin 24) :=
  allSlots.filter fun n =>
    decide ((s.slot n).garbleRun = 4) &&
    (match (s.slot n).binding with
     | some (k, b) => decide (k = s.actingLine l) && decide (b ≠ a)
     | none => false)

/-- A completed exchange to one slot decides the suspects at other addresses (R83). -/
def decideSuspects (l : Fin 4) (a : Nat) (good : Bool) (s : State) : State :=
  forSlots (fun n s =>
    let s := if good then quarantine n .clash s else s
    endGarbleRun n s) (s.suspects l a) s

/-- The garble count of a discovery address (R91). -/
def setGarbles (l : Fin 4) (a k : Nat) (s : State) : State :=
  s.modLineRoster l fun r => { r with garbles := r.garbles.set a k }

/-- The line records that show what line `l` keeps for its loop or itself (R115). -/
def State.lineRecords (s : State) (l : Fin 4) : List (Fin 29) :=
  if s.paired l then [lineRec l, lineRec (partner l)] else [lineRec l]

/-- A garbled discovery reply (R91): the fourth in a row puts the address on the clash list. The count and the list are those of
the port's own line: a visit that a secondary still runs after its pair was accepted (R98) counts and lists there, where the pair
neither reads nor shows it, and EVENTS.LINE is raised (log 74). -/
def garbledVisit (l : Fin 4) (a : Nat) (s : State) : State :=
  let k := ((s.lineRoster l).garbles[a]?).getD 0 + 1
  if k < 4 then setGarbles l a k s
  else
    let s := (setGarbles l a 0 s).modLineRoster l fun r => { r with clash := insertPage a r.clash }
    raiseAfter .line (s.lineRecords l) s

/-! ## Failed attempts and misses (R109, R112) -/

/-- The delivery of an exchange that missed ends without a failure (R140). -/
def missDelivery (ex : Exchange) (n : Fin 24) (s : State) : State :=
  if ex.work.isDelivery then endDelivery n s else s

/-- The exchange is a miss (R109): the mark, the reach side, the suspects, the delivery and the roster. -/
def miss (l : Fin 4) (ex : Exchange) (s : State) : State :=
  let s := overExchange l ex (toGap l s)
  match ex.slot with
  | none => s
  | some n =>
    let s := s.modPort l fun p => { p with last := some (ex.addr, false) }
    let s := if s.brokenLoop l then s.modSlot n fun v => { v with reach := otherSide ex.side } else s
    missed n (missDelivery ex n (decideSuspects l ex.addr false s))

/-- Discovery on a broken loop sends a second IDENTIFY on the secondary (R113). -/
def State.secondVisit (s : State) (l : Fin 4) (ex : Exchange) : Bool :=
  decide (ex.work = .discovery) && decide (ex.side = .primary) && s.brokenLoop l

/-- An attempt failed, by a garbled reply or a timeout (R109). A withdrawn exchange leaves the last-exchange mark and decides
no suspect (R83; log 62). -/
def failAttempt (l : Fin 4) (ex : Exchange) (s : State) : State :=
  if ex.withdrawn then overExchange l ex (toGap l s)
  else if s.secondVisit l ex then
    toGap l (s.modPort l fun p => { p with exchange := some { ex with after := .attempt } })
  else if 0 < ex.retries then
    toGap l (s.modPort l fun p =>
      { p with exchange := some { ex with after := .attempt, retries := ex.retries - 1 } })
  else if ex.work = .discovery then overExchange l ex (toGap l s)
  else miss l ex s

/-- A garbled reply to an exchange (R107, R118): counted on the slot or the visited address, then a failed attempt. -/
def garbledReply (l : Fin 4) (ex : Exchange) (s : State) : State :=
  let s := if ex.work = .discovery then garbledVisit l ex.addr s else onSlot ex (garbledAt l ex.addr) s
  failAttempt l ex s

/-! ## A good reply (R81, R83, R107, R112) -/

/-- What a good, fit reply does before its code is taken: the mark, the runs, the reach side, the suspects. -/
def goodReply (l : Fin 4) (ex : Exchange) (r : Reply) (s : State) : State :=
  let s := toGap l (s.modPort l fun p => { p with reply := some r })
  if ex.work = .discovery then setGarbles l ex.addr 0 s
  else
    match ex.work.slot with
    | none => s
    | some n =>
      let s := s.modPort l fun p => { p with last := some (ex.addr, true) }
      let s :=
        if ex.detached then s
        else s.modSlot n fun v =>
          { v with misses := 0, garbleRun := 0
                   reach := if s.brokenLoop l then ex.side else v.reach }
      decideSuspects l ex.addr true s

/-! ## The commands -/

/-- The receiver a port reads outside an attempt (log 20), and the attempt's own in AWAITING (R112). -/
def State.readSide (s : State) (l : Fin 4) : Side :=
  let p := s.port l
  match p.xstate, p.exchange with
  | .awaiting, some ex => ex.side
  | _, _ => if s.brokenLoop l then p.rxSide else .primary

/-- The port of line `l` reads a receiver: its mode in force is SINGLE or PAIR PRIMARY, and the part is RUNNING or
STOPPING (R96, R116). An exchange that a split waits for runs on under PAIR PRIMARY, the odd line OFF or not (R98); which
receivers are then read is `State.hears`. -/
def State.listens (s : State) (l : Fin 4) : Bool :=
  s.working && (decide ((s.port l).applied = .single) || decide ((s.port l).applied = .pairPrimary))

/-- The receiver of a side of line `l` is read: the secondary's while the loop is in force. An odd line set OFF while its
pair's split waits reads its receiver no more (R98; log 57). -/
def State.hears (s : State) (l : Fin 4) (side : Side) : Bool :=
  s.listens l && (decide (side = .primary) || s.looped l)

/-- Where a port goes to RECEIVING from (R107). -/
def XState.origin : XState → Option From
  | .idle => some .idle
  | .awaiting => some .awaiting
  | .gap => some .gap
  | .sending | .receiving _ => none

/-- HEADER_MARK (R107, R108): the mark takes the port to RECEIVING; the reply timer stops with the time it has
left. -/
def execHeaderMark (l : Fin 4) (side : Side) (s : State) : Out :=
  scheduled s fun s =>
    match (s.port l).xstate.origin with
    | some o =>
      if s.hears l side && decide (s.readSide l = side) then
        s.modPort l fun p => { p with xstate := .receiving o, rxSide := side, idleTime := 0 }
      else s
    | none => s

/-- The slot a stale frame's address names counts it (R107). -/
def staleAt (l : Fin 4) (bytes : List Byte) (s : State) : State :=
  match s.slotAt l (frameAddress bytes) with
  | some n => count n (fun k => { k with stale := satInc k.stale }) s
  | none => s

/-- The port goes back to where a stale frame found it (R108, R110). -/
def afterStale (l : Fin 4) (o : From) (s : State) : State :=
  match o with
  | .awaiting => s.modPort l fun p => { p with xstate := .awaiting }
  | .idle | .gap => toFreshGap l s

/-- A frame judged at its end (R107, R108, R118). -/
def receiveFrame (l : Fin 4) (o : From) (bytes : List Byte) (ending : FrameEnd) (s : State) : State :=
  let side := (s.port l).rxSide
  let awaited := if o = .awaiting then (s.port l).exchange else none
  let received := fun k : LineCounters =>
    { k with received := if fromValidator bytes then satInc k.received else k.received }
  match judge bytes ending awaited, awaited with
  | .garbled, some ex => garbledReply l ex (countLine l side (fun k => { k with garbled := satInc k.garbled }) s)
  | .garbled, none => toFreshGap l (countLine l side (fun k => { k with garbled := satInc k.garbled }) s)
  | .good, some ex =>
    let s := countLine l side received s
    let r : Reply := ⟨byteOf bytes 2, frameContent bytes⟩
    if fits ex r.code r.content then goodReply l ex r s else garbledReply l ex s
  | _, _ =>
    let s := countLine l side (fun k => { received k with stale := satInc k.stale }) s
    afterStale l o (staleAt l bytes s)

/-- FRAME_RECEIVED (R107): a frame taken in RECEIVING has ended. It is judged while the receiver it comes from is read: that of
a line gone OFF is not (R96, R98; log 57). -/
def execFrameReceived (l : Fin 4) (bytes : List Byte) (ending : FrameEnd) (s : State) : Out :=
  scheduled s fun s =>
    match (s.port l).xstate with
    | .receiving o => if s.hears l (s.port l).rxSide then receiveFrame l o bytes ending s else s
    | _ => s

/-- REPLY_TIMEOUT (R108, R114): the attempt ends in a timeout. -/
def execReplyTimeout (l : Fin 4) (s : State) : Out :=
  scheduled s fun s =>
    match (s.port l).exchange with
    | some ex =>
      if s.working && decide ((s.port l).xstate = .awaiting) then
        let s := s.modPort l fun p => { idleFor p.replyLeft p with replyLeft := 0 }
        let s :=
          if ex.work = .discovery ∨ ex.silentPoll = true then s
          else countLine l ex.side (fun k => { k with timeouts := satInc k.timeouts }) s
        let s := if ex.work = .discovery then setGarbles l ex.addr 0 s else onSlot ex endGarbleRun s
        failAttempt l ex s
      else s
    | none => s

/-! ## Echoes (R111) -/

/-- Every reach side on the line becomes PRIMARY. -/
def reachPrimary (l : Fin 4) (s : State) : State :=
  forSlots (fun n s =>
    if s.lineOf n = some l then s.modSlot n fun v => { v with reach := .primary } else s) allSlots s

/-- The loop state changes (R111): both runs to 0, both line records, EVENTS.LINE. -/
def changeLoop (l : Fin 4) (broken : Bool) (s : State) : State :=
  let s := s.modPort l fun p => { p with broken := broken, missRun := 0, goodRun := 0 }
  let s := if broken then s else reachPrimary l s
  raiseAfter .line [lineRec l, lineRec (partner l)] s

/-- One frame's echo is judged (R111). -/
def echo (l : Fin 4) (seen : Bool) (s : State) : State :=
  let p := s.port l
  if p.broken then
    if seen then
      (if p.goodRun + 1 = 2 then changeLoop l false s
       else s.modPort l fun p => { p with goodRun := p.goodRun + 1 })
    else s.modPort l fun p => { p with goodRun := 0 }
  else if seen then s.modPort l fun p => { p with missRun := 0 }
  else if p.missRun + 1 = 2 then changeLoop l true s
  else s.modPort l fun p => { p with missRun := p.missRun + 1 }

/-- ECHO_JUDGED (R111): a frame sent on a pair's primary is judged by the copy the secondary received. -/
def execEchoJudged (l : Fin 4) (copy : List Byte) (inTime : Bool) (s : State) : Out :=
  scheduled s fun s =>
    let p := s.port l
    if s.working && p.echoDue && s.looped l then
      echo l (inTime && decide (copy = p.tx)) (s.modPort l fun p => { p with echoDue := false })
    else s

end Sys2Proof.Machine
end

