-- ==== Sys2Proof/Machine/Lines.lean ====
section
/-! DEFINITION. Line modes and profiles: SET LINE, SET PROFILE and LINE_MODE_CHANGE_APPLIED (chapter 5, sections 5.1
and 5.2; R94, R162, R166). -/

namespace Sys2Proof.Machine

/-! ## Served rates and groups (R73, R162) -/

/-- The pages a member of a dissolved group still has to be sent on its own (R162): the remaining common plan after its
own urgent part, or its own need while the common plan is not yet fixed. -/
def restAfterGroup (s : State) (g : Group) (n : Fin 24) (d : Delivery) : List Nat :=
  let left :=
    if g.planned then
      (match g.inFlight with
       | some p => g.plan.erase p
       | none => g.plan)
    else commonPlan s { g with members := [n] }
  left.filter fun p => !d.urgent.contains p

/-- A group is dissolved (R162): its members keep their deliveries and are served individually. -/
def dissolve (g : Group) (s : State) : State :=
  let s := forSlots (fun n s => s.modDelivery n fun d => { d with rest := restAfterGroup s g n d }) g.members s
  (endTurns (.group g.id) s).setGroups (s.sched.groups.filter fun h => decide (h.id ≠ g.id))

/-- The groups of a line are dissolved. -/
def dissolveLine (l : Fin 4) (s : State) : State :=
  (s.sched.groups.filter fun g => g.line = l).foldl (fun s g => dissolve g s) s

/-- Works out the served rates of a line's slots anew (R73). -/
def refreshLine (l : Fin 4) (s : State) : State := forSlots refreshServed (s.slotsOn l) s

/-- The profile rate of a line is no longer `old`: served rates, and its groups (R73, R162). -/
def rateChanged (old : Fin 7) (l : Fin 4) (s : State) : State :=
  let s := refreshLine l s
  if (s.profileOf l).rate = old then s else dissolveLine l s

/-! ## A mode takes effect (R98) -/

/-- The older of two edition numbers gives way (R98): the pair takes the secondary's mark when its own is none or
lower. -/
def mergeDue (pair second : Option (BitVec 16)) : Option (BitVec 16) :=
  match pair, second with
  | p, none => p
  | none, some b => some b
  | some a, some b => if a < b then some b else some a

/-- The secondary's arbiter state passes to the pair's arbiter on the primary (R98). A discovery visit due on the secondary, which
R98 does not name, is dropped with the rest of its arbiter and does not pass to the pair (log 69). -/
def passArbiter (l k : Fin 4) (s : State) : State :=
  let second := s.arbiter k
  let due := s.editions.timeDue[l] || s.editions.timeDue[k]
  let s := s.modArbiter l fun a => { a with activateDue := mergeDue a.activateDue second.activateDue }
  let s := s.modArbiter k fun _ => .cold
  let s := s.setGroups (s.sched.groups.map fun g => if g.line = k then { g with line := l } else g)
  { s with editions := { s.editions with timeDue := (s.editions.timeDue.set l due).set k false } }

/-- A pair starts (R98, R111): INTACT, both runs 0, every reach side PRIMARY, one arbiter, the shorter of the two lines'
idle times. A loop state kept from an earlier pair goes to INTACT with no EVENTS.LINE (log 54). -/
def startPair (l : Fin 4) (s : State) : State :=
  let s := s.modPort l fun p =>
    { p with forming := false, broken := false, missRun := 0, goodRun := 0, echoDue := false
             idleTime := min p.idleTime (s.port (partner l)).idleTime }
  passArbiter l (partner l) (reachPrimary l s)

/-- The odd line of a split pair: tag counter 0, discovery position 1 (R98). Its line has been idle no longer than the pair's,
whose frames went over both (R101; log 49). -/
def splitOdd (k : Fin 4) (s : State) : State :=
  let s := s.modPort k fun p => { p with tag := 0, idleTime := min p.idleTime (s.port (partner k)).idleTime }
  s.modLineRoster k fun r => { r with position := 1 }

/-- A port leaves OFF (R94, R98, R114): IDLE, discovery position 1, last-exchange mark clear; what idle its line had while
it was not read does not count (log 49). -/
def leaveOff (l : Fin 4) (s : State) : State :=
  (s.modPort l fun p => { p with last := none, idleTime := 0 }).modLineRoster l fun r => { r with position := 1 }

/-- The recorded mode of one port comes into force. -/
def applyPort (l : Fin 4) (s : State) : State :=
  let old := (s.port l).applied
  let s := if old = .off then leaveOff l s else s
  let s := if old = .pairSecondary then splitOdd l s else s
  s.modPort l fun p => { p with applied := p.mode }

/-- The ports a change of mode on line `l` waits for: both of a pair that forms or splits (R98). -/
def State.modeLines (s : State) (l : Fin 4) : List (Fin 4) :=
  let pairMode (m : LineMode) : Bool := m = .pairPrimary || m = .pairSecondary
  let k := partner l
  if pairMode (s.port l).mode || pairMode (s.port l).applied || pairMode (s.port k).mode ||
      pairMode (s.port k).applied then [evenLine l, partner (evenLine l)]
  else [l]

/-- A change of mode of line `l` waits to take effect, or its pair to start (R98). -/
def State.modeWaits (s : State) (l : Fin 4) : Bool :=
  decide ((s.port l).applied ≠ (s.port l).mode) || (s.port (evenLine l)).forming

/-- The change of mode of line `l` can take effect: every port concerned is IDLE with no exchange. -/
def State.modeReady (s : State) (l : Fin 4) : Bool :=
  (s.modeLines l).all fun k => decide ((s.port k).xstate = .idle) && (s.port k).exchange.isNone

/-- The recorded modes of the lines concerned come into force, and a pair accepted and not yet started starts (R98). -/
def applyModes (l : Fin 4) (s : State) : State :=
  let ls := s.modeLines l
  let was := s.looped (evenLine l)
  let s := forLines applyPort (ls.filter fun k => decide ((s.port k).applied ≠ (s.port k).mode)) s
  if s.looped (evenLine l) && (!was || (s.port (evenLine l)).forming) then startPair (evenLine l) s else s

/-- LINE_MODE_CHANGE_APPLIED (R98): a change of mode that waited for an exchange takes effect at IDLE. -/
def execLineModeChangeApplied (l : Fin 4) (s : State) : Out :=
  scheduled s fun s =>
    if s.working && s.modeWaits l && s.modeReady l then applyModes l s else s

/-! ## SET LINE (R94, R97, R98) -/

/-- Forming a pair would merge two equal bindings (R94). -/
def State.pairConflict (s : State) (l k : Fin 4) : Bool :=
  allSlots.any fun n => allSlots.any fun m =>
    match (s.slot n).binding, (s.slot m).binding with
    | some (a, d), some (b, e) => decide (a = l) && decide (b = k) && decide (d = e)
    | _, _ => false

/-- The outcome of a SET LINE that is not accepted (R97). -/
def refuseLine (s : State) (line mode profile : Nat) : Option Byte :=
  match lineOfNat line with
  | none => some Outcome.badParam
  | some l =>
    if 2 < mode ∨ 3 < profile then some Outcome.badParam
    else if mode = 2 ∧ l.val % 2 = 1 then some Outcome.badParam
    else if mode = 2 ∧ s.paired l = false ∧ s.pairConflict l (partner l) = true then some Outcome.wrongState
    else none

/-- The lines a SET LINE acts on (R97). -/
def State.namedLines (s : State) (l : Fin 4) (mode : Nat) : List (Fin 4) :=
  if s.paired l || mode = 2 then [evenLine l, partner (evenLine l)] else [l]

/-- The mode a SET LINE gives a line. -/
def modeFor (mode : Nat) (l : Fin 4) : LineMode :=
  if mode = 0 then .off else if mode = 1 then .single else if l.val % 2 = 0 then .pairPrimary else .pairSecondary

/-- Mode and profile are recorded and the clash list is cleared (R91, R98). No pair waits to start under another mode. -/
def recordLine (mode : Nat) (profile : Fin 4) (l : Fin 4) (s : State) : State :=
  let s := s.modPort l fun p =>
    { p with mode := modeFor mode l, profile := profile, forming := decide (mode = 2) && p.forming }
  s.modLineRoster l fun r => { r with clash := [], garbles := List.replicate 31 0 }

/-- A frame on the wire is finished as one that draws no result; any other exchange ends at once, a reply it holds with it
(R98; log 57). -/
def silencePort (l : Fin 4) (s : State) : State :=
  s.modPort l fun p =>
    match p.xstate, p.exchange with
    | .sending, some ex =>
      { p with reply := none, exchange := some { ex with
          noReply := true, twice := false, withdrawn := true, detached := true, after := .nothing } }
    | _, _ => { p with xstate := .idle, exchange := none, reply := none }

/-- A slot of a line going OFF (R94): IDENTIFYING, BEHIND and CURRENT go SILENT without a miss. -/
def lineOffSlot (n : Fin 24) (s : State) : State :=
  match (s.slot n).state with
  | .identifying | .behind | .current => toSilent n s
  | _ => s

/-- The receiver of line `l` is read no more (R96, R98). A frame that the even port of a loop takes from it is lost unjudged and
counted nowhere: the port goes back to AWAITING with the time it had left, or to a gap (log 57). -/
def dropReception (l : Fin 4) (s : State) : State :=
  let k := partner l
  match (s.port k).xstate with
  | .receiving o => if s.looped k && decide ((s.port k).rxSide = .secondary) then afterStale k o s else s
  | _ => s

/-- Line `l` goes OFF (R94, R98, R141, R166): its port drives and reads no more, its slots go SILENT, deliveries and groups end,
its marks clear. -/
def goOff (slots : List (Fin 24)) (l : Fin 4) (s : State) : State :=
  let s := forSlots lineOffSlot slots (silencePort l (dropReception l s))
  let gone := s.sched.groups.filter fun g => g.line = l
  let s := gone.foldl (fun s g => endTurns (.group g.id) s) s
  let s := s.setGroups (s.sched.groups.filter fun g => decide (g.line ≠ l))
  let s := s.modArbiter l fun a => { a with turn := none, activateDue := none, discoveryDue := false }
  let s : State := { s with editions := { s.editions with timeDue := s.editions.timeDue.set l false } }
  let s := if (s.port l).applied = .pairSecondary then splitOdd l s else s
  s.modPort l fun p =>
    { p with applied := .off, echoDue := false }

/-- An exchange handed over whose frame has not started is taken back (log 19). -/
def takeBackUnstarted (l : Fin 4) (s : State) : State :=
  s.modPort l fun p =>
    match p.exchange with
    | some ex => if ex.started then p else { p with exchange := none }
    | none => p

/-- A pair is accepted on its even line `l`: it waits to start, and slots bound to the secondary are rebound to the primary
(R94, R98). -/
def rebindPair (l : Fin 4) (s : State) : State :=
  let k := partner l
  let s := forSlots (fun n s => s.modSlot n fun v =>
    { v with binding := v.binding.map fun b => if b.1 = k then (l, b.2) else b }) allSlots s
  reachPrimary l (s.modPort l fun p => { p with forming := true })

/-- An accepted SET LINE (R98). A clash list it empties is a change of the list, which raises EVENTS.LINE (R91, R115). A pair
accepted and not yet started is not split by SINGLE: its odd line keeps tag counter and position. A pair accepted again while
its split waits is formed anew (log 57). -/
def acceptLine (l : Fin 4) (mode : Nat) (profile : Fin 4) (s : State) : State :=
  let ls := s.namedLines l mode
  let pairing := decide (mode = 2) && !s.paired l
  let old := fun k : Fin 4 => (s.profileOf k).rate
  let slots := ls.flatMap s.slotsOn
  let listed := ls.any fun k => !(s.lineRoster k).clash.isEmpty
  let s := forLines (recordLine mode profile) ls s
  let s := if listed then raiseAfter .line (ls.map lineRec) s else s
  let s := if pairing then rebindPair l s else s
  let s := forLines (fun k s => rateChanged (old k) k s) ls s
  if mode = 0 then forLines (goOff slots) ls s
  else
    let s := forLines (fun k s =>
      if s.modeWaits k then takeBackUnstarted k s else s) ls s
    if ls.any s.modeWaits && s.modeReady l then applyModes l s
    else s

/-- The answer to SET LINE (R97). -/
def setLine (r : Request) (s : State) : State × Result :=
  match refuseLine s (r.param 8 1) (r.param 9 1) (r.param 10 1), lineOfNat (r.param 8 1), lineOfNat (r.param 10 1) with
  | none, some l, some profile => (acceptLine l (r.param 9 1) profile s, .plain Outcome.ok)
  | some o, _, _ => (s, .plain o)
  | none, _, _ => (s, .plain Outcome.badParam)

/-- SET_LINE (R97, R98): completes at once. -/
def execSetLine (t : Strip) (s : State) : Out := scheduled s (atOnce t Kind.setLine setLine)

/-! ## SET PROFILE (R99, R100) -/

/-- A value clamped into a range. -/
def clampTo (lo hi v : Nat) : Nat := max lo (min hi v)

/-- The profile the fields of a SET PROFILE give, and how many a clamp changed (R99). -/
def readProfile (r : Request) (rate : Fin 7) : Profile × Nat :=
  let raw := (List.range 6).map fun i => r.param (10 + i) 1
  let p : Profile :=
    { rate := rate
      timeout := clampTo 1 255 (r.param 10 1)
      gap := clampTo 2 32 (r.param 11 1)
      retries := min 3 (r.param 12 1)
      missLimit := clampTo 1 15 (r.param 13 1)
      keepalive := clampTo 1 240 (r.param 14 1)
      quarantine := clampTo 1 15 (r.param 15 1)
      streamed := decide (r.param 16 1 = 1)
      group := decide (r.param 17 1 ≠ 0) }
  let kept := [p.timeout, p.gap, p.retries, p.missLimit, p.keepalive, p.quarantine]
  (p, ((raw.zip kept).filter fun x => decide (x.1 ≠ x.2)).length)

/-- The lines whose profile index is `i`. -/
def State.linesOf (s : State) (i : Fin 4) : List (Fin 4) := allLines.filter fun l => (s.port l).profile = i

/-- A profile is stored; a new rate reaches its lines at once (R100). -/
def storeProfile (i : Fin 4) (p : Profile) (s : State) : State :=
  let old := (s.profiles[i]).rate
  let s := { s with profiles := s.profiles.set i p }
  forLines (rateChanged old) (s.linesOf i) s

/-- The answer to SET PROFILE (R99). -/
def setProfile (r : Request) (s : State) : State × Result :=
  if h : r.param 9 1 < 7 then
    match lineOfNat (r.param 8 1) with
    | some i =>
      if 1 < r.param 16 1 then (s, .plain Outcome.badParam)
      else
        let (p, k) := readProfile r ⟨r.param 9 1, h⟩
        (storeProfile i p s, ⟨Outcome.ok, decide (k ≠ 0), k⟩)
    | none => (s, .plain Outcome.badParam)
  else (s, .plain Outcome.badParam)

/-- SET_PROFILE (R99): completes at once. -/
def execSetProfile (t : Strip) (s : State) : Out := scheduled s (atOnce t Kind.setProfile setProfile)

end Sys2Proof.Machine
end

