-- ==== Sys2Proof/Machine/Change.lean ====
section
/-! DEFINITION. The change engine's jobs on the live image: FORMAT IMAGE, APPLY CHANGES and the purge job (chapters 1
and 2). -/

namespace Sys2Proof.Machine

/-! ## The image and its parameters -/

/-- The live image. -/
def State.liveSurface (s : State) : Surface := ⟨s.imageBase s.change.region, s.change.pages, s.change.seed⟩

/-- Live count of a page in the stamp table. -/
def liveCount (table : List StampRec) (p : Nat) : Nat := ((table[p]?).map (·.live)).getD 0

/-- Writes a live count into the stamp table. -/
def setLive (table : List StampRec) (p k : Nat) : List StampRec :=
  match table[p]? with
  | some r => table.set p { r with live := k }
  | none => table

/-- The service day, none while the clock is unset (R25). -/
def State.serviceDay? (s : State) : Option Nat := if s.clock.isSet then some s.clock.serviceDay else none

/-- The G limit has been reached (R11). -/
def State.spent (s : State) : Bool := s.change.gen = Config.spentG

/-- Page count, seed and identity parameters of FORMAT IMAGE and REBUILD IMAGE (R17, R39). -/
def Request.pageCount (r : Request) : Nat := r.param 8 2

/-- The seed parameter. -/
def Request.seed (r : Request) : Word := BitVec.ofNat 32 (r.param 10 4)

/-- The identity parameter. -/
def Request.identity (r : Request) : Word := BitVec.ofNat 32 (r.param 14 4)

/-- A page count outside 64-4096. -/
def Request.badPageCount (r : Request) : Bool := decide (r.pageCount < 64) || decide (4096 < r.pageCount)

/-! ## A new image goes live (R18, R19, R44) -/

/-- Ends the groups of a class, their unopened members with them (R164, R166). -/
def endGroups (c : Cls) (s : State) : State :=
  let gone := s.sched.groups.filter fun g => g.cls = c
  let s := gone.foldl (fun s g => endTurns (.group g.id) s) s
  s.setGroups (s.sched.groups.filter fun g => g.cls ≠ c)

/-- H above 1 under the new identity is recorded as 0 (R19, R20). -/
def lowerH (s : State) : State :=
  forSlots (fun n s =>
    let v := s.slot n
    if v.heldId = s.change.identity ∧ 1 < v.heldH then s.modSlot n fun v => { v with heldH := 0 } else s) allSlots s

/-- The effects of a switch or swap on the other blocks (R19, R73, R173). -/
def switchEffects (s : State) : State :=
  let s := endGroups .routine (abandonWhere (fun d => d.mode.isBlocklist) s)
  reevaluateAll (forSlots refreshIncapable allSlots (lowerH (clearRepairs s)))

/-! ## FORMAT IMAGE (R17, R18) -/

/-- The outcome of a FORMAT IMAGE that is not accepted (R17). -/
def refuseFormat (r : Request) (c : ChangeEngine) : Option Byte :=
  if r.badPageCount then some Outcome.badParam
  else if r.identity = c.identity then some Outcome.wrongState
  else if c.pages ≠ 0 ∧ r.identity = 0 then some Outcome.badParam
  else none

/-- The region a format writes (R18). -/
def State.formatTarget (s : State) : Region := if s.change.pages = 0 then .a else s.change.region.other

/-- The stamp table of a fresh image (R18). -/
def voidTable (identity : Word) (pages : Nat) : List StampRec :=
  (List.range pages).map fun n => ⟨1, 0, pageCrcField (voidPage n 1 identity), 0⟩

/-- The sum of the page CRCs of a stamp table, modulo 2^32 (R13). -/
def digestOf (table : List StampRec) : Word := table.foldl (fun d r => d + r.crc) 0

/-- An accepted FORMAT IMAGE, its first `written` pages written (R18; log 11). -/
def startFormat (t : Strip) (r : Request) (written : Nat) (s : State) : State :=
  let target := s.formatTarget
  { s with
    mem := writeVoids s.mem (s.imageBase target) 0 r.identity (min written r.pageCount)
    change := { s.change with
      format := some { strip := t, target := target, pages := r.pageCount, seed := r.seed,
                       identity := r.identity, table := voidTable r.identity r.pageCount } } }

/-- FORMAT_IMAGE (R17, R18): the request is taken up and checked; an accepted one writes its void pages. -/
def execFormatImage (t : Strip) (s : State) : Out :=
  scheduled s fun s =>
    if s.mayTake t .change Kind.formatImage then
      let r := s.request t
      let s := takeUp t .change s
      match refuseFormat r s.change with
      | some o => completeRequest t (.plain o) s
      | none => startFormat t r r.pageCount s
    else s

/-- The switch of a format (R18). -/
def switchTo (f : Format) (s : State) : State :=
  { s with change := { s.change with
      region := f.target, identity := f.identity, pages := f.pages, seed := f.seed, gen := 1
      table := f.table, digest := digestOf f.table, purgeSkipped := false, format := none } }

/-- FORMAT_SWITCH (R18, R19): the new image goes live; the outcome follows the summary record. -/
def execFormatSwitch (s : State) : Out :=
  scheduled s fun s =>
    match s.change.format with
    | some f =>
      if s.working then
        completeAfterSummary f.strip (.plain Outcome.ok) (switchEffects (switchTo f s))
      else s
    | none => s

/-! ## APPLY CHANGES (R22 to R31, R42) -/

/-- The outcome of an APPLY CHANGES that is not accepted (R22). -/
def refuseBatch (list n : Nat) (c : ChangeEngine) : Option Byte :=
  if n < 1 ∨ 4096 < n ∨ list % 16 ≠ 0 ∨ 2 ^ 32 < list + 16 * n then some Outcome.badParam
  else if c.pages = 0 then some Outcome.wrongState
  else if c.gen = Config.spentG then some Outcome.spent
  else none

/-- Strip `t` holds an APPLY CHANGES in the change engine's holder. -/
def State.holdsApply (s : State) (t : Strip) : Bool :=
  match s.heldRequest t with
  | some r => decide (r.kind = Kind.applyChanges)
  | none => false

/-- The rebuild's last slice ended with a priority APPLY CHANGES in its holder (R42). -/
def State.looked (s : State) : Bool :=
  match s.change.rebuild with
  | some r => r.look
  | none => false

/-- A rebuild stands between two slices and gives way to the priority APPLY CHANGES it found there (R42). -/
def State.yields (s : State) : Bool := s.change.batch.isNone && s.looked && s.holdsApply .priority

/-- The change engine may take up the APPLY CHANGES of a strip (R33, R34, R42). -/
def State.mayApply (s : State) (t : Strip) : Bool :=
  s.mayTake t .change Kind.applyChanges || (decide (t = .priority) && s.working && s.yields)

/-- The rebuild has given way: its next slice follows the batch (R42). -/
def resumeRebuild (s : State) : State :=
  { s with change := { s.change with rebuild := s.change.rebuild.map fun r => { r with look := false } } }

/-- APPLY_CHANGES (R22): the request is taken up and checked; an accepted one starts its batch. -/
def execApplyChanges (t : Strip) (s : State) : Out :=
  scheduled s fun s =>
    if s.mayApply t then
      let r := s.request t
      let list := r.param 8 4
      let n := r.param 12 2
      let s := resumeRebuild (takeUp t .change s)
      match refuseBatch list n s.change with
      | some o => completeRequest t (.plain o) s
      | none => { s with change := { s.change with batch := some ⟨t, list, n, 0, 0, false, []⟩ } }
    else s

/-- The new image of a rebuild, and the working table's live counts. -/
def State.newSurface (s : State) (r : Rebuild) : Surface := ⟨s.imageBase s.change.region.other, r.pages, r.seed⟩

/-- Live count of a page in the working table. -/
def workCount (table : List WorkRec) (p : Nat) : Nat := ((table[p]?).map (·.live)).getD 0

/-- A new page took an entry or lost one: its working record, and, with `header` and once the page has been finished, its
header and page CRC (R42, R43). -/
def touchNew (header : Bool) (p live : Nat) (hot : Bool) (s : State) (r : Rebuild) : State :=
  match r.table[p]? with
  | none => s
  | some w =>
    let base := (s.newSurface r).base
    let done := header && decide (r.phase = .finishing ∧ p < r.finished)
    let w : WorkRec :=
      { live := live, hot := w.hot || hot,
        crc := if done then headerCrc s.mem base p live 1 r.identity else w.crc }
    { s with
      mem := if done then writeHeader s.mem base p live 1 r.identity else s.mem
      change := { s.change with rebuild := some { r with table := r.table.set p w } } }

/-- An entry added to or removed from the new image by a mirrored item (R42, R43); without `header` up to the header write of
a page already finished. -/
def mirror (header : Bool) (i : Item) (s : State) : State :=
  match s.change.rebuild with
  | none => s
  | some r =>
    let img := s.newSurface r
    let a :=
      if i.operation = 1 then applyAdd s.mem img (workCount r.table) i.entry
      else applyRemove s.mem img (workCount r.table) i.entry.key
    let s := { s with mem := a.mem }
    match a.page with
    | some (p, live) => touchNew header p live true s r
    | none =>
      if a.outcome = .full then
        { s with change := { s.change with rebuild := some { r with unplaced := r.unplaced + 1 } } }
      else s

/-- The batch's next item as read from its list (R23). -/
def State.nextItem (s : State) (b : Batch) : Item := parseItem (Memory.readBytes s.mem (b.list + 16 * b.next) 16)

/-- What the next item does to the live image (R24 to R28). -/
def State.applied (s : State) (b : Batch) : Applied :=
  applyItem s.mem s.liveSurface (liveCount s.change.table) s.serviceDay? (s.nextItem b)

/-- The next item's effect on the live image and the counters (R23 to R29, R35). -/
def applyLive (b : Batch) (s : State) : State :=
  let a := s.applied b
  let refused := if a.outcome = .full then satInc s.change.refused else s.change.refused
  let s := { s with mem := a.mem, change := { s.change with refused := refused } }
  match a.page with
  | some (p, live) =>
    { s with change := { s.change with
        table := setLive s.change.table p live, changing := true
        batch := some { b with changed := insertPage p b.changed } } }
  | none => s

/-- The next item acts on a page already copied, so that it is mirrored (R42). -/
def State.mirrors (s : State) (b : Batch) : Bool :=
  match (s.applied b).page with
  | some (p, _) => decide (p < s.change.copyCursor)
  | none => false

/-- The next item's effect on both images and the counters (R23 to R29, R35, R42), its outcome byte not yet written. -/
def applyNext (b : Batch) (s : State) : State × ItemOutcome :=
  (if s.mirrors b then mirror true (s.nextItem b) (applyLive b s) else applyLive b s, (s.applied b).outcome)

/-- The next item is counted, its outcome byte written (R23, R31). -/
def itemDone (o : ItemOutcome) (s : State) : State :=
  match s.change.batch with
  | none => s
  | some b =>
    { s with
      mem := Memory.write s.mem (b.list + 16 * b.next + 11) o.code
      change := { s.change with
        batch := some { b with
          next := b.next + 1
          faulty := if o.faulty then b.faulty + 1 else b.faulty
          anyFull := b.anyFull || decide (o = .full) } } }

/-- The batch's result (R31). -/
def Batch.result (b : Batch) : Result :=
  if b.faulty = 0 then .plain Outcome.ok else ⟨Outcome.partialBatch, false, b.faulty⟩

/-- The batch ends (R31): the summary is rewritten if a page changed or an item was FULL, SATURATED follows it, and
then the outcome, with which the engine is free for its next job (log 48). -/
def endBatch (b : Batch) (s : State) : State :=
  let s := { s with change := { s.change with batch := none } }
  if b.changed = [] ∧ b.anyFull = false then completeRequest b.strip b.result s
  else completeAfterSummary b.strip b.result (if b.anyFull then raiseAfter .saturated [summaryRec] s else s)

/-- CHANGE_ITEM (R23): the next item of the running batch is read, applied and answered. The last item of a batch that
changed no page ends it (R29). -/
def execChangeItem (s : State) : Out :=
  scheduled s fun s =>
    match s.change.batch with
    | some b =>
      if s.working && decide (b.next < b.count) then
        let (s, o) := applyNext b s
        let s := itemDone o s
        match s.change.batch with
        | some b => if b.next = b.count ∧ b.changed = [] then endBatch b s else s
        | none => s
      else s
    | none => s

/-- The header of a changed page is brought up to date (R30): stamp, hot stamp, header, CRC, digest. -/
def bringUp (urgent : Bool) (p : Nat) (s : State) : State :=
  let c := s.change
  match c.table[p]? with
  | none => s
  | some r =>
    let base := s.imageBase c.region
    let crc := headerCrc s.mem base p r.live c.gen c.identity
    { s with
      mem := writeHeader s.mem base p r.live c.gen c.identity
      change := { c with
        table := c.table.set p { r with stamp := c.gen, hot := if urgent then c.gen else r.hot, crc := crc }
        digest := c.digest - r.crc + crc } }

/-- G rises by 1 for a job that changed a page (R30, R37). -/
def raiseG (s : State) : State := { s with change := { s.change with gen := s.change.gen + 1 } }

/-- Every changed page is brought up to date, in ascending order. -/
def bringUpAll (urgent : Bool) (ps : List Nat) (s : State) : State :=
  ps.foldl (fun s p => bringUp urgent p s) s

/-- A job's changes are complete (R30, R32, R35, R175): the image stops changing, held CHECK REPORTs are compared,
and the roster re-evaluates its slots. -/
def imageSettled (s : State) : State :=
  reevaluateAll (compareHeld { s with change := { s.change with changing := false } })

/-- BATCH_END (R30 to R32): the end-of-batch work of a batch that changed a page. -/
def execBatchEnd (s : State) : Out :=
  scheduled s fun s =>
    match s.change.batch with
    | some b =>
      if s.working && decide (b.next = b.count) && decide (b.changed ≠ []) then
        let urgent := decide (b.strip = .priority)
        let s := imageSettled (bringUpAll urgent b.changed (raiseG s))
        endBatch b (if urgent then insertUrgent b.changed s else s)
      else s
    | none => s

/-! ## The purge job (R33, R34, R36 to R38) -/

/-- The queued purge job may be taken up: the engine is idle, and no priority request waits before it. -/
def State.mayPurge (s : State) : Bool :=
  s.working && s.changeIdle &&
  (match s.change.purge with
   | .empty => false
   | .queued free => free || !s.waits .priority .change)

/-- An entry expired before service day `sd` (R37). -/
def Entry.expiredBefore (sd : Nat) (e : Entry) : Bool := decide (e.expiry ≠ 0) && decide (e.expiry < sd)

/-- One page of a purge (R37): the page joins the changed pages when an entry leaves it. -/
def purgePage (sd p : Nat) (x : State × List Nat) : State × List Nat :=
  let (s, changed) := x
  let base := s.imageBase s.change.region
  let es := readEntries s.mem base p (liveCount s.change.table p)
  let left := es.filter fun e => !e.expiredBefore sd
  if left.length = es.length then x
  else
    ({ s with
        mem := writeEntries s.mem base p left
        change := { s.change with table := setLive s.change.table p left.length, changing := true } },
      changed ++ [p])

/-- The first `visited` pages of a purge (R37), and the pages changed. -/
def purgePages (sd visited : Nat) (s : State) : State × List Nat :=
  (List.range (min visited s.change.pages)).foldl (fun x p => purgePage sd p x) (s, [])

/-- The purge job leaves its queue as it is taken up. -/
def takePurge (s : State) : State :=
  let s := boundStrip .routine .change (boundStrip .priority .change s)
  { s with change := { s.change with purge := .empty } }

/-- A purge job taken up (R37, R38). -/
def purge (s : State) : State :=
  let s := takePurge s
  if s.spent then want summaryRec { s with change := { s.change with purgeSkipped := true } }
  else
    let (s, changed) := purgePages s.clock.serviceDay s.change.pages s
    match changed with
    | [] => s
    | _ => want summaryRec (imageSettled (bringUpAll false changed (raiseG s)))

/-- PURGE_JOB (R37, R38): the queued purge job is taken up and runs to its end. -/
def execPurgeJob (s : State) : Out := scheduled s fun s => if s.mayPurge then purge s else s

/-- A rise of the service day queues a purge job (R36). -/
def queuePurge (s : State) : State :=
  if s.change.pages = 0 then s
  else
    match s.change.purge with
    | .empty => { s with change := { s.change with purge := .queued (s.arrivesFree .change) } }
    | .queued _ => s

end Sys2Proof.Machine
end

