-- ==== Sys2Proof/Machine/Rebuild.lean ====
section
/-! DEFINITION. REBUILD IMAGE: its slices, its swap and its failure (chapter 2, section 2.7). -/

namespace Sys2Proof.Machine

/-- The outcome of a REBUILD IMAGE that is not accepted (R39). -/
def refuseRebuild (r : Request) (c : ChangeEngine) : Option Byte :=
  if r.badPageCount ∨ r.identity = 0 then some Outcome.badParam
  else if c.pages = 0 ∨ r.identity = c.identity then some Outcome.wrongState
  else none

/-- An accepted rebuild at the start of CLEARING (R40). -/
def startRebuild (t : Strip) (r : Request) (s : State) : State :=
  { s with change := { s.change with
      copyCursor := 0
      rebuild := some { strip := t, phase := .clearing, pages := r.pageCount, seed := r.seed,
                        identity := r.identity, startG := s.change.gen, cleared := 0, finished := 0,
                        unplaced := 0, table := List.replicate r.pageCount ⟨0, 0, false⟩, look := false } } }

/-- REBUILD_IMAGE (R39, R40): the request is taken up and checked; an accepted one starts its rebuild. -/
def execRebuildImage (t : Strip) (s : State) : Out :=
  scheduled s fun s =>
    if s.mayTake t .change Kind.rebuildImage then
      let r := s.request t
      let s := takeUp t .change s
      match refuseRebuild r s.change with
      | some o => completeRequest t (.plain o) s
      | none => want summaryRec (startRebuild t r s)
    else s

/-- Pages of one slice (R41). -/
def slicePages : Nat := 64

/-- Replaces the rebuild in progress. -/
def setRebuild (r : Rebuild) (s : State) : State := { s with change := { s.change with rebuild := some r } }

/-- Clears the first `k` pages of a CLEARING slice (R41). -/
def clearPages (k : Nat) (r : Rebuild) (s : State) : State :=
  { s with mem := writeVoids s.mem (s.newSurface r).base r.cleared r.identity k }

/-- A CLEARING slice. -/
def clearSlice (r : Rebuild) (s : State) : State :=
  let k := min slicePages (r.pages - r.cleared)
  let s := clearPages k r s
  setRebuild { r with
    cleared := r.cleared + k
    phase := if r.cleared + k = r.pages then .copying else .clearing } s

/-- Places one copied entry in the new image (R41, R43). -/
def placeCopied (hot : Bool) (s : State) (e : Entry) : State :=
  match s.change.rebuild with
  | none => s
  | some r =>
    let img := s.newSurface r
    match (probeWindow e.key img.pages img.seed).find? (fun p => workCount r.table p < pageRoom) with
    | some p =>
      let live := workCount r.table p
      let es := readEntries s.mem img.base p live
      touchNew true p (live + 1) hot { s with mem := writeEntries s.mem img.base p (insertEntry e es) } r
    | none => setRebuild { r with unplaced := r.unplaced + 1 } s

/-- Copies one old page (R41): its live entries in ascending key order. -/
def copyPage (p : Nat) (s : State) : State :=
  match s.change.rebuild, s.change.table[p]? with
  | some r, some rec =>
    (readEntries s.mem (s.imageBase s.change.region) p rec.live).foldl
      (placeCopied (decide (r.startG < rec.hot))) s
  | _, _ => s

/-- Copies `k` old pages from the copy cursor on. -/
def copyPages (k : Nat) (s : State) : State :=
  (List.range k).foldl (fun s i => copyPage (s.change.copyCursor + i) s) s

/-- The rebuild fails (R45): the live image stays, and the outcome follows the summary record. -/
def failRebuild (r : Rebuild) (s : State) : State :=
  completeAfterSummary r.strip ⟨Outcome.notPlaced, false, min r.unplaced 65535⟩
    { s with change := { s.change with rebuild := none } }

/-- A COPYING slice. A rebuild that could not place an entry fails at the end of the phase. -/
def copySlice (s : State) : State :=
  let k := min slicePages (s.change.pages - s.change.copyCursor)
  let s := copyPages k s
  let s := { s with change := { s.change with copyCursor := s.change.copyCursor + k } }
  match s.change.rebuild with
  | none => s
  | some r =>
    if s.change.copyCursor < s.change.pages then s
    else if r.unplaced ≠ 0 then failRebuild r s
    else setRebuild { r with phase := .finishing } s

/-- Finishes one new page (R41): its header, and its CRC in the working table. -/
def finishPage (p : Nat) (s : State) : State :=
  match s.change.rebuild with
  | none => s
  | some r =>
    match r.table[p]? with
    | none => s
    | some w =>
      let base := (s.newSurface r).base
      setRebuild { r with table := r.table.set p { w with crc := headerCrc s.mem base p w.live 1 r.identity } }
        { s with mem := writeHeader s.mem base p w.live 1 r.identity }

/-- Finishes `k` new pages from `first` on. -/
def finishPages (first k : Nat) (s : State) : State :=
  (List.range k).foldl (fun s i => finishPage (first + i) s) s

/-- The stamp table a rebuild installs (R44): stamp 1, hot stamp from the hot mark. -/
def installedTable (table : List WorkRec) : List StampRec :=
  table.map fun w => ⟨1, if w.hot then 1 else 0, w.crc, w.live⟩

/-- The swap (R44). -/
def swapTo (r : Rebuild) (s : State) : State :=
  { s with change := { s.change with
      region := s.change.region.other, identity := r.identity, pages := r.pages, seed := r.seed, gen := 1
      table := installedTable r.table, digest := digestOf (installedTable r.table)
      purgeSkipped := false, rebuild := none } }

/-- A FINISHING slice. After the last page the rebuild swaps or fails (R44, R45), and only then comes the slice's look at the
priority-strip holder (R42): a batch that waits there runs on the new image (log 67). -/
def finishSlice (r : Rebuild) (s : State) : State :=
  let k := min slicePages (r.pages - r.finished)
  let s := finishPages r.finished k s
  match s.change.rebuild with
  | none => s
  | some r =>
    let r := { r with finished := r.finished + k }
    if r.finished < r.pages then setRebuild r s
    else if r.unplaced ≠ 0 then failRebuild r s
    else completeAfterSummary r.strip (.plain Outcome.ok) (switchEffects (swapTo r s))

/-- The next slice of a rebuild, by its phase (R41). -/
def nextSlice (r : Rebuild) (s : State) : State :=
  match r.phase with
  | .clearing => clearSlice r s
  | .copying => copySlice s
  | .finishing => finishSlice r s

/-- The look at the priority-strip holder at the end of a slice (R42). After the slice that swapped or failed there is no rebuild
left to give way (log 67). -/
def lookAround (s : State) : State :=
  { s with change := { s.change with
      rebuild := s.change.rebuild.map fun r => { r with look := s.holdsApply .priority } } }

/-- The next slice may run (R41, R42): the engine runs no batch, has handed over the outcome of the last, and does not give
way to one. -/
def State.sliceReady (s : State) : Bool :=
  s.working && s.change.batch.isNone && !s.handingOver .change && !s.yields

/-- REBUILD_SLICE (R41 to R45): the next slice, the look at the priority-strip holder, and the summary record. -/
def execRebuildSlice (s : State) : Out :=
  scheduled s fun s =>
    match s.change.rebuild with
    | some r => if s.sliceReady then want summaryRec (lookAround (nextSlice r s)) else s
    | none => s

end Sys2Proof.Machine
end

