-- ==== Sys2Proof/Machine/Requests.lean ====
section
/-! DEFINITION. The roster requests of the strips, each acted on at once (chapter 4, section 4.3; R191). -/

namespace Sys2Proof.Machine

/-- PIN_SLOT (R84). -/
def execPinSlot (t : Strip) (s : State) : Out := scheduled s (atOnce t Kind.pinSlot pinSlot)

/-- FREE_SLOT (R85). -/
def execFreeSlot (t : Strip) (s : State) : Out := scheduled s (atOnce t Kind.freeSlot freeSlot)

/-- RELEASE_SLOT (R86). -/
def execReleaseSlot (t : Strip) (s : State) : Out := scheduled s (atOnce t Kind.releaseSlot releaseSlot)

/-- RESYNC_SLOT (R87). -/
def execResyncSlot (t : Strip) (s : State) : Out := scheduled s (atOnce t Kind.resyncSlot resyncSlot)

/-- CLEAR_COUNTERS (R88, R114): the outcome comes before the rewrites (log 71). -/
def execClearCounters (t : Strip) (s : State) : Out := scheduled s (atOnce t Kind.clearCounters clearCounters)

end Sys2Proof.Machine
end

