-- ==== Sys2Proof/Machine/Editions.lean ====
section
/-! DEFINITION. The edition manager and the service clock: loads, rescheduling, withdrawal, activation, the at-risk
warning, minute ticks and SET CLOCK (chapter 3). -/

namespace Sys2Proof.Machine

/-! ## Edition slots -/

/-- Replaces the PENDING slot. -/
def setPending (p : PendingSlot) (s : State) : State := { s with editions := { s.editions with pending := p } }

/-- Replaces the load in progress. -/
def setLoad (l : Option Load) (s : State) : State := { s with editions := { s.editions with load := l } }

/-- The roster takes notice of changed edition slots (R73, R76). -/
def editionsChanged (s : State) : State := reevaluateAll (forSlots refreshIncapable allSlots s)

/-- The PENDING slot becomes EMPTY, keeping the region it names (R53, R58). -/
def emptyPending (s : State) : State := setPending (.empty s.editions.pending.region) s

/-- A pending edition is withdrawn (R58, R167). -/
def withdrawPending (s : State) : State :=
  let s := want summaryRec (emptyPending s)
  editionsChanged (endGroups .stage (abandonWhere (fun d => d.mode = .stage) s))

/-! ## Activation and the at-risk warning (R60 to R63) -/

/-- A pending edition is due to activate (R60). -/
def State.activationDue (s : State) : Bool :=
  decide (s.editions.pending.state = .pending) && s.clock.isSet &&
  decide (s.editions.pending.effective.toNat ≤ s.clock.absolute)

/-- A STAGE delivery of the activated edition continues as an INSTALL (R62, R167). -/
def Delivery.installed (d : Delivery) : Delivery := if d.mode = .stage then { d with mode := .install } else d

/-- STAGE deliveries and groups pass to INSTALL (R167). The turns that serve them end, since their deliveries leave the class
(R144). -/
def stageToInstall (s : State) : State :=
  let moved (t : Target) : Bool :=
    match t with
    | .slot n => (match s.delivery n with
      | some d => decide (d.mode = .stage)
      | none => false)
    | .group _ => true
    | .line => false
  { s with sched := { s.sched with
      deliveries := s.sched.deliveries.map fun o => o.map Delivery.installed
      groups := s.sched.groups.map fun g => if g.cls = .stage then { g with cls := .install } else g
      arbiters := s.sched.arbiters.map fun a =>
        match a.turn with
        | some u => if u.cls = .stage ∧ moved u.target = true then
            { a with turn := none } else a
        | none => a } }

/-- Slots that hold the activated edition complete take the activation-unconfirmed flag, and their lines the
ACTIVATE-due mark (R62, R156). A line with no such slot that is still due the broadcast of an older edition stays due that one:
R62 gives it no broadcast of the new edition, R156 would have the mark take the new number (log 72). -/
def flagUnconfirmed (e : EditionRef) (s : State) : State :=
  forSlots (fun n s =>
    if (s.slot n).holdsPending e then
      let s := s.modSlot n fun v => { v with unconfirmed := true }
      match s.lineOf n with
      | some l => if s.lineOn l then s.modArbiter l fun a => { a with activateDue := some e.number } else s
      | none => s
    else s) allSlots s

/-- The edition slots at an activation (R61). -/
def EditionMgr.activate (e : EditionMgr) : EditionMgr :=
  let p := e.pending
  { e with
    active := ⟨true, p.number, p.total, p.crcs, p.digest, p.region⟩
    pending := .empty p.region.other }

/-- An activation (R61, R62, R167). -/
def activate (s : State) : State :=
  let p := s.editions.pending
  let s := { s with editions := s.editions.activate }
  let s := endGroups .install (abandonWhere (fun d => d.mode = .install) s)
  let s := flagUnconfirmed ⟨p.number, p.digest⟩ (stageToInstall s)
  raiseAfter .edition [summaryRec] (editionsChanged s)

/-- The at-risk check is to be made (R63). -/
def State.riskWindow (s : State) : Bool :=
  let p := s.editions.pending
  decide (p.state = .pending) && s.clock.isSet && !p.warned &&
  decide (p.effective.toNat ≤ s.clock.absolute + 10) && decide (s.clock.absolute < p.effective.toNat)

/-- A slot lacks the pending edition (R63). -/
def State.lacks (s : State) (n : Fin 24) : Bool :=
  let v := s.slot n
  (v.state = .identifying || v.state = .behind || v.state = .current) &&
  (v.edIncapable || !v.holdsPending ⟨s.editions.pending.number, s.editions.pending.digest⟩)

/-- The at-risk check (R63). -/
def riskCheck (s : State) : State :=
  if s.riskWindow && allSlots.any s.lacks then
    raiseAfter .edition [summaryRec]
      (setPending { s.editions.pending with warned := true, atRisk := true } s)
  else s

/-- The tests of R60 and R63: an activation that is due, or else the at-risk check, in RUNNING and STOPPING. -/
def editionTests (s : State) : State :=
  if !s.working then s else if s.activationDue then activate s else riskCheck s

/-- The tests of R60 and R63 find something to do: an edition activates, or a warning is given. -/
def State.testsAct (s : State) : Bool :=
  s.working && (s.activationDue || (s.riskWindow && allSlots.any s.lacks))

/-- Whether the tests of R60 and R63 wait for the running job's end. -/
def setTestsDue (b : Bool) (s : State) : State := { s with editions := { s.editions with testsDue := b } }

/-- The tests of a minute tick (R59): at once with the edition manager idle. A running load makes them at its own end (R56); a
job of which only the outcome is still to be handed over makes them as it ends, so they wait for that (log 48). -/
def tickTests (s : State) : State :=
  if s.editionIdle then editionTests s
  else if s.editions.load.isNone && s.working then setTestsDue true s
  else s

/-- The tests that a minute tick put off, made as the outcome of the edition-manager job of strip `t` is about to be handed
over (R59), and whether they activated an edition or gave a warning. -/
def deferredTests (t : Strip) (s : State) : State × Bool :=
  if s.editions.testsDue && decide ((s.strip t).kind.bind ownerOf = some .edition) then
    (editionTests (setTestsDue false s), s.testsAct)
  else (s, false)

/-! ## LOAD EDITION (R48 to R56) -/

/-- The outcome of a LOAD EDITION that is not accepted (R54). -/
def refuseLoad (list n number : Nat) (e : EditionMgr) : Option Byte :=
  if number ≤ e.active.number.toNat then some Outcome.wrongState
  else if n < 1 ∨ 960 < n ∨ list % 16 ≠ 0 ∨ 2 ^ 32 < list + 16 * n then some Outcome.badParam
  else none

/-- Pages of an edition of `n` products (R50). -/
def editionPages (n : Nat) : Nat := (n + 14) / 15

/-- An accepted load at its start (R55). -/
def startLoad (t : Strip) (list n : Nat) (number : BitVec 16) (effective : Word) (s : State) : State :=
  let s := setPending { state := .composing, number := number, total := editionPages n, crcs := [], digest := 0,
                        effective := effective, region := s.editions.active.region.other,
                        atRisk := false, warned := false } s
  want summaryRec (setLoad (some ⟨t, list, n, 0, 0, 0⟩) s)

/-- LOAD_EDITION (R54, R55): a pending edition is withdrawn, the request is checked, and an accepted load starts. -/
def execLoadEdition (t : Strip) (s : State) : Out :=
  scheduled s fun s =>
    if s.mayTake t .edition Kind.loadEdition then
      let r := s.request t
      let list := r.param 8 4
      let n := r.param 12 2
      let number := r.param 14 2
      let held := decide (s.editions.pending.state = .pending)
      let s := takeUp t .edition s
      let s := if held then withdrawPending s else s
      match refuseLoad list n number s.editions with
      | some o => if held then completeAfterSummary t (.plain o) s else completeRequest t (.plain o) s
      | none => startLoad t list n (BitVec.ofNat 16 number) (BitVec.ofNat 32 (r.param 16 4)) s
    else s

/-- A product record (chapter 3, section 3.1). -/
structure Product where
  code : Nat
  concession : Nat
  flags : Nat
  zones : Nat
  price : Nat
  validity : Nat
  transfer : Nat
deriving DecidableEq, Repr

/-- The record that 16 bytes spell. -/
def parseProduct (b : List Byte) : Product :=
  ⟨fieldAt b 0 2, fieldAt b 2 1, fieldAt b 3 1, fieldAt b 4 4, fieldAt b 8 4, fieldAt b 12 2, fieldAt b 14 2⟩

/-- A bad record; `first` marks record 0, `last` is the code of the record before (R48). -/
def Product.bad (p : Product) (first : Bool) (last : Nat) : Bool :=
  decide (p.code = 0) || (!first && decide (p.code ≤ last)) || decide (15 < p.concession) ||
  decide (p.zones = 0) || decide (2147483648 ≤ p.price)

/-- The clamps of R49 and the flags mask, in order. -/
def Product.clamp (p : Product) : Product :=
  let v := if p.validity = 0 then 1 else p.validity
  let v := if 10080 < v then 10080 else v
  { p with flags := p.flags % 4, validity := v, transfer := if v < p.transfer then v else p.transfer }

/-- A time of the record was clamped (R49). -/
def Product.clamped (p : Product) : Bool :=
  decide (p.clamp.validity ≠ p.validity) || decide (p.clamp.transfer ≠ p.transfer)

/-- The 16 bytes of a stored record. -/
def Product.bytes (p : Product) : List Byte :=
  leBytes 2 p.code ++ leBytes 1 p.concession ++ leBytes 1 p.flags ++ leBytes 4 p.zones ++ leBytes 4 p.price ++
  leBytes 2 p.validity ++ leBytes 2 p.transfer

/-- The 16 header bytes of an edition page, its CRC field zero (R51). -/
def editionHeader (e : PendingSlot) (page products : Nat) : List Byte :=
  leBytes 2 e.number.toNat ++ leBytes 1 page ++ leBytes 1 e.total ++ leBytes 1 products ++ [0, 0, 0] ++
  leBytes 4 e.effective.toNat ++ [0, 0, 0, 0]

/-- The final bytes of an edition page whose `products` records are in memory (R50, R51). -/
def editionPageBytes (mem : List Host.Cell) (addr : Nat) (e : PendingSlot) (page products : Nat) : List Byte :=
  sealPage (editionHeader e page products ++ Memory.readBytes mem (addr + 16) (16 * products) ++
    List.replicate (16 * (15 - products)) 0)

/-- Closes page `page` of the load: header, CRC and empty record positions (R51, R55). -/
def closePage (page products : Nat) (s : State) : State :=
  let e := s.editions.pending
  let addr := s.editionBase e.region + 256 * page
  let bytes := editionPageBytes s.mem addr e page products
  setPending { e with crcs := e.crcs ++ [pageCrcField bytes] } { s with mem := Memory.writeBytes s.mem addr bytes }

/-- The end of a load whose last page is written (R56). -/
def endLoad (l : Load) (s : State) : State :=
  let e := s.editions.pending
  let s := setLoad none (setPending { e with state := .pending, digest := e.crcs.foldl (· + ·) 0 } s)
  let s := editionTests (editionsChanged (want summaryRec s))
  completeAfterSummary l.strip ⟨Outcome.ok, decide (l.clamped ≠ 0), l.clamped⟩ s

/-- A load that met a bad record (R48, R55). -/
def failLoad (l : Load) (s : State) : State :=
  completeAfterSummary l.strip ⟨Outcome.badParam, false, l.next⟩ (editionTests (emptyPending (setLoad none s)))

/-- The next record of a load as read from its list (R48). -/
def State.nextProduct (s : State) (l : Load) : Product := parseProduct (Memory.readBytes s.mem (l.list + 16 * l.next) 16)

/-- The next record is written into its page position (R50). -/
def writeProduct (l : Load) (p : Product) (s : State) : State :=
  let addr := s.editionBase s.editions.pending.region + 256 * (l.next / 15) + 16 + 16 * (l.next % 15)
  { s with mem := Memory.writeBytes s.mem addr p.clamp.bytes }

/-- The next record, checked and good, goes into its page (R48 to R51). -/
def storeProduct (l : Load) (p : Product) (s : State) : State :=
  let i := l.next
  let s := writeProduct l p s
  let l := { l with next := i + 1, lastCode := p.code, clamped := if p.clamped then l.clamped + 1 else l.clamped }
  let s := if i % 15 = 14 ∨ i + 1 = l.count then closePage (i / 15) (i % 15 + 1) s else s
  if i + 1 = l.count then endLoad l s else setLoad (some l) s

/-- PRODUCT_RECORD (R48): the next record of the running load is read, checked, clamped and written. -/
def execProductRecord (s : State) : Out :=
  scheduled s fun s =>
    match s.editions.load with
    | some l =>
      if s.working then
        let p := s.nextProduct l
        if p.bad (decide (l.next = 0)) l.lastCode then failLoad l s else storeProduct l p s
      else s
    | none => s

/-! ## RESCHEDULE EDITION and WITHDRAW EDITION (R57, R58) -/

/-- The PENDING slot is PENDING and holds this number. -/
def State.pendingIs (s : State) (number : Nat) : Bool :=
  decide (s.editions.pending.state = .pending) && decide (s.editions.pending.number.toNat = number)

/-- RESCHEDULE_EDITION (R57). -/
def execRescheduleEdition (t : Strip) (s : State) : Out :=
  scheduled s fun s =>
    if s.mayTake t .edition Kind.rescheduleEdition then
      let r := s.request t
      let s := takeUp t .edition s
      if s.pendingIs (r.param 8 2) then
        let s := setPending { s.editions.pending with effective := BitVec.ofNat 32 (r.param 10 4) } s
        completeAfterSummary t (.plain Outcome.ok) (editionTests (want summaryRec s))
      else completeRequest t (.plain Outcome.wrongState) s
    else s

/-- WITHDRAW_EDITION (R58). -/
def execWithdrawEdition (t : Strip) (s : State) : Out :=
  scheduled s fun s =>
    if s.mayTake t .edition Kind.withdrawEdition then
      let r := s.request t
      let s := takeUp t .edition s
      if s.pendingIs (r.param 8 2) then completeAfterSummary t (.plain Outcome.ok) (withdrawPending s)
      else completeRequest t (.plain Outcome.wrongState) s
    else s

/-! ## The service clock (R64 to R69) -/

/-- EVENTS.CLOCK for a changed service day (R65, R68): after the summary record; outside RUNNING after its next
rewrite; in FAULTED not at all (R194). -/
def clockNotice (s : State) : State :=
  if s.running then raiseAfter .clock [summaryRec] s
  else if s.isFaulted then s
  else awaitRecords [summaryRec] (.notice .clock) s

/-- The effects of a change of the service day (R68); the old one is none when the clock was unset. -/
def serviceDayEffects (old : Option Nat) (s : State) : State :=
  let new := s.clock.serviceDay
  match old with
  | none => clockNotice (queuePurge s)
  | some d =>
    if d < new then clockNotice (queuePurge s)
    else if new < d then clockNotice s
    else s

/-- A TIME broadcast falls due on every line that is not OFF (R69). -/
def markTime (s : State) : State :=
  { s with editions := { s.editions with
      timeDue := Vector.ofFn fun l : Fin 4 => s.editions.timeDue[l] || s.lineOn l } }

/-- SET_CLOCK (R67). -/
def execSetClock (t : Strip) (s : State) : Out :=
  scheduled s fun s =>
    if s.mayTake t .edition Kind.setClock then
      let r := s.request t
      let s := takeUp t .edition s
      let minute := r.param 10 2
      let start := r.param 12 2
      if 1440 ≤ minute ∨ 1440 ≤ start then completeRequest t (.plain Outcome.badParam) s
      else
        let old := s.serviceDay?
        let s := { s with clock := ⟨true, r.param 8 2, minute, 0, start, 0, false⟩ }
        let s := markTime (want summaryRec (serviceDayEffects old s))
        completeAfterSummary t (.plain Outcome.ok) (editionTests s)
    else s

/-- The clock one minute on (R65). -/
def Clock.tick (c : Clock) : Clock :=
  if c.minute = 1439 then { c with day := c.day + 1, minute := 0, seconds := 0, part := 0 }
  else { c with minute := c.minute + 1, seconds := 0, part := 0 }

/-- A tick that changes the clock (R65), its tests made or put off (R59). -/
def tickClock (s : State) : State :=
  let old := s.clock.serviceDay
  let s := serviceDayEffects (some old) { s with clock := s.clock.tick }
  let s := if s.running then want summaryRec s else s
  let s := tickTests s
  if s.running then markTime s else s

/-- The clock stops at its end, with one notice (R65). A tick that finds it stopped changes nothing and has none of the
effects R65 gives a tick that changes the clock: no test of R60 or R63 and no TIME mark (log 28). -/
def stopClock (s : State) : State :=
  if s.clock.stopped then s else raise .clock { s with clock := { s.clock with stopped := true } }

/-- MINUTE_TICK (R65): every 60th second of a set clock, in every engine state. -/
def execMinuteTick (s : State) : Out :=
  scheduled s fun s =>
    if s.clock.isSet then
      (if s.clock.day = 65535 ∧ s.clock.minute = 1439 then stopClock s else tickClock s)
    else s

end Sys2Proof.Machine
end

