-- ==== Sys2Proof/Machine/Rewrite.lean ====
section
/-! DEFINITION. A rewrite of a record, and the notices and outcomes it lets go (chapter 10; R59, R200, R201). -/

namespace Sys2Proof.Machine

/-- Hands over an outcome that has waited for the summary record. Tests of R60 and R63 put off to the end of its job are made
first; with an activation or a warning among them, complete and notice included before the outcome (R59, R61), the outcome
waits for the summary record again. -/
def handOutcome (t : Strip) (r : Result) (s : State) : State :=
  let x := deferredTests t s
  if x.2 then completeAfterSummary t r x.1 else completeRequest t r x.1

/-- Gives what waited: raises a notice, or hands an outcome over (R192, R201). -/
def give (s : State) (w : Waiting) : State :=
  match w.act with
  | .notice n => raise n s
  | .outcome t r => handOutcome t r s

/-- What waits, once record `r` is off what each notice and outcome needs: those that need nothing more, in order, and the
rest. -/
def released (r : Fin 29) (s : State) : List Waiting × List Waiting :=
  let ws := s.report.waiting.map fun w => { w with needs := w.needs.filter (fun x => decide (x ≠ r)) }
  (ws.filter fun w => w.needs.isEmpty, ws.filter fun w => !w.needs.isEmpty)

/-- Gives, in order, the notices and outcomes that waited for record `r` and for nothing more (R201). -/
def release (r : Fin 29) (s : State) : State :=
  let x := released r s
  x.1.foldl give { s with report := { s.report with waiting := x.2 } }

/-- A whole rewrite of a record: its bytes, its count 2 higher, and then what waited for it. -/
def rewriteRecord (r : Fin 29) (s : State) : State :=
  let s := writeRecord r 3 s
  let s := { s with report := countRewrite r s.report }
  release r (stopRecordTimer r s)

/-- In STARTING the records are written in order (R205): every record before `r` is written. -/
def State.startOrder (s : State) (r : Fin 29) : Bool :=
  (List.finRange 29).all fun q => decide (r ≤ q) || !s.report.wanted[q]

/-- REPORT_REWRITE (R200, R201, R202): a record due a rewrite is rewritten while the part is STARTING, RUNNING or
STOPPING. Where an outcome it lets go brings the tests of R59, the turns are looked at anew, as after any change of an edition
slot (R142). -/
def execReportRewrite (record : Fin 29) (s : State) : Out :=
  recorded s fun s =>
    if s.report.wanted[record] &&
        (s.working || (decide (s.engine = .starting) && s.startOrder record)) then
      let t := rewriteRecord record s
      if s.editions.testsDue && !t.editions.testsDue then boundaries t else t
    else s

end Sys2Proof.Machine
end

