-- ==== Sys2Proof/Machine/Engine.lean ====
section
/-! DEFINITION. The engine: the register writes, reset and restart, starting, stopping and resuming, the scan interval
(chapters 9 and 10). -/

namespace Sys2Proof.Machine

/-! ## Reset and RESTART (R204) -/

/-- Every block cold, the registers given, shared memory and the waiting commands as they are (R204). -/
def coldStart (regs : Regs) (s : State) : State := { State.reset with regs := regs, mem := s.mem, pending := s.pending }

/-- RESTART (R184, R204): at once, in every engine state; XBASE and EVMASK are kept. -/
def restart (s : State) : State := coldStart ⟨false, s.regs.xbase, 0, s.regs.evmask⟩ s

/-- RESET_PIN_LOW (R204, R210; log 23): drivers released, nothing accessed, until the pin rises. -/
def execResetPinLow (s : State) : Out := .next { s with resetLow := true }

/-- POWER_ON (R204): the reset pin rises; every register has its power-on value. -/
def execPowerOn (s : State) : Out := .next (coldStart .cold s)

/-! ## Entry to RUNNING (R190, R205, R208) -/

/-- The scan interval timer starts (R190): none with an interval of 0. -/
def startScan (s : State) : State :=
  let i := s.desc.scanInterval
  { s with exch := { s.exch with scanTimer := if i = 0 then none else some (i * Config.ms) } }

/-- The scan interval timer no longer counts (R190, R198). -/
def stopScan (s : State) : State := { s with exch := { s.exch with scanTimer := none } }

/-- RUNNING, the summary record due its rewrite (R205, R208). -/
def entered (s : State) : State := want summaryRec { s with engine := .running }

/-- RUNNING again after a halt: the edition manager's tests and, with the clock set, the TIME marks (R60, R63, R69). -/
def resumed (s : State) : State :=
  let s := editionTests (entered s)
  if s.clock.isSet then markTime s else s

/-- The strips are visited at an entry to RUNNING, and the scan interval timer starts (R190). -/
def startStrips (s : State) : State := startScan (visitBoth s)

/-- Entry to RUNNING (R205, step 3). -/
def enterRunning (s : State) : State := startStrips (entered s)

/-- Entry to RUNNING from HALTED resumable (R208). -/
def resume (s : State) : State := startStrips (resumed s)

/-! ## CONTROL (R184, R203) -/

/-- RUN taken, by engine state (R203, R205, R207). -/
def takeRun (run : Bool) (s : State) : State :=
  let s := { s with regs := { s.regs with run := run } }
  match s.engine with
  | .haltedCold => if run then { s with engine := .starting } else s
  | .starting =>
    if run then s else { s with engine := .haltedCold, exch := { s.exch with descriptor := none }, report := .cold }
  | .running => if run then s else want summaryRec (stopScan { s with engine := .stopping })
  | .stopping => s
  | .haltedResumable => if run then resume s else s
  | .faulted _ => s

/-- A write to CONTROL (R184): RESTART with bit 1; otherwise bit 0 is RUN, ignored in FAULTED. -/
def controlWrite (value : Word) (s : State) : Out :=
  if s.resetLow then .next s
  else if value.getLsbD 1 then .next (restart s)
  else if s.isFaulted then .next s
  else scheduled s (takeRun (value.getLsbD 0))

/-- RUN (R203): CONTROL written with bit 1 clear. -/
def execRun (value : Word) (s : State) : Out := controlWrite value s

/-- RESTART (R204): CONTROL written with bit 1 set. -/
def execRestart (value : Word) (s : State) : Out := controlWrite value s

/-! ## The other registers (R183, R185, R190, R194, R195) -/

/-- KICK (R190): in RUNNING both strips are visited, whatever the value. -/
def execKick (_ : Word) (s : State) : Out := scheduled s fun s => if s.running then visitBoth s else s

/-- EVENTS_CLEAR (R194): bits written as 0 are cleared. -/
def execEventsClear (value : Word) (s : State) : Out :=
  .next (if s.resetLow then s
    else { s with regs := { s.regs with events := s.regs.events &&& value.setWidth 8 } })

/-- EVMASK_WRITE (R195). -/
def execEvmaskWrite (value : Word) (s : State) : Out :=
  .next (if s.resetLow then s else { s with regs := { s.regs with evmask := value.setWidth 8 } })

/-- XBASE takes bits 12-31 of a write (R185). -/
def writeXbase (value : Word) (s : State) : State :=
  { s with regs := { s.regs with xbase := value &&& 0xFFFFF000 } }

/-- A write at any offset of the register port (R183). -/
def registerPort (offset value : Word) (s : State) : Out :=
  if offset = 0x04 then controlWrite value s
  else if offset = 0x10 then execKick value s
  else if offset = 0x14 then execEventsClear value s
  else if offset = 0x18 then execEvmaskWrite value s
  else .next (if s.resetLow then s else if offset = 0x0C then writeXbase value s else s)

/-- REGISTER_WRITE (R183, R185): the host's stores into shared memory come first (log 2); then XBASE is written, or
nothing at a read-only register or an unused offset. -/
def execRegisterWrite (offset value : Word) (stores : List (Word × Byte)) (s : State) : Out :=
  registerPort offset value { s with mem := Memory.storeAll s.mem stores }

/-- SCAN_INTERVAL_EXPIRY (R190): both strips are visited and the timer starts again. -/
def execScanIntervalExpiry (s : State) : Out :=
  scheduled s fun s => if s.running && s.exch.scanTimer.isSome then startScan (visitBoth s) else s

/-! ## FAULTED (R116, R197, R209) -/

/-- A port at entry to FAULTED: a frame on the wire is finished; any other exchange ends with no result. -/
def Port.quiet (p : Port) : Port :=
  if p.xstate = .sending then p else { p with xstate := .idle, exchange := none, reply := none }

/-- Entry to FAULTED (R209): EVENTS.FAULT follows the state. -/
def fault (c : FaultCause) (s : State) : State :=
  setNotice .fault (stopScan { s with engine := .faulted c, ports := s.ports.map Port.quiet })

/-! ## STARTING (R186, R187, R205) -/

/-- The 64 bytes of the area descriptor. -/
def State.descriptorBytes (s : State) : List Byte := Memory.readBytes s.mem s.regs.xbase.toNat 64

/-- The fields of a descriptor (R186). -/
def parseDescriptor (b : List Byte) : Descriptor :=
  { scanInterval := min (fieldAt b 6 2) 1000
    priorityAddr := fieldAt b 8 4, routineAddr := fieldAt b 12 4
    priorityCount := fieldAt b 16 2, routineCount := fieldAt b 18 2
    report := fieldAt b 20 4, imageA := fieldAt b 24 4, imageB := fieldAt b 28 4
    editionA := fieldAt b 32 4, editionB := fieldAt b 36 4 }

/-- The extents taken for validation, as base and length. -/
def Descriptor.extents (d : Descriptor) (xbase : Nat) : List (Nat × Nat) :=
  [(xbase, 64), (d.priorityAddr, 64 * d.priorityCount), (d.routineAddr, 64 * d.routineCount), (d.report, 4096),
   (d.imageA, 1048576), (d.imageB, 1048576), (d.editionA, 16384), (d.editionB, 16384)]

/-- Two extents do not overlap. -/
def apart (x y : Nat × Nat) : Bool := decide (x.1 + x.2 ≤ y.1) || decide (y.1 + y.2 ≤ x.1)

/-- No two extents of a list overlap. -/
def allApart : List (Nat × Nat) → Bool
  | [] => true
  | x :: xs => xs.all (apart x) && allApart xs

/-- A descriptor passes validation (R187). -/
def validDescriptor (b : List Byte) (xbase : Nat) : Bool :=
  let d := parseDescriptor b
  let goodCount (n : Nat) : Bool := decide (4 ≤ n) && decide (n ≤ 256)
  decide (fieldAt b 0 4 = 0x4A444C47) && decide (fieldAt b 4 2 = 1) &&
  goodCount d.priorityCount && goodCount d.routineCount &&
  decide (d.priorityAddr % 64 = 0) && decide (d.routineAddr % 64 = 0) &&
  [d.report, d.imageA, d.imageB, d.editionA, d.editionB].all (fun a => decide (a % 4096 = 0)) &&
  (d.extents xbase).all (fun x => decide (x.1 + x.2 ≤ 2 ^ 32)) && allApart (d.extents xbase)

/-- Every record is due its first rewrite (R205, step 2). -/
def allRecordsDue (s : State) : State :=
  { s with report := { s.report with wanted := Vector.replicate 29 true } }

/-- DESCRIPTOR_READ (R186, R187, R205): validated and kept, or FAULTED with cause DESCRIPTOR. -/
def execDescriptorRead (s : State) : Out :=
  recorded s fun s =>
    if s.engine = .starting ∧ s.exch.descriptor = none then
      let b := s.descriptorBytes
      if validDescriptor b s.regs.xbase.toNat then
        allRecordsDue { s with exch := { s.exch with descriptor := some (parseDescriptor b) } }
      else fault .descriptor s
    else s

/-- No record is due a rewrite. -/
def State.recordsDone (s : State) : Bool := (List.finRange 29).all fun r => !s.report.wanted[r]

/-- STARTING_END (R205, step 3). -/
def execStartingEnd (s : State) : Out :=
  scheduled s fun s =>
    if s.engine = .starting ∧ s.exch.descriptor.isSome = true ∧ s.recordsDone = true then enterRunning s else s

/-! ## STOPPING (R207) -/

/-- Every block is drained (R207). -/
def State.drained (s : State) : Bool :=
  decide (s.exch.priority.scan = .stopped) && decide (s.exch.routine.scan = .stopped) &&
  s.changeIdle && decide (s.change.purge = .empty) && s.editionIdle &&
  allLines.all fun l => decide ((s.port l).xstate = .idle) && (s.port l).exchange.isNone

/-- The records still due are rewritten. -/
def flushRecords (s : State) : State :=
  (List.finRange 29).foldl (fun s r => if s.report.wanted[r] then rewriteRecord r s else s) s

/-- HALTED resumable: the records still due are rewritten, then the summary with HALTED (R207). -/
def halted (s : State) : State := rewriteRecord summaryRec { flushRecords s with engine := .haltedResumable }

/-- DRAIN_COMPLETE (R203, R207): HALTED resumable, and RUNNING at once if RUN is 1. -/
def execDrainComplete (s : State) : Out :=
  scheduled s fun s =>
    if s.engine = .stopping ∧ s.drained = true then
      let s := halted s
      if s.regs.run then resume s else s
    else s

end Sys2Proof.Machine
end

