-- ==== Sys2Proof/Machine/MemoryError.lean ====
section
/-! DEFINITION. MEMORY_ERROR: what a step had done before the access that failed, and the entry to FAULTED (R21, R46,
R47, R70, R196, R202; log 12). -/

namespace Sys2Proof.Machine

/-! ## Results on their way to a strip slot -/

/-- The answers of the requests acted on at once, by kind. -/
def answerOf (k : Nat) : Option (Request → State → State × Result) :=
  if k = Kind.pinSlot then some pinSlot
  else if k = Kind.freeSlot then some freeSlot
  else if k = Kind.releaseSlot then some releaseSlot
  else if k = Kind.resyncSlot then some resyncSlot
  else if k = Kind.clearCounters then some clearCounters
  else if k = Kind.setLine then some setLine
  else if k = Kind.setProfile then some setProfile
  else none

/-- The outcome of a job's request that its owner refuses as it takes it up. -/
def refusalOf (r : Request) (s : State) : Option Byte :=
  if r.kind = Kind.applyChanges then refuseBatch (r.param 8 4) (r.param 12 2) s.change
  else if r.kind = Kind.formatImage then refuseFormat r s.change
  else if r.kind = Kind.rebuildImage then refuseRebuild r s.change
  else if r.kind = Kind.loadEdition then
    (if s.editions.pending.state = .pending then none
     else refuseLoad (r.param 8 4) (r.param 12 2) (r.param 14 2) s.editions)
  else if r.kind = Kind.rescheduleEdition ∨ r.kind = Kind.withdrawEdition then
    (if s.pendingIs (r.param 8 2) then none else some Outcome.wrongState)
  else if r.kind = Kind.setClock then
    (if 1440 ≤ r.param 10 2 ∨ 1440 ≤ r.param 12 2 then some Outcome.badParam else none)
  else none

/-- What waited is the outcome of strip `t`. -/
def Waiting.isOutcome (t : Strip) (w : Waiting) : Bool :=
  match w.act with
  | .outcome u _ => decide (u = t)
  | .notice _ => false

/-- The outcome that waits for the summary record alone on strip `t`. -/
def State.waitingOutcome (s : State) (t : Strip) : Option Result :=
  s.report.waiting.findSome? fun w =>
    match w.act with
    | .outcome u r => if u = t ∧ (w.needs.all fun x => decide (x = summaryRec)) = true then some r else none
    | .notice _ => none

/-- The summary record is rewritten, and what waited for it is given up to the outcome of strip `t` (R201). -/
def beforeOutcome (t : Strip) (s : State) : State :=
  let s := { writeRecord summaryRec 3 s with report := countRewrite summaryRec s.report }
  let x := released summaryRec s
  (x.1.takeWhile fun w => !w.isOutcome t).foldl give { s with report := { s.report with waiting := x.2 } }

/-- An owner may take up the job that strip `t` holds. -/
def State.mayTakeJob (s : State) (t : Strip) (k : Nat) : Bool :=
  match ownerOf k with
  | some o => s.mayTake t o k || (decide (k = Kind.applyChanges) && s.mayApply t)
  | none => false

/-- The result of a request acted on at once, or of one its owner refuses. -/
def State.requestResult (s : State) (t : Strip) : Option (State × Result) :=
  match s.heldRequest t with
  | some r =>
    if s.mayTakeJob t r.kind then
      (match answerOf r.kind with
       | some answer => some (answer r s)
       | none => (refusalOf r s).map fun o => (s, .plain o))
    else none
  | none => none

/-- The result that the held request of strip `t` is about to be given: the last item of a batch that changed nothing, a
request acted on at once, or a refusal. -/
def State.heldResult (s : State) (t : Strip) : Option (State × Result) :=
  match s.change.batch with
  | some b =>
    if b.strip = t ∧ b.next + 1 = b.count then
      let x := applyNext b s
      let s := itemDone x.2 x.1
      s.change.batch.bind fun b => if b.changed = [] ∧ b.anyFull = false then some (s, b.result) else none
    else s.requestResult t
  | none => s.requestResult t

/-- The result that strip `t` is about to be given, with its notify bit and the state its owner left: an outcome that waited
for the summary and does not wait for it again (R59), one of the request in hand, or BAD_KIND. -/
def State.resultDue (s : State) (t : Strip) : Option (State × Bool × Result) :=
  match (s.strip t).scan with
  | .holding req _ _ =>
    (match s.waitingOutcome t with
     | some r =>
       let x := deferredTests t (beforeOutcome t s)
       if x.2 then none else some (x.1, req.notify, r)
     | none => (s.heldResult t).map fun x => (x.1, req.notify, x.2))
  | .stopped =>
    if s.running && decide (Memory.read s.mem (s.slotAddr t) = 1) &&
        decide (ownerOf (readRequest s t).kind = none) then
      some (writeSlotBytes t 0 [2] s, (readRequest s t).notify, .plain Outcome.badKind)
    else none

/-- The state after `done` requests of strip `t` have completed in the step: the result due first, and then those with a kind
not in the table (R189, R191). -/
def afterCompletions (t : Strip) : Nat → State → State
  | 0, s => s
  | done + 1, s =>
    match s.resultDue t with
    | some (s, notify, r) => afterCompletions t done (finish t notify r s)
    | none => s

/-! ## What stood before the failing access -/

/-- The stamps of the page whose header was being written (R30): set in the stamp table, the header not written. -/
def stampPage (urgent : Bool) (p : Nat) (s : State) : State :=
  let c := s.change
  match c.table[p]? with
  | none => s
  | some r =>
    { s with change := { c with
        table := c.table.set p { r with stamp := c.gen, hot := if urgent then c.gen else r.hot } } }

/-- End-of-job work up to a header write that fails: `done` changed pages finished, the next one stamped. -/
def partialHeaders (urgent : Bool) (changed : List Nat) (done : Nat) (s : State) : State :=
  let s := bringUpAll urgent (changed.take done) (raiseG s)
  match changed[done]? with
  | some p => stampPage urgent p s
  | none => s

/-- A format's pages up to the one that fails. -/
def partialFormat (t : Strip) (done : Nat) (s : State) : State :=
  if s.mayTake t .change Kind.formatImage then
    let r := s.request t
    let s := takeUp t .change s
    if refuseFormat r s.change = none then startFormat t r done s else s
  else s

/-- A rebuild slice up to the page that fails; an old page whose copy fails half-way has placed none of its entries (log
59). -/
def partialSlice (done : Nat) (s : State) : State :=
  match s.change.rebuild with
  | none => s
  | some r =>
    if s.sliceReady = false then s
    else
      match r.phase with
      | .clearing => clearPages (min done (min slicePages (r.pages - r.cleared))) r s
      | .copying => copyPages (min done (min slicePages (s.change.pages - s.change.copyCursor))) s
      | .finishing => finishPages r.finished (min done (min slicePages (r.pages - r.finished))) s

/-- The state in which the strips are visited in an entry to RUNNING that ends a start, resumes, or follows a drain with RUN
at 1 (R205, R207, R208). Elsewhere the state as it stands. -/
def State.atEntry (s : State) : State :=
  match s.engine with
  | .starting => if s.exch.descriptor.isSome && s.recordsDone then entered s else s
  | .haltedResumable => resumed { s with regs := { s.regs with run := true } }
  | .stopping => if s.drained && s.regs.run then resumed (halted s) else s
  | .haltedCold | .running | .faulted _ => s

/-- What a step had done when strip `t` is first acted on. A routine strip that is STOPPED then is visited after the priority
strip, whose visit stands (R189, R190; log 10). -/
def reach (t : Strip) (s : State) : State :=
  match t with
  | .priority => s.atEntry
  | .routine => if s.atEntry.exch.routine.scan = .stopped then visit .priority s.atEntry else s.atEntry

/-- The effect of a step up to the access in error, which has none of its own (R196). -/
def beforeError (a : Access) (s : State) : State :=
  match a with
  | .markRead t done | .takenWrite t done => afterCompletions t done (reach t s)
  | .requestRead t done =>
    let s := afterCompletions t done (reach t s)
    if s.running && decide ((s.strip t).scan = .stopped) && decide (Memory.read s.mem (s.slotAddr t) = 1) then
      writeSlotBytes t 0 [2] s
    else s
  | .completionWrite t done stage =>
    let s := afterCompletions t done (reach t s)
    (match s.resultDue t with
     | some (s, _, r) => writeCompletion t r stage.val s
     | none => s)
  | .mirrorPage =>
    (match s.change.batch with
     | some b => if b.next < b.count ∧ s.mirrors b = true then applyLive b s else s
     | none => s)
  | .mirrorHeader =>
    (match s.change.batch with
     | some b =>
       if b.next < b.count ∧ s.mirrors b = true then mirror false (s.nextItem b) (applyLive b s) else s
     | none => s)
  | .itemOutcome =>
    (match s.change.batch with
     | some b => if b.next < b.count then (applyNext b s).1 else s
     | none => s)
  | .batchHeader done =>
    (match s.change.batch with
     | some b =>
       if b.next = b.count ∧ b.changed ≠ [] then partialHeaders (decide (b.strip = .priority)) b.changed done s else s
     | none => s)
  | .formatPage t done => partialFormat t done s
  | .purgePage done =>
    if s.mayPurge && !s.spent then
      let s := takePurge s
      (purgePages s.clock.serviceDay done s).1
    else s
  | .purgeHeader done =>
    if s.mayPurge && !s.spent then
      let s := takePurge s
      let x := purgePages s.clock.serviceDay s.change.pages s
      if x.2 = [] then x.1 else partialHeaders false x.2 done x.1
    else s
  | .rebuildPage done => partialSlice done s
  | .editionClose =>
    (match s.editions.load with
     | some l =>
       let p := s.nextProduct l
       if s.working && !p.bad (decide (l.next = 0)) l.lastCode &&
           decide (l.next % 15 = 14 ∨ l.next + 1 = l.count) then writeProduct l p s
       else s
     | none => s)
  | .reportWrite r stage =>
    if s.report.wanted[r] then writeRecord r stage.val s
    else if r = summaryRec ∧ s.engine = .stopping ∧ s.drained = true then
      writeRecord summaryRec stage.val { flushRecords s with engine := .haltedResumable }
    else s
  | .descriptorRead | .itemRead | .itemPage | .productRead | .editionPage | .framePage _ => s

/-- The engine states in which the part can have an access on the memory port (R203). -/
def State.canAccess (s : State) : Bool :=
  match s.engine with
  | .starting | .running | .stopping | .haltedResumable => true
  | .haltedCold | .faulted _ => false

/-- MEMORY_ERROR (R196, R209): the step stops at the access, and the part is FAULTED with cause MEMORY. -/
def execMemoryError (a : Access) (s : State) : Out :=
  recorded s fun s => if s.canAccess then fault .memory (beforeError a s) else s

end Sys2Proof.Machine
end

