-- ==== Sys2Proof/Machine/Replies.lean ====
section
/-! DEFINITION. The replies as the part takes them: STATUS, IDENT, ACCEPT, REFUSE, PAGE ACK, CLOSE ACK, CHECK REPORT
and BUSY (chapter 6; R77 to R80, R90, R121, R126, R130, R135, R136). -/

namespace Sys2Proof.Machine

/-! ## Taking a reply -/

/-- The fit reply of code `code` that line `l`'s port holds, with its exchange. -/
def State.replyHeld (s : State) (l : Fin 4) (code : Byte) : Option (Exchange × List Byte) :=
  match (s.port l).exchange, (s.port l).reply with
  | some ex, some r => if s.working && decide (r.code = code) then some (ex, r.content) else none
  | _, _ => none

/-- 100 ms, the time a BUSY closes a slot for (R93, R119). -/
def busyTime : Time := 100 * Config.ms

/-- A reply is taken: the exchange is over, `f` acts on the slot unless the exchange's purpose was withdrawn (R109), and
the slot's keep-alive due time is set (R92). -/
def takeReply (l : Fin 4) (code : Byte) (f : Exchange → List Byte → Fin 24 → State → State) (s : State) : State :=
  match s.replyHeld l code with
  | none => s
  | some (ex, content) =>
    let s := overExchange l ex s
    match ex.slot with
    | none => s
    | some n => setKeepalive n (if ex.withdrawn then s else f ex content n s)

/-! ## STATUS (R77, R80, R121) -/

/-- A STATUS of a slot in service, its serial the recorded one (R121, steps 3 to 8). -/
def takeHeldData (n : Fin 24) (st : Status) (s : State) : State :=
  let s := recordStatus n st s
  if st.storeFault then quarantine n .store s
  else
    let s := if st.busy then backOff n busyTime s else s
    let s :=
      match s.delivery n with
      | some d => if d.phase ≠ .opening ∧ st.openDelivery = false then abandon n s else s
      | none => s
    want (rosterRec n) (reevaluate n (compareStatus n st s))

/-- A STATUS kept aside; its busy condition closes the slot for 100 ms as it comes (R77, R93; log 30). -/
def keptAside (n : Fin 24) (st : Status) (s : State) : State := if st.busy then backOff n busyTime s else s

/-- The marks a STATUS clears (R157). -/
def statusMarks (w : Work) (n : Fin 24) (s : State) : State :=
  s.modMarks n fun m =>
    { m with confirmDue := false
             activateSent := match w with
               | .poll _ | .confirm _ => false
               | _ => m.activateSent }

/-- A fit STATUS (R121). In QUARANTINED with no serial recorded it counts as differing (R80; log 61). -/
def takeStatus (ex : Exchange) (content : List Byte) (n : Fin 24) (s : State) : State :=
  let st := parseStatus content
  let s := statusMarks ex.work n s
  let v := s.slot n
  match v.state with
  | .vacant => s
  | .silent => keptAside n st (toIdentifying n st s)
  | .identifying => keptAside n st (s.modSlot n fun v => { v with kept := some st })
  | .behind | .current =>
    if st.serial ≠ v.serial then toIdentifying n st (abandon n s) else takeHeldData n st s
  | .quarantined =>
    if st.serial ≠ v.serial then s.modSlot n fun v => { v with serialSeen := st.serial }
    else takeHeldData n st s

/-- STATUS (R121). -/
def execStatus (l : Fin 4) (s : State) : Out := scheduled s fun s => takeReply l Code.status takeStatus s

/-! ## IDENT (R78, R79, R90) -/

/-- The bound slots that record a serial. -/
def State.holders (s : State) (serial : BitVec 64) : List (Fin 24) :=
  allSlots.filter fun n => (s.slot n).binding.isSome && decide ((s.slot n).serial = serial)

/-- A capability record is taken; the served rate and the incapable flags follow (R73). -/
def takeCapability (n : Fin 24) (c : Capability) (s : State) : State :=
  refreshIncapable n (refreshServed n (s.modSlot n fun v => { v with cap := some c }))

/-- The kept STATUS becomes held data when its serial is the IDENT's; otherwise the held data is cleared (R78). -/
def recordKept (n : Fin 24) (serial : BitVec 64) (s : State) : State :=
  match (s.slot n).kept with
  | some st =>
    if st.serial = serial then recordStatus n st s
    else s.modSlot n fun v => { v with heldId := 0, heldH := 0, heldActive := ⟨0, 0⟩, heldPending := none }
  | none => s.modSlot n fun v => { v with heldId := 0, heldH := 0, heldActive := ⟨0, 0⟩, heldPending := none }

/-- An IDENT accepted in IDENTIFYING (R78). -/
def acceptIdent (n : Fin 24) (serial : BitVec 64) (c : Capability) (s : State) : State :=
  let kept := (s.slot n).kept
  let s := s.modSlot n fun v => { v with serial := serial }
  let v := s.slot n
  let s := if v.frozen && v.cap.isSome then s else takeCapability n c s
  let s := (recordKept n serial s).modSlot n fun v => { v with misses := 0, garbleRun := 0 }
  let s := identified n s
  match kept with
  | some st =>
    if st.storeFault then quarantine n .store s
    else if st.serial = serial then reevaluate n (compareStatus n st s)
    else s
  | none => s

/-- The replacement window: 10 minutes (R79). -/
def windowTime : Time := 600 * Config.second

/-- A replaced validator is re-learned (R79, case 4). The kept STATUS gives its editions only: a store fault in it is left
to the next STATUS (log 30). -/
def replaceValidator (n : Fin 24) (serial : BitVec 64) (c : Capability) (s : State) : State :=
  let kept := (s.slot n).kept
  let s := takeCapability n c (s.modSlot n fun v => { v with serial := serial })
  let s := forceReload n (clearRepair n s)
  let s := s.modSlot n fun v =>
    { v with
      heldId := 0, unconfirmed := false, replaced := true, window := some windowTime
      heldActive := match kept with
        | some st => st.active
        | none => v.heldActive
      heldPending := match kept with
        | some st => st.pending
        | none => v.heldPending }
  rosterEvent n (identified n s)

/-- A serial that another bound slot records, or another serial than the one recorded (R79). -/
def judgeSerial (n : Fin 24) (serial : BitVec 64) (c : Capability) (s : State) : State :=
  let v := s.slot n
  let other := (s.holders serial).any fun m => m ≠ n
  if v.serial = serial ∨ (v.serial = 0 ∧ other = false) then acceptIdent n serial c s
  else if v.frozen && decide (v.serial ≠ 0) then
    quarantine n .identity (s.modSlot n fun v => { v with serialSeen := serial })
  else if v.window.isSome && decide (v.serial ≠ 0) then
    quarantine n .clash (s.modSlot n fun v => { v with serial := serial, window := none })
  else if other then quarantine n .clash (s.modSlot n fun v => { v with serial := serial })
  else replaceValidator n serial c s

/-- A fit IDENT in IDENTIFYING (R78, R79); in any other state it is discarded. -/
def takeIdent (_ : Exchange) (content : List Byte) (n : Fin 24) (s : State) : State :=
  if (s.slot n).state = .identifying then judgeSerial n (identSerial content) (identCapability content) s else s

/-- Discovery binds a new serial to the lowest VACANT slot (R90). -/
def bindFound (n : Fin 24) (b : Fin 4 × Nat) (serial : BitVec 64) (c : Capability) (side : Side) (s : State) :
    State :=
  let s := s.setSlot n { Slot.cold with
    state := .behind, binding := some b, mode := .learned, serial := serial, reach := side, keepalive := some 0 }
  rosterEvent n (reevaluate n (takeCapability n c s))

/-- A LEARNED slot in SILENT follows its validator to another address (R90). An exchange still running at the old address
is taken for the slot as rebound (log 51). -/
def rebindFound (n : Fin 24) (b : Fin 4 × Nat) (c : Capability) (side : Side) (s : State) : State :=
  let s := s.modSlot n fun v => { v with binding := some b, reach := side, keepalive := some 0 }
  let s := if (s.slot n).frozen then refreshServed n s else takeCapability n c s
  rosterEvent n (identified n s)

/-- The duplicate flag of a slot whose serial answered elsewhere (R90). -/
def markDuplicate (n : Fin 24) (s : State) : State :=
  if (s.slot n).duplicate then s else rosterNote n (s.modSlot n fun v => { v with duplicate := true })

/-- The roster is full (R90): the flag, and one notice in each sweep, after the summary record that shows the flag; a flag
shown already asks for no rewrite (R201). -/
def rosterFull (l : Fin 4) (s : State) : State :=
  let shown := s.roster.full && !s.report.wanted[summaryRec]
  let s := { s with roster := { s.roster with full := true } }
  if (s.lineRoster l).fullNoticed then s
  else
    let s := s.modLineRoster l fun r => { r with fullNoticed := true }
    if shown then raise .roster s else raiseAfter .roster [summaryRec] s

/-- A fit IDENT to a discovery visit (R90). -/
def discovered (l : Fin 4) (ex : Exchange) (content : List Byte) (s : State) : State :=
  let b := (s.actingLine l, ex.addr)
  let serial := identSerial content
  let c := identCapability content
  if (s.slotAt l ex.addr).isSome then s
  else
    match s.holders serial with
    | [] =>
      (match allSlots.find? fun n => (s.slot n).state = .vacant with
       | some n => bindFound n b serial c ex.side s
       | none => rosterFull (s.actingLine l) s)
    | [m] =>
      if (s.slot m).mode = .learned ∧ (s.slot m).state = .silent then rebindFound m b c ex.side s
      else markDuplicate m s
    | ms => forSlots markDuplicate ms s

/-- IDENT (R122): by R90 to a discovery visit, by R78 and R79 to an IDENTIFYING slot. -/
def execIdent (l : Fin 4) (s : State) : Out :=
  scheduled s fun s =>
    match s.replyHeld l Code.ident with
    | some (ex, content) =>
      if ex.work = .discovery then discovered l ex content (overExchange l ex s)
      else takeReply l Code.ident takeIdent s
    | none => s

/-! ## ACCEPT and REFUSE (R126) -/

/-- The pages of an edition whose mask bit is clear (R153). -/
def clearBits (mask : BitVec 64) (total : Nat) : List Nat := (List.range total).filter fun k => !mask.getLsbD k

/-- What the roster records at an ACCEPT (R126). -/
def recordAccept (n : Fin 24) (d : Delivery) (mask : BitVec 64) (s : State) : State :=
  match d.mode with
  | .reload => s.modSlot n fun v => { v with heldId := d.identity, heldH := 0 }
  | .stage | .install => s.modSlot n fun v => { v with heldPending := some ⟨d.edition, false, mask⟩ }
  | .delta | .repair => s

/-- A fit ACCEPT (R126): the delivery is open, its tally 0. -/
def takeAccept (_ : Exchange) (content : List Byte) (n : Fin 24) (s : State) : State :=
  match s.delivery n with
  | none => s
  | some d =>
    let mask := acceptMask content
    let alone := (s.groupOf n).isNone
    let s := s.setDelivery n (some { d with
      phase := .opened, tallyCount := 0, tallySum := 0, mask := mask
      rest := if d.mode.isBlocklist || !alone then d.rest else clearBits mask d.total })
    memberOpened n (reevaluate n (recordAccept n d mask s))

/-- ACCEPT (R126). -/
def execAccept (l : Fin 4) (s : State) : Out := scheduled s fun s => takeReply l Code.accept takeAccept s

/-- A REFUSE with IDENTITY that turns the next blocklist delivery into a RELOAD (R126, R130): to a DELTA or REPAIR OPEN,
to a blocklist PAGE or VOID, to a CHECK. -/
def refusalReloads (w : Work) (mode : Mode) : Bool :=
  match w with
  | .openTo _ _ => decide (mode = .delta) || decide (mode = .repair)
  | _ => mode.isBlocklist

/-- What a REFUSE does to a delivery (R126, R130, R140). -/
def refused (w : Work) (reason : Nat) (n : Fin 24) (s : State) : State :=
  match s.delivery n with
  | none => s
  | some d =>
    if reason = 4 then quarantine n .store (endDelivery n s)
    else if reason = 1 ∧ refusalReloads w d.mode = true then reevaluate n (forceReload n (endDelivery n s))
    else deliveryFailure n s

/-- A fit REFUSE (R126). -/
def takeRefuse (ex : Exchange) (content : List Byte) (n : Fin 24) (s : State) : State :=
  refused ex.work (refuseReason content) n s

/-- Every REFUSE is counted, a withdrawn purpose included (R75, R126). -/
def countRefusal (l : Fin 4) (s : State) : State :=
  match s.replyHeld l Code.refuse with
  | some (ex, _) => onSlot ex (fun n s => count n (fun k => { k with refusals := satInc k.refusals }) s) s
  | none => s

/-- REFUSE (R126). -/
def execRefuse (l : Fin 4) (s : State) : Out :=
  scheduled s fun s => takeReply l Code.refuse takeRefuse (countRefusal l s)

/-! ## PAGE ACK (R130, R131, R176) -/

/-- A repaired page leaves the repair list (R176). -/
def repairSent (n : Fin 24) (p : Nat) (s : State) : State :=
  s.setSweep n { s.sweep n with list := (s.sweep n).list.erase p }

/-- A fit PAGE ACK (R130): with the CRC of the page sent the frame counts; otherwise the delivery fails. -/
def takePageAck (ex : Exchange) (content : List Byte) (n : Fin 24) (s : State) : State :=
  match s.delivery n, ex.page with
  | some d, some r =>
    if ackCrc content = r.ackCrc then
      (if d.mode = .repair then repairSent n r.page else id) (countPage n r s)
    else
      deliveryFailure n (count n (fun k => { k with tallyFailures := satInc k.tallyFailures }) s)
  | _, _ => s

/-- PAGE_ACK (R130). -/
def execPageAck (l : Fin 4) (s : State) : Out := scheduled s fun s => takeReply l Code.pageAck takePageAck s

/-! ## CLOSE ACK (R135, R170) -/

/-- A mask with bits 0 to `total` - 1 set (R74). -/
def fullMask (total : Nat) : BitVec 64 := BitVec.ofNat 64 (2 ^ total - 1)

/-- The verdict a CLOSE ACK carries. -/
def verdictOf (c : List Byte) : Verdict :=
  if fieldAt c 1 1 = 1 then .isMatch else if fieldAt c 1 1 = 2 then .mismatch else .unchecked

/-- The echoed tally equals the one the CLOSE carried (R170). -/
def echoedTally (c : List Byte) (d : Delivery) : Bool :=
  decide (fieldAt c 2 2 = d.tallyCount.toNat) && decide (fieldAt c 4 4 = d.tallySum.toNat)

/-- The solo mark and the consecutive failures after a COMMITTED close (R82, R162). The failures go to 0 but where `keep` holds:
at a close whose MISMATCH ends a repair (log 65). -/
def committed (keep : Bool) (n : Fin 24) (s : State) : State :=
  (s.modSlot n fun v => { v with failures := if keep then v.failures else 0 }).modMarks n fun m =>
    { m with solo := false }

/-- A blocklist close COMMITTED (R135, R170): held identity and H = T, the failures to 0, then the verify unit, then the roster.
A close taken as MISMATCH that ends a repair leaves the failures as they are, so that those of R178 reach the quarantine
limit (log 65). -/
def commitBlocklist (n : Fin 24) (d : Delivery) (v : Verdict) (s : State) : State :=
  let s := s.modSlot n fun v => { v with reload := if d.mode = .reload then false else v.reload }
  let s := s.modSlot n fun v =>
    { v with heldId := d.identity, heldH := s.recordedH v d.identity d.target }
  want (rosterRec n) (reevaluate n (judgeCommit n d v (dropDelivery n (committed (d.failedRepair v) n s))))

/-- An edition close COMMITTED (R74, R135): the delivered edition is held active when its CLOSE carried MAKE ACTIVE, and
otherwise complete as pending, whatever the delivery has become since the CLOSE (log 52). -/
def commitEdition (n : Fin 24) (d : Delivery) (s : State) : State :=
  let s := s.modSlot n fun v =>
    if d.makeActive then
      { v with
        heldActive := d.edition
        heldPending := match v.heldPending with
          | some p => if p.edition.number = d.edition.number then none else some p
          | none => none }
    else { v with heldPending := some ⟨d.edition, true, fullMask d.total⟩ }
  let s := s.modSlot n fun v => { v with unconfirmed := s.stillUnconfirmed v }
  want (rosterRec n) (reevaluate n (dropDelivery n (committed false n s)))

/-- A close that ended in TALLY (R135, R162, R177). -/
def closeTally (n : Fin 24) (d : Delivery) (s : State) : State :=
  let s := count n (fun k => { k with tallyFailures := satInc k.tallyFailures }) s
  let s := if (s.groupOf n).isSome then s.modMarks n fun m => { m with solo := true } else s
  countFailure n (judgeRefused n d (dropDelivery n s))

/-- A fit CLOSE ACK (R135): 1 COMMITTED, 2 TALLY, otherwise NOT_OPEN. -/
def takeCloseAck (_ : Exchange) (content : List Byte) (n : Fin 24) (s : State) : State :=
  match s.delivery n with
  | none => s
  | some d =>
    if fieldAt content 0 1 = 1 then
      if d.mode.isBlocklist then
        commitBlocklist n d (if echoedTally content d then verdictOf content else .mismatch) s
      else commitEdition n d s
    else if fieldAt content 0 1 = 2 then closeTally n d s
    else judgeRefused n d (dropDelivery n s)

/-- CLOSE_ACK (R135). -/
def execCloseAck (l : Fin 4) (s : State) : Out := scheduled s fun s => takeReply l Code.closeAck takeCloseAck s

/-! ## CHECK REPORT (R136, R175) -/

/-- A fit CHECK REPORT: compared, or held while the image is changing (R175). -/
def takeCheckReport (_ : Exchange) (content : List Byte) (n : Fin 24) (s : State) : State :=
  let h : HeldReport := ⟨fieldAt content 0 2, reportCrcs content⟩
  match s.delivery n with
  | some d =>
    if d.mode ≠ .repair then s
    else if s.change.changing then s.setSweep n { s.sweep n with held := some h }
    else compareReport n h s
  | none => s

/-- CHECK_REPORT (R175). -/
def execCheckReport (l : Fin 4) (s : State) : Out :=
  scheduled s fun s => takeReply l Code.checkReport takeCheckReport s

/-! ## BUSY (R119) -/

/-- What a BUSY leaves of the work it answers (R119, R145, R150): an OPEN's record is discarded, a CLOSE returns to
OPEN and takes what waited to be inserted, a page stays at the front. -/
def busyWork (w : Work) (n : Fin 24) (s : State) : State :=
  match w with
  | .openTo _ _ => dropDelivery n s
  | .page _ => s.modDelivery n fun d => { d with inFlight := none }
  | .close _ => s.modDelivery n fun d => { d.insert d.late with phase := .opened, late := [] }
  | _ => s

/-- A keep-alive POLL or an IDENTIFY to an IDENTIFYING slot answered BUSY is due again after 100 ms (R77, R119, R158); a discovery
visit is not (log 73). -/
def busyDue (w : Work) (n : Fin 24) (s : State) : State :=
  match w with
  | .poll _ => s.modSlot n fun v => { v with keepalive := some busyTime }
  | .identify _ =>
    s.modSlot n fun v => { v with identify := if v.state = .identifying then some busyTime else v.identify }
  | _ => s

/-- BUSY counts and closes the slot for 100 ms even when the purpose was withdrawn (R119). -/
def countBusy (n : Fin 24) (s : State) : State :=
  backOff n busyTime (count n (fun k => { k with busy := satInc k.busy }) s)

/-- A BUSY is taken (R119). To a discovery visit it ends the visit, whose good reply has cleared the garble count of the address
(R91), and makes nothing due: the address is visited again in the next sweep (R89; log 73). -/
def takeBusy (l : Fin 4) (s : State) : State :=
  match s.replyHeld l Code.busy with
  | none => s
  | some (ex, _) =>
    let s := overExchange l ex s
    match ex.slot with
    | none => s
    | some n =>
      let s := setKeepalive n (countBusy n s)
      if ex.withdrawn then s else busyDue ex.work n (busyWork ex.work n s)

/-- BUSY (R119). -/
def execBusy (l : Fin 4) (s : State) : Out := scheduled s fun s => takeBusy l s

end Sys2Proof.Machine
end

