-- ==== Sys2Proof/Machine/Timers.lean ====
section
/-! DEFINITION. The expiries of the roster's and the ports' timers (R77, R79, R89, R92, R93, R115). An expiry command
means that the time has run out, whatever time the state has left (log 8). -/

namespace Sys2Proof.Machine

/-- The line of a slot is not OFF. -/
def State.slotLineOn (s : State) (n : Fin 24) : Bool :=
  match s.lineOf n with
  | some l => s.lineOn l
  | none => false

/-- KEEPALIVE_DUE (R92): the keep-alive POLL falls due; the time counts in RUNNING, on a line that is not OFF (R94). -/
def execKeepaliveDue (n : Fin 24) (s : State) : Out :=
  scheduled s fun s =>
    if s.running && s.slotLineOn n && (s.slot n).keepalive.isSome then pollNow n s else s

/-- BACKOFF_EXPIRY (R93): the expiry passes and becomes none. -/
def execBackoffExpiry (n : Fin 24) (s : State) : Out :=
  scheduled s fun s => if s.running then s.modSlot n fun v => { v with backoff := none } else s

/-- REPLACEMENT_WINDOW_CLOSE (R79): the 10 minutes are out, in every engine state. -/
def execReplacementWindowClose (n : Fin 24) (s : State) : Out :=
  recorded s fun s => s.modSlot n fun v => { v with window := none }

/-- IDENTIFY_DUE (R77): the IDENTIFY of an IDENTIFYING slot falls due; the time counts in RUNNING (log 68). -/
def execIdentifyDue (n : Fin 24) (s : State) : Out :=
  scheduled s fun s =>
    if s.running && decide ((s.slot n).state = .identifying) && (s.slot n).identify.isSome then
      s.modSlot n fun v => { v with identify := some 0 }
    else s

/-- The discovery period (R89). -/
def visitPeriod : Time := 250 * Config.ms

/-- DISCOVERY_VISIT_DUE (R89): a visit falls due on every line that is not OFF; one not made stays one. -/
def execDiscoveryVisitDue (s : State) : Out :=
  scheduled s fun s =>
    if s.running then
      forLines (fun l s =>
        if s.lineOn l then s.modArbiter l fun a => { a with discoveryDue := true } else s) allLines
        { s with roster := { s.roster with visitLeft := visitPeriod } }
    else s

/-- LINE_RECORD_TIMER (R115): the line record is rewritten for what changed 250 ms ago. -/
def execLineRecordTimer (l : Fin 4) (s : State) : Out :=
  recorded s fun s =>
    if s.working && (s.port l).recordTimer.isSome then
      want (lineRec l) (s.modPort l fun p => { p with recordTimer := none })
    else s

end Sys2Proof.Machine
end

