-- ==== Sys2Proof/Machine/Tick.lean ====
section
/-! DEFINITION. What the part does of itself when no command waits (log 4): its own next step, or one cycle of the
25 MHz reference (R210). -/

namespace Sys2Proof.Machine

/-! ## The part's own next step -/

/-- The command that takes a reply of a code. -/
def replyCommand (l : Fin 4) (code : Byte) : Option Instr :=
  if code = Code.status then some (.status l)
  else if code = Code.ident then some (.ident l)
  else if code = Code.accept then some (.accept l)
  else if code = Code.refuse then some (.refuse l)
  else if code = Code.pageAck then some (.pageAck l)
  else if code = Code.closeAck then some (.closeAck l)
  else if code = Code.checkReport then some (.checkReport l)
  else if code = Code.busy then some (.busy l)
  else none

/-- The first record due a rewrite. -/
def State.recordReady (s : State) : Option Instr :=
  ((List.finRange 29).find? fun r => s.report.wanted[r]).map .reportRewrite

/-- The request command of a kind. -/
def requestCommand (t : Strip) (k : Nat) : Option Instr :=
  if k = Kind.applyChanges then some (.applyChanges t)
  else if k = Kind.formatImage then some (.formatImage t)
  else if k = Kind.rebuildImage then some (.rebuildImage t)
  else if k = Kind.loadEdition then some (.loadEdition t)
  else if k = Kind.rescheduleEdition then some (.rescheduleEdition t)
  else if k = Kind.withdrawEdition then some (.withdrawEdition t)
  else if k = Kind.setClock then some (.setClock t)
  else if k = Kind.pinSlot then some (.pinSlot t)
  else if k = Kind.freeSlot then some (.freeSlot t)
  else if k = Kind.releaseSlot then some (.releaseSlot t)
  else if k = Kind.resyncSlot then some (.resyncSlot t)
  else if k = Kind.clearCounters then some (.clearCounters t)
  else if k = Kind.setLine then some (.setLine t)
  else if k = Kind.setProfile then some (.setProfile t)
  else none

/-- A request that is acted on at once waits for no job (R191). -/
def State.atOnceReady (s : State) (t : Strip) : Option Instr :=
  match s.heldRequest t with
  | some r => if s.mayTake t .atOnce r.kind && decide (ownerOf r.kind = some .atOnce) then requestCommand t r.kind else none
  | none => none

/-- The request of a strip, when its owner may take it up. -/
def State.requestReady (s : State) (t : Strip) : Option Instr :=
  match s.heldRequest t with
  | none => none
  | some r =>
    match ownerOf r.kind with
    | none => none
    | some o =>
      if s.mayTake t o r.kind || (decide (r.kind = Kind.applyChanges) && s.mayApply t) then requestCommand t r.kind
      else none

/-- The next step of the change engine's running job, with the number of steps it has made. -/
def State.changeStep (s : State) : Option (Nat × Instr) :=
  match s.change.batch, s.change.format, s.change.rebuild with
  | some b, _, _ => some (b.next, if b.next < b.count then .changeItem else .batchEnd)
  | none, some _, _ => some (0, .formatSwitch)
  | none, none, some r =>
    if s.sliceReady then some ((r.cleared + s.change.copyCursor + r.finished) / slicePages, .rebuildSlice) else none
  | none, none, none => none

/-- The next step of the edition manager's running job, with the number of steps it has made. -/
def State.editionStep (s : State) : Option (Nat × Instr) := s.editions.load.map fun l => (l.next, .productRecord)

/-- The next step of a running job: the two owners' jobs go on side by side, in turns (R191; log 4). -/
def State.jobReady (s : State) : Option Instr :=
  match s.changeStep, s.editionStep with
  | some (i, c), some (j, e) => some (if (i + j) % 2 = 0 then c else e)
  | some (_, c), none => some c
  | none, some (_, e) => some e
  | none, none => none

/-- The frame of an exchange may start (R101), or there is none to start. -/
def State.startMet (s : State) (l : Fin 4) (w : Work) : Bool :=
  match s.requestFrame l w with
  | some f => s.idleMet l f.rate
  | none => true

/-- What a line does next of itself: take a reply, start a frame, change its mode. -/
def State.lineReady (s : State) (l : Fin 4) : Option Instr :=
  let p := s.port l
  match p.reply with
  | some r => replyCommand l r.code
  | none =>
    if s.modeWaits l && s.modeReady l then some (.lineModeChangeApplied l)
    else
      match p.exchange with
      | some ex =>
        if !ex.started && decide (p.xstate = .idle) && s.startMet l ex.work then some (.frameStart l) else none
      | none => none

/-- The next step of STARTING (R205). -/
def State.startReady (s : State) : Option Instr :=
  if s.exch.descriptor.isNone then some .descriptorRead
  else match s.recordReady with
    | some c => some c
    | none => some .startingEnd

/-- The next step of a part that is RUNNING or STOPPING. A request waits for no job of another owner (R191), and no line
waits for a job. -/
def State.workReady (s : State) : Option Instr :=
  s.recordReady.or <| (s.atOnceReady .priority).or <| (s.atOnceReady .routine).or <|
    (allLines.findSome? s.lineReady).or <| (s.requestReady .priority).or <|
    (if s.mayPurge then some .purgeJob else none).or <| (s.requestReady .routine).or <| s.jobReady.or <|
    (if s.engine = .stopping ∧ s.drained = true then some .drainComplete else none)

/-- The part's own next step, if it has one. -/
def State.ready (s : State) : Option Instr :=
  if s.resetLow then none
  else if s.engine = .starting then s.startReady
  else if s.working then s.workReady
  else none

/-! ## Time passes (R210): `dt` is no longer than any running timer has left, one cycle in the machine -/

/-- A time left after `dt`. -/
def elapse (dt t : Time) : Time := t - dt

/-- A time left runs out within `dt`. -/
def runsOut (dt t : Time) : Bool := decide (0 < t) && decide (t ≤ dt)

/-- The command of a timer that runs out within `dt`. -/
def onExpiry (dt : Time) (counts : Bool) (t : Option Time) (c : Instr) : List Instr :=
  match t with
  | some t => if counts && runsOut dt t then [c] else []
  | none => []

/-- The expiries of a slot's timers (R77, R79, R92, R93). That the time until an IDENTIFY answered BUSY counts in RUNNING only
is the model's choice (log 68). -/
def State.slotExpiries (s : State) (dt : Time) (n : Fin 24) : List Instr :=
  let v := s.slot n
  onExpiry dt s.running v.backoff (.backoffExpiry n) ++
  onExpiry dt (s.running && s.slotLineOn n) v.keepalive (.keepaliveDue n) ++
  onExpiry dt s.running v.identify (.identifyDue n) ++
  onExpiry dt true v.window (.replacementWindowClose n)

/-- A slot's timers after `dt`: the replacement window counts in every engine state (R79), keep-alive and backoff in RUNNING
(R92, R93, R95). That the 100 ms until an IDENTIFY answered BUSY is due again (R77) counts in RUNNING only is the model's
choice (log 68). -/
def State.slotElapsed (s : State) (dt : Time) (n : Fin 24) : Slot :=
  let v := s.slot n
  { v with
    backoff := if s.running then v.backoff.map (elapse dt) else v.backoff
    keepalive := if s.running && s.slotLineOn n then v.keepalive.map (elapse dt) else v.keepalive
    identify := if s.running then v.identify.map (elapse dt) else v.identify
    window := v.window.map (elapse dt) }

/-- The expiries of a port's timers (R106, R108, R110, R115). -/
def State.portExpiries (s : State) (dt : Time) (l : Fin 4) : List Instr :=
  let p := s.port l
  (match p.xstate with
   | .sending => if p.sendLeft ≤ dt then [.frameSent l] else []
   | .awaiting => if p.replyLeft ≤ dt then [.replyTimeout l] else []
   | .gap => if p.gapLeft ≤ dt ∧ p.reply = none then [.gapEnd l] else []
   | .idle | .receiving _ => []) ++
  onExpiry dt s.working p.recordTimer (.lineRecordTimer l)

/-- A port's timers after `dt`, and the time its line has been idle (R101). -/
def State.portElapsed (s : State) (dt : Time) (l : Fin 4) : Port :=
  let p := s.port l
  { (match p.xstate with
      | .idle | .awaiting | .gap => idleFor dt p
      | .sending | .receiving _ => p) with
    sendLeft := if p.xstate = .sending then elapse dt p.sendLeft else p.sendLeft
    replyLeft := if p.xstate = .awaiting then elapse dt p.replyLeft else p.replyLeft
    gapLeft := if p.xstate = .gap then elapse dt p.gapLeft else p.gapLeft
    recordTimer := if s.working then p.recordTimer.map (elapse dt) else p.recordTimer }

/-- The service clock after `dt`, and the minute tick if the 60th second is out (R64). -/
def Clock.passed (c : Clock) (dt : Time) : Clock × List Instr :=
  if !c.isSet || c.stopped then (c, [])
  else if c.part + dt < Config.second then ({ c with part := c.part + dt }, [])
  else if c.seconds < 59 then ({ c with seconds := c.seconds + 1, part := 0 }, [])
  else (c, [.minuteTick])

/-- The commands that fall due within `dt`. The slots' timers come before the lines': an exchange that ends in the same cycle
sets the slot's due time and expiry anew, and the new ones stand (R92, R93; log 4). -/
def State.expiries (s : State) (dt : Time) : List Instr :=
  (s.clock.passed dt).2 ++
  onExpiry dt s.running s.exch.scanTimer .scanIntervalExpiry ++
  (if s.running && runsOut dt s.roster.visitLeft then [.discoveryVisitDue] else []) ++
  allSlots.flatMap (s.slotExpiries dt) ++ allLines.flatMap (s.portExpiries dt)

/-- `dt` passes. -/
def State.passed (s : State) (dt : Time) : State :=
  { s with
    clock := (s.clock.passed dt).1
    exch := { s.exch with scanTimer := if s.running then s.exch.scanTimer.map (elapse dt) else s.exch.scanTimer }
    roster := { s.roster with
      slots := Vector.ofFn (s.slotElapsed dt)
      visitLeft := if s.running then elapse dt s.roster.visitLeft else s.roster.visitLeft }
    ports := Vector.ofFn (s.portElapsed dt)
    pending := s.expiries dt }

/-- What the part does with no command waiting (log 4): its own next step is queued, or a cycle passes. With the reset pin
low nothing happens. -/
def idle (s : State) : State :=
  if s.resetLow then s
  else
    match s.ready with
    | some c => { s with pending := [c] }
    | none => s.passed Config.cycle

end Sys2Proof.Machine
end

