-- ==== Sys2Proof/Machine/Dispatch.lean ====
section
/-! DEFINITION. The dispatch: one arm for each command. -/

namespace Sys2Proof.Machine

def exec (i : Instr) (s : State) : Host.Outcome State Fault Refusal :=
  match i with
  | .powerOn => Sys2Proof.Machine.execPowerOn s
  | .run value => Sys2Proof.Machine.execRun value s
  | .restart value => Sys2Proof.Machine.execRestart value s
  | .registerWrite offset value stores => Sys2Proof.Machine.execRegisterWrite offset value stores s
  | .kick value => Sys2Proof.Machine.execKick value s
  | .eventsClear value => Sys2Proof.Machine.execEventsClear value s
  | .evmaskWrite value => Sys2Proof.Machine.execEvmaskWrite value s
  | .descriptorRead => Sys2Proof.Machine.execDescriptorRead s
  | .startingEnd => Sys2Proof.Machine.execStartingEnd s
  | .drainComplete => Sys2Proof.Machine.execDrainComplete s
  | .memoryError access => Sys2Proof.Machine.execMemoryError access s
  | .scanIntervalExpiry => Sys2Proof.Machine.execScanIntervalExpiry s
  | .applyChanges strip => Sys2Proof.Machine.execApplyChanges strip s
  | .changeItem => Sys2Proof.Machine.execChangeItem s
  | .batchEnd => Sys2Proof.Machine.execBatchEnd s
  | .formatImage strip => Sys2Proof.Machine.execFormatImage strip s
  | .formatSwitch => Sys2Proof.Machine.execFormatSwitch s
  | .rebuildImage strip => Sys2Proof.Machine.execRebuildImage strip s
  | .rebuildSlice => Sys2Proof.Machine.execRebuildSlice s
  | .purgeJob => Sys2Proof.Machine.execPurgeJob s
  | .loadEdition strip => Sys2Proof.Machine.execLoadEdition strip s
  | .productRecord => Sys2Proof.Machine.execProductRecord s
  | .rescheduleEdition strip => Sys2Proof.Machine.execRescheduleEdition strip s
  | .withdrawEdition strip => Sys2Proof.Machine.execWithdrawEdition strip s
  | .setClock strip => Sys2Proof.Machine.execSetClock strip s
  | .minuteTick => Sys2Proof.Machine.execMinuteTick s
  | .pinSlot strip => Sys2Proof.Machine.execPinSlot strip s
  | .freeSlot strip => Sys2Proof.Machine.execFreeSlot strip s
  | .releaseSlot strip => Sys2Proof.Machine.execReleaseSlot strip s
  | .resyncSlot strip => Sys2Proof.Machine.execResyncSlot strip s
  | .clearCounters strip => Sys2Proof.Machine.execClearCounters strip s
  | .setLine strip => Sys2Proof.Machine.execSetLine strip s
  | .setProfile strip => Sys2Proof.Machine.execSetProfile strip s
  | .lineModeChangeApplied line => Sys2Proof.Machine.execLineModeChangeApplied line s
  | .keepaliveDue slot => Sys2Proof.Machine.execKeepaliveDue slot s
  | .backoffExpiry slot => Sys2Proof.Machine.execBackoffExpiry slot s
  | .replacementWindowClose slot => Sys2Proof.Machine.execReplacementWindowClose slot s
  | .discoveryVisitDue => Sys2Proof.Machine.execDiscoveryVisitDue s
  | .identifyDue slot => Sys2Proof.Machine.execIdentifyDue slot s
  | .lineRecordTimer line => Sys2Proof.Machine.execLineRecordTimer line s
  | .frameStart line => Sys2Proof.Machine.execFrameStart line s
  | .frameSent line => Sys2Proof.Machine.execFrameSent line s
  | .echoJudged line copy inTime => Sys2Proof.Machine.execEchoJudged line copy inTime s
  | .headerMark line side => Sys2Proof.Machine.execHeaderMark line side s
  | .frameReceived line bytes ending => Sys2Proof.Machine.execFrameReceived line bytes ending s
  | .replyTimeout line => Sys2Proof.Machine.execReplyTimeout line s
  | .gapEnd line => Sys2Proof.Machine.execGapEnd line s
  | .status line => Sys2Proof.Machine.execStatus line s
  | .ident line => Sys2Proof.Machine.execIdent line s
  | .accept line => Sys2Proof.Machine.execAccept line s
  | .refuse line => Sys2Proof.Machine.execRefuse line s
  | .pageAck line => Sys2Proof.Machine.execPageAck line s
  | .closeAck line => Sys2Proof.Machine.execCloseAck line s
  | .checkReport line => Sys2Proof.Machine.execCheckReport line s
  | .busy line => Sys2Proof.Machine.execBusy line s
  | .reportRewrite record => Sys2Proof.Machine.execReportRewrite record s
  | .resetPinLow => Sys2Proof.Machine.execResetPinLow s

end Sys2Proof.Machine
end

