-- ==== Sys2Proof/Safety.lean ====
section
/-! DEFINITION. The terms the claims use: what a command leaves alone, what a completed request leaves in its strip slot,
and the invariants a safe run keeps. -/

namespace Sys2Proof.Machine

/-! ## Frames -/

/-- A port apart from its exchange in hand and its line record timer. -/
def Port.core (p : Port) : Port := { p with exchange := none, recordTimer := none }

/-- The state apart from what an exchange boundary may change (the scheduler, the sweeps, the exchanges handed to ports;
R142) and from what records a step makes due (the rewrites wanted, the line record timers; R115, R201). -/
def State.bare (s : State) : State :=
  { s with
    ports := s.ports.map Port.core, sched := .cold, sweeps := Vector.replicate 24 .cold
    report := { s.report with wanted := Vector.replicate 29 false } }

/-- `t` is `u` apart from shared memory, the two strips, EVENTS, what records are due, and what an exchange boundary
changes. With no port ready for an exchange the scheduler, the sweeps and the exchanges are the same too. -/
structure Kept (u t : State) : Prop where
  run : t.regs.run = u.regs.run
  xbase : t.regs.xbase = u.regs.xbase
  evmask : t.regs.evmask = u.regs.evmask
  engine : t.engine = u.engine
  resetLow : t.resetLow = u.resetLow
  descriptor : t.exch.descriptor = u.exch.descriptor
  scanTimer : t.exch.scanTimer = u.exch.scanTimer
  change : t.change = u.change
  editions : t.editions = u.editions
  clock : t.clock = u.clock
  roster : t.roster = u.roster
  profiles : t.profiles = u.profiles
  pending : t.pending = u.pending
  counts : t.report.counts = u.report.counts
  waiting : t.report.waiting = u.report.waiting
  wanted : ∀ r : Fin 29, u.report.wanted[r] = true → t.report.wanted[r] = true
  ports : ∀ l, (t.port l).core = (u.port l).core
  quiet : (∀ l, u.portReady l = false) →
    t.sched = u.sched ∧ t.sweeps = u.sweeps ∧ ∀ l, (t.port l).exchange = (u.port l).exchange

/-- `t` is `u` after its exchange boundaries: every register, every byte of shared memory and both strips are the same
too. -/
structure Settled (u t : State) : Prop extends Kept u t where
  events : t.regs.events = u.regs.events
  mem : t.mem = u.mem
  priority : t.exch.priority = u.exch.priority
  routine : t.exch.routine = u.exch.routine

/-- A byte of a strip slot that the part may write: the mark and the outcome fields, bytes 0 and 4-7 (R188). -/
def partByte (i : Nat) : Bool := i = 0 || (4 ≤ i && i ≤ 7)

/-- Address `a` is none of the bytes of strip `t` that the part may write. -/
def State.outsideStrip (s : State) (t : Strip) (a : Nat) : Bool :=
  decide (a < s.stripAddr t) || decide (s.stripAddr t + 64 * s.stripCount t ≤ a) ||
  !partByte ((a - s.stripAddr t) % 64)

/-- The strip slot that strip `t` held in `u` is completed in `t'` with result `r` (R192): the outcome fields and DONE are in
memory, memory outside the bytes of the strip that the part writes is the same, no notice but DONE changed, and DONE is raised
if notify was set. -/
structure Completed (t : Strip) (r : Result) (u t' : State) : Prop where
  mark : Memory.read t'.mem (u.slotAddr t) = 3
  outcome : Memory.read t'.mem (u.slotAddr t + 4) = r.outcome
  clamp : Memory.read t'.mem (u.slotAddr t + 5) = if r.clamp then 1 else 0
  detailLow : Memory.read t'.mem (u.slotAddr t + 6) = BitVec.ofNat 8 r.detail
  detailHigh : Memory.read t'.mem (u.slotAddr t + 7) = BitVec.ofNat 8 (r.detail / 256)
  elsewhere : ∀ a, u.outsideStrip t a = true → Memory.read t'.mem a = Memory.read u.mem a
  other : t'.strip (otherStrip t) = u.strip (otherStrip t)
  notices : ∀ i, 1 ≤ i → t'.regs.events.getLsbD i = u.regs.events.getLsbD i
  done : ∀ req h f, (u.strip t).scan = .holding req h f → req.notify = true → t'.regs.events.getLsbD 0 = true

/-- Strip `t` holds a request of kind `k` that its owner `o` may take up now, in a part whose reset pin is high and whose
memory has its canonical form; its position lies in the strip. -/
def State.canTake (s : State) (t : Strip) (o : Owner) (k : Nat) : Prop :=
  s.resetLow = false ∧ s.mayTake t o k = true ∧ (s.strip t).position < s.stripCount t ∧ Memory.wf s.mem = true

/-- Strip `t`'s request completes with result `r` and no other effect: its slot holds the result, and everything but that
strip, the notices and the exchange boundary is as in `u`. -/
def Answers (t : Strip) (r : Result) (u t' : State) : Prop := Completed t r u t' ∧ Kept u t'

/-- The backoff of a slot after an event that closes it for a time `t` (R93): the later of its own and `t`. -/
def Slot.closedFor (v : Slot) (t : Time) : Option Time := some (max (v.backoff.getD 0) t)

/-- A slot `v` of line `l` after an exchange `ex` to it that was a miss (R77, R81, R92, R93, R112): the misses counter but in
SILENT, one keep-alive interval of backoff, the reach side on a broken loop; IDENTIFYING, and BEHIND or CURRENT at the
miss limit, go SILENT. -/
def State.afterMiss (s : State) (l : Fin 4) (ex : Exchange) (v : Slot) : Slot :=
  let p := s.profileOf l
  let interval := p.keepalive * (250 * Config.ms)
  let counted : Prop := v.state = .behind ∨ v.state = .current
  let limit : Prop := counted ∧ p.missLimit ≤ v.misses + 1
  let silent : Prop := v.state = .identifying ∨ limit
  { v with
    counters := { v.counters with
      misses := if v.state = .silent then v.counters.misses else min (v.counters.misses + 1) 65535 }
    backoff := v.closedFor interval
    reach := if s.brokenLoop l then otherSide ex.side else v.reach
    state := if silent then .silent else v.state
    misses := if limit then 0 else if counted then v.misses + 1 else v.misses
    keepalive := if silent ∨ v.state = .silent then some (4 * interval) else some interval
    kept := if silent then none else v.kept
    identify := if silent then none else v.identify }

/-- Slot `m` of line `l` is suspect at an address other than `a` (R83): its garble run has reached 4. -/
def State.suspectAt (s : State) (l : Fin 4) (a : Nat) (m : Fin 24) : Prop :=
  (s.slot m).garbleRun = 4 ∧ ∃ b, (s.slot m).binding = some (s.actingLine l, b) ∧ b ≠ a

/-- The garble run of slot `v` at address `a` after a garbled reply there, `last` being the last-exchange mark (R83). -/
def Slot.runAfter (v : Slot) (a : Nat) (last : Option (Nat × Bool)) : Nat :=
  if 4 ≤ v.garbleRun then 4
  else
    match last with
    | some (b, good) => if good = true ∧ b ≠ a then v.garbleRun + 1 else 0
    | none => 0

/-- The two strips share no byte. -/
def State.stripsApart (s : State) : Prop :=
  s.stripAddr .priority + 64 * s.stripCount .priority ≤ s.stripAddr .routine ∨
  s.stripAddr .routine + 64 * s.stripCount .routine ≤ s.stripAddr .priority

/-- Strip `t` of `u` has been visited in `t'` (R189, R191): in HOLDING, or with any mark but POSTED at its position, it is
passed over; a POSTED request of a kind in the table is taken; one of another kind completes with BAD_KIND. -/
structure Visited (t : Strip) (u t' : State) : Prop where
  passed : ((u.strip t).scan ≠ .stopped ∨ Memory.read u.mem (u.slotAddr t) ≠ 1) → t'.strip t = u.strip t ∧
    ∀ i, i < 64 * u.stripCount t → Memory.read t'.mem (u.stripAddr t + i) = Memory.read u.mem (u.stripAddr t + i)
  taken : (u.strip t).scan = .stopped → Memory.read u.mem (u.slotAddr t) = 1 →
    ownerOf ((Memory.read u.mem (u.slotAddr t + 1)).toNat % 128) ≠ none →
    Memory.read t'.mem (u.slotAddr t) = 2 ∧ (t'.strip t).position = (u.strip t).position ∧
    ∃ free, (t'.strip t).scan = .holding
      { kind := (Memory.read u.mem (u.slotAddr t + 1)).toNat % 128
        notify := (Memory.read u.mem (u.slotAddr t + 1)).getLsbD 7
        params := Memory.readBytes u.mem (u.slotAddr t + 8) 56 } true free
  unknown : (u.strip t).scan = .stopped → Memory.read u.mem (u.slotAddr t) = 1 →
    ownerOf ((Memory.read u.mem (u.slotAddr t + 1)).toNat % 128) = none →
    Memory.readBytes t'.mem (u.slotAddr t) 8 =
      3 :: Memory.readBytes u.mem (u.slotAddr t + 1) 3 ++ [Outcome.badKind, 0, 0, 0]

/-- A slot that the at-risk check counts lacks the pending edition (R63): it is IDENTIFYING, BEHIND or CURRENT, and it is
edition-incapable or does not hold the edition complete. -/
def State.lacksPending (s : State) (n : Fin 24) : Prop :=
  ((s.slot n).state = .identifying ∨ (s.slot n).state = .behind ∨ (s.slot n).state = .current) ∧
  ((s.slot n).edIncapable = true ∨
    ∀ m, (s.slot n).heldPending ≠ some ⟨⟨s.editions.pending.number, s.editions.pending.digest⟩, true, m⟩)

/-- The pending edition of `u` is due to activate (R60). -/
def State.dueNow (u : State) : Prop :=
  u.editions.pending.state = .pending ∧ u.clock.isSet = true ∧ u.editions.pending.effective.toNat ≤ u.clock.absolute

/-- The at-risk check of `u` finds the pending edition at risk (R63). -/
def State.riskNow (u : State) : Prop :=
  u.editions.pending.state = .pending ∧ u.clock.isSet = true ∧ u.editions.pending.warned = false ∧
  u.clock.absolute < u.editions.pending.effective.toNat ∧
  u.editions.pending.effective.toNat ≤ u.clock.absolute + 10 ∧ ∃ n, u.lacksPending n

/-- The tests of R60 and R63 on the edition slots, clock and roster of `u` have been made in `t`: the edition activates
(R61), or the warning is given, or both edition slots stay. EVENTS.EDITION waits for the summary record. -/
structure EditionTested (u t : State) : Prop where
  activates : u.dueNow →
    let p := u.editions.pending
    t.editions.active = ⟨true, p.number, p.total, p.crcs, p.digest, p.region⟩ ∧
    t.editions.pending = ⟨.empty, 0, 0, [], 0, 0, p.region.other, false, false⟩ ∧
    t.report.wanted[summaryRec] = true ∧ (⟨[summaryRec], .notice .edition⟩ : Waiting) ∈ t.report.waiting
  warns : u.riskNow →
    t.editions.active = u.editions.active ∧
    t.editions.pending = { u.editions.pending with warned := true, atRisk := true } ∧
    t.report.wanted[summaryRec] = true ∧ (⟨[summaryRec], .notice .edition⟩ : Waiting) ∈ t.report.waiting
  rests : ¬ u.dueNow → ¬ u.riskNow →
    t.editions.active = u.editions.active ∧ t.editions.pending = u.editions.pending

/-! ## When jobs are taken up (R33, R34, R42, R59) -/

/-- A job of owner `o` is over but for its outcome, which waits for a record (R31, R44, R56; log 48). -/
def State.outcomeWaits (s : State) (o : Owner) : Prop :=
  ∃ w ∈ s.report.waiting, ∃ u r q h f,
    w.act = .outcome u r ∧ (s.strip u).scan = .holding q h f ∧ ownerOf q.kind = some o

/-- Owner `o` runs a job (R33, R59), one whose outcome still waits for its record among them (log 48). -/
def State.busyWith (s : State) (o : Owner) : Prop :=
  match o with
  | .change => s.change.batch ≠ none ∨ s.change.format ≠ none ∨ s.change.rebuild ≠ none ∨ s.outcomeWaits .change
  | .edition => s.editions.load ≠ none ∨ s.outcomeWaits .edition
  | .atOnce => False

/-- A priority-strip request waits for owner `o`. -/
def State.priorityWaits (s : State) (o : Owner) : Prop :=
  ∃ q f, (s.strip .priority).scan = .holding q true f ∧ ownerOf q.kind = some o

/-- The commands that take up a request of strip `t`, each with its kind (R191). -/
def takingCommands (t : Strip) : List (Nat × Instr) :=
  [(0x01, .applyChanges t), (0x02, .formatImage t), (0x03, .rebuildImage t), (0x10, .loadEdition t),
   (0x11, .rescheduleEdition t), (0x12, .withdrawEdition t), (0x13, .setClock t), (0x20, .pinSlot t),
   (0x21, .freeSlot t), (0x22, .releaseSlot t), (0x23, .resyncSlot t), (0x24, .clearCounters t),
   (0x30, .setLine t), (0x31, .setProfile t)]

/-! ## A new image as lists (R27, R41, R43) -/

/-- The new image of a rebuild: entries and hot mark of each page, and the unplaced count. -/
structure NewImage where
  pages : List (List Entry × Bool)
  unplaced : Nat

/-- One entry copied (R41, R43): into the first page with room of its window under `P` and `seed`, which takes the hot mark
if the old page is hot; with no room it is counted. -/
def NewImage.place (P : Nat) (seed : Word) (hot : Bool) (m : NewImage) (e : Entry) : NewImage :=
  let room (q : Nat) : Bool := match m.pages[q]? with
    | some x => decide (x.1.length < 20)
    | none => false
  match (probeWindow e.key P seed).find? room with
  | some q => { m with pages := m.pages.modify q fun x => (insertEntry e x.1, x.2 || hot) }
  | none => { m with unplaced := m.unplaced + 1 }

/-- The new image as it stands in memory and the working table. -/
def State.newImage (s : State) (r : Rebuild) : NewImage :=
  let base := s.imageBase s.change.region.other
  { pages := r.table.mapIdx fun q w => (readEntries s.mem base q w.live, w.hot), unplaced := r.unplaced }

/-- Old page `p` copied: its live entries in the order of the page, hot if a priority batch changed the page during the rebuild. -/
def State.copiedInto (s : State) (r : Rebuild) (m : NewImage) (p : Nat) : NewImage :=
  match s.change.table[p]? with
  | some rec =>
    (readEntries s.mem (s.imageBase s.change.region) p rec.live).foldl
      (NewImage.place r.pages r.seed (decide (r.startG < rec.hot))) m
  | none => m

/-! ## Held reports, served rates, incapable flags (R73, R175) -/

/-- With no port ready for an exchange, every held CHECK REPORT of `u` has been compared with the stamp table of `t` (R175): the
differing pages join the repair list in ascending order, and the cursor passes the range. Every other sweep is as it was. -/
def HeldCompared (u t : State) : Prop :=
  (∀ l, u.portReady l = false) → ∀ n,
    ((u.sweep n).held = none → t.sweep n = u.sweep n) ∧
    ∀ h, (u.sweep n).held = some h → ∃ ps, ps.Pairwise (· < ·) ∧
      t.sweep n = { u.sweep n with
        cursor := h.first + h.crcs.length, list := (u.sweep n).list ++ ps, held := none } ∧
      ∀ p, p ∈ ps ↔ ∃ i c, h.crcs[i]? = some c ∧ p = h.first + i ∧ (t.change.table[p]?).map (·.crc) ≠ some c

/-- The served rate of slot `v` on a line of rate `line` (R73): the highest listed rate above neither the line's nor the
validator's; 19,200 baud without a capability record. -/
def Slot.servedAt (v : Slot) (line : Fin 7) : Prop :=
  (v.cap = none → v.served = 0) ∧
  ∀ c, v.cap = some c → ∀ r : Fin 7, baud r ≤ baud v.served ↔ baud r ≤ baud line ∧ baud r ≤ baud c.rate

/-- The incapable flags of slot `v` are those of the image and the editions of `s` (R73). -/
def State.flagsOf (s : State) (v : Slot) : Prop :=
  (v.cap = none → v.blIncapable = false ∧ v.edIncapable = false) ∧
  ∀ c, v.cap = some c →
    (v.blIncapable = true ↔ s.change.pages ≠ 0 ∧ c.blocklist < s.change.pages) ∧
    (v.edIncapable = true ↔
      (s.editions.active.present = true ∧ c.edition < 2 * s.editions.active.total) ∨
      (s.editions.pending.state = .pending ∧ c.edition < 2 * s.editions.pending.total))

/-- The other blocks' part in a switch or a swap that takes `u` to `t` (R19, R44, R73, R166, R173): repair flags and sweep
records are cleared, a recorded H above 1 for the new identity is set to 0, the incapable flags are those of the new image, a
CURRENT slot that holds another identity is BEHIND, and a slot neither CURRENT nor BEHIND keeps its state. No blocklist delivery
is left, and no ROUTINE group but one only now forming. -/
structure BlocksFollow (u t : State) : Prop where
  repairs : ∀ n, (t.slot n).repair = false ∧ t.sweep n = .cold
  heldId : ∀ n, (t.slot n).heldId = (u.slot n).heldId
  heldH : ∀ n, (t.slot n).heldH =
    if (u.slot n).heldId = t.change.identity ∧ 1 < (u.slot n).heldH then 0 else (u.slot n).heldH
  flags : ∀ n, t.flagsOf (t.slot n)
  behind : ∀ n, (u.slot n).state = .current → (u.slot n).heldId ≠ t.change.identity → (t.slot n).state = .behind
  resting : ∀ n, (u.slot n).state ≠ .current → (u.slot n).state ≠ .behind → (t.slot n).state = (u.slot n).state
  deliveries : ∀ n d, t.delivery n = some d → d.mode.isBlocklist = false
  groups : ∀ g ∈ t.sched.groups, g.cls = .routine → g.target = none ∧ g.planned = false

/-! ## When a class has work (R89, R143, R146 to R163, R173 to R176) -/

/-- Slot `n` is open to the delivery classes (R143). -/
def State.awake (s : State) (n : Fin 24) : Prop :=
  ((s.slot n).state = .behind ∨ (s.slot n).state = .current) ∧ (s.slot n).backoff = none

/-- Slot `n` meets the conditions of URGENT, ROUTINE and REPAIR, the image's stillness apart (R143). -/
def State.blockReady (s : State) (n : Fin 24) : Prop :=
  s.awake n ∧ s.change.pages ≠ 0 ∧ (s.slot n).blIncapable = false

/-- Slot `n` meets the conditions of INSTALL and STAGE (R143). -/
def State.editionReady (s : State) (n : Fin 24) : Prop := s.awake n ∧ (s.slot n).edIncapable = false

/-- Slot `n` is due a RELOAD (R146). -/
def State.needsReload (s : State) (n : Fin 24) : Prop :=
  (s.slot n).reload = true ∨ (s.slot n).heldId ≠ s.change.identity ∨ (s.slot n).heldH = 0

/-- Slot `n` is due a DELTA (R146). -/
def State.needsDelta (s : State) (n : Fin 24) : Prop := ¬ s.needsReload n ∧ (s.slot n).heldH < s.change.gen

/-- A plan built for slot `n` now would have an urgent part (R147, R149; log 63). -/
def State.hotPlan (s : State) (n : Fin 24) : Prop :=
  ∃ r ∈ s.change.table,
    (s.needsReload n ∧ (r.live ≠ 0 ∨ 1 < r.stamp) ∧ 0 < r.hot) ∨
    (s.needsDelta n ∧ (s.slot n).heldH < r.stamp ∧ (s.slot n).heldH < r.hot)

/-- A DISCARD is due to slot `n` (R154; log 17). -/
def State.needsDiscard (s : State) (n : Fin 24) : Prop :=
  ∃ p, (s.slot n).heldPending = some p ∧ p.edition ≠ ⟨s.editions.active.number, s.editions.active.digest⟩ ∧
    (s.editions.pending.state ≠ .pending ∨ p.edition.number ≠ s.editions.pending.number)

/-- Slot `n` records edition `e` as its complete pending one. -/
def State.staged (s : State) (n : Fin 24) (e : EditionRef) : Prop := ∃ m, (s.slot n).heldPending = some ⟨e, true, m⟩

/-- What an open individual delivery goes on with (R152, R153, R163): its next page, or with none left its CLOSE. -/
def State.goesOn (s : State) (n : Fin 24) (d : Delivery) (w : Work) : Prop :=
  d.phase = .opened ∧
  ((d.urgent ++ d.rest = [] ∧ w = .close n) ∨
   (d.urgent ++ d.rest ≠ [] ∧ (d.mode.isBlocklist = true → s.change.changing = false) ∧ w = .page n))

/-- The current turn of slot `n`'s line is an URGENT turn for the slot (R142, R144). -/
def State.servedUrgently (s : State) (n : Fin 24) : Prop :=
  ∃ l u, s.lineOf n = some l ∧ (s.arbiter l).turn = some u ∧ u.cls = .urgent ∧ u.target = .slot n

/-- Slot `n` on its own has work `w` in class `c` (R149, R151 to R158, R163, R173 to R176). -/
def State.dueAlone (s : State) (c : Cls) (n : Fin 24) (w : Work) : Prop :=
  let v := s.slot n
  let e := s.editions
  let still : Prop := s.change.changing = false
  match c with
  | .urgent => s.blockReady n ∧
      ((still ∧ (∀ d, s.delivery n = some d → d.mode ≠ .delta ∧ d.mode ≠ .reload) ∧ s.hotPlan n ∧
        w = .openTo n .blocklist) ∨
       (∃ d, s.delivery n = some d ∧ (d.mode = .delta ∨ d.mode = .reload) ∧ d.phase = .opened ∧
        ((d.urgent ≠ [] ∧ still ∧ w = .page n) ∨
         (d.urgent ++ d.rest = [] ∧ s.servedUrgently n ∧ (∀ g, s.groupOf n = some g → g.cls ≠ .routine) ∧
          w = .close n))))
  | .activation => s.awake n ∧
      (((s.marks n).confirmDue = true ∧ w = .confirm n) ∨
       ((s.marks n).confirmDue = false ∧ e.active.present = true ∧ s.staged n ⟨e.active.number, e.active.digest⟩ ∧
        (s.marks n).activateSent = false ∧ w = .activate n))
  | .upkeep =>
      (v.state = .identifying ∧ v.identify = some 0 ∧ w = .identify n) ∨
      (v.state ≠ .vacant ∧ v.state ≠ .identifying ∧ v.keepalive = some 0 ∧ w = .poll n)
  | .install => s.editionReady n ∧
      ((s.delivery n = none ∧ e.active.present = true ∧ v.heldActive ≠ ⟨e.active.number, e.active.digest⟩ ∧
        ¬ s.staged n ⟨e.active.number, e.active.digest⟩ ∧ w = .openTo n .install) ∨
       (∃ d, s.delivery n = some d ∧ d.mode = .install ∧ s.goesOn n d w))
  | .stage => s.editionReady n ∧
      ((s.delivery n = none ∧ s.needsDiscard n ∧ w = .discard n) ∨
       (s.delivery n = none ∧ ¬ s.needsDiscard n ∧ e.pending.state = .pending ∧
        ¬ s.staged n ⟨e.pending.number, e.pending.digest⟩ ∧ w = .openTo n .stage) ∨
       (∃ d, s.delivery n = some d ∧ d.mode = .stage ∧ s.goesOn n d w))
  | .routine => s.blockReady n ∧
      ((s.delivery n = none ∧ still ∧ (s.needsReload n ∨ s.needsDelta n) ∧ ¬ s.hotPlan n ∧
        w = .openTo n .blocklist) ∨
       (∃ d, s.delivery n = some d ∧ (d.mode = .delta ∨ d.mode = .reload) ∧ d.urgent = [] ∧ s.goesOn n d w))
  | .repair => s.blockReady n ∧ v.repair = true ∧
      ((s.delivery n = none ∧ still ∧ ¬ s.needsReload n ∧ ¬ s.needsDelta n ∧ w = .openTo n .repair) ∨
       (∃ d, s.delivery n = some d ∧ d.mode = .repair ∧ d.phase = .opened ∧
        (((s.sweep n).list ≠ [] ∧ still ∧ w = .page n) ∨
         ((s.sweep n).list = [] ∧ (s.sweep n).cursor < s.change.pages ∧ still ∧ (s.sweep n).held = none ∧
          w = .check n) ∨
         ((s.sweep n).list = [] ∧ s.change.pages ≤ (s.sweep n).cursor ∧ w = .close n))))

/-- Slot `n` meets the conditions of a class that groups serve (R143). -/
def State.memberReady (s : State) (c : Cls) (n : Fin 24) : Prop :=
  if c = .routine then s.blockReady n else s.editionReady n

/-- Group `g` has common work `w` (R148, R154, R160, R161): the OPEN of the first member that can be opened, then the next page
of its common plan. A member in backoff or due a DISCARD is passed over (log 58). -/
def State.groupDue (s : State) (g : Group) (w : Work) : Prop :=
  let opens (m : Fin 24) : Prop := s.memberReady g.cls m ∧ ¬ (g.cls = .stage ∧ s.needsDiscard m)
  (g.cls = .routine → s.change.changing = false) ∧
  ((∃ before m after, g.toOpen = before ++ m :: after ∧ opens m ∧ (∀ b ∈ before, ¬ opens b) ∧
      w = .openTo m g.cls.openKind) ∨
   (g.toOpen = [] ∧ g.planned = true ∧ g.plan ≠ [] ∧ (∃ m ∈ g.members, s.memberReady g.cls m) ∧
      w = .groupPage g.id))

/-- Slot `n` is served in class `c` by its group `g`: groups serve ROUTINE, INSTALL and STAGE, and a DISCARD comes first (R144,
R154). -/
def State.servedBy (s : State) (c : Cls) (n : Fin 24) (g : Group) : Prop :=
  s.groupOf n = some g ∧ g.cls = c ∧ (c = .routine ∨ c = .install ∨ c = .stage) ∧
  ¬ (c = .stage ∧ s.delivery n = none ∧ s.needsDiscard n)

/-- The work of slot `n` in class `c` (R143, R144, R163): its group's, or its own CLOSE once the group has none, or what it has on
its own. -/
def State.workDue (s : State) (c : Cls) (n : Fin 24) (ch : Choice) : Prop :=
  (∃ g, s.servedBy c n g ∧ s.memberReady c n ∧
    ((∃ w, s.groupDue g w ∧ ch = ⟨w, .group g.id⟩) ∨
     ((∀ w, ¬ s.groupDue g w) ∧ g.planned = true ∧ g.plan = [] ∧
      (∃ d, s.delivery n = some d ∧ d.urgent = [] ∧ d.phase = .opened) ∧ ch = ⟨.close n, .slot n⟩))) ∨
  ((∀ g, ¬ s.servedBy c n g) ∧ ch.target = .slot n ∧ s.dueAlone c n ch.work)

/-- The address of line `l`'s next discovery visit is `a` (R89, R91): from the discovery position on in cyclic order 1 to 30, the
first that no slot holds on the line and that is not on its clash list. -/
def State.visits (s : State) (l : Fin 4) (a : Nat) : Prop :=
  let at' (i : Nat) : Nat := ((s.lineRoster l).position - 1 + i) % 30 + 1
  let passed (b : Nat) : Prop := b ∈ (s.lineRoster l).clash ∨ ∃ n, (s.slot n).binding = some (l, b)
  ∃ i, i < 30 ∧ a = at' i ∧ ¬ passed a ∧ ∀ j, j < i → passed (at' j)

/-! ## Invariants -/

/-- Shared memory has its canonical form and XBASE is 4 KiB aligned (R185). -/
def State.memoryOk (s : State) : Prop := Memory.wf s.mem = true ∧ s.regs.xbase &&& 0xFFF = 0

/-- The generation never passes its limit (R11): a batch runs only below it, outside FAULTED. -/
def State.genOk (s : State) : Prop :=
  s.change.gen ≤ Config.spentG ∧
  (s.change.batch.isSome = true → s.isFaulted = false → s.change.gen < Config.spentG)

/-- No slot records an H above G for the live identity (R20). -/
def State.heldOk (s : State) : Prop :=
  ∀ n, (s.slot n).heldId = s.change.identity → (s.slot n).heldH ≤ s.change.gen

/-- The image digest is the sum of the page CRCs of the stamp table modulo 2^32 (R13). -/
def State.digestOk (s : State) : Prop := s.change.digest = digestOf s.change.table

/-- The ACTIVE and the PENDING slot name different regions (R53, R61). -/
def State.regionsOk (s : State) : Prop := s.editions.active.region ≠ s.editions.pending.region

end Sys2Proof.Machine
end

