-- ==== Sys2Proof/WellFormed.lean ====
section
/-! DEFINITION. Which commands are well formed: the operands a row of the table can carry at all. The
meanings are total on ill-formed commands too. -/

namespace Sys2Proof

/-- Register offsets that have a row of their own (R183): CONTROL, KICK, EVENTS, EVMASK. -/
def hasOwnRow (offset : Word) : Bool :=
  offset = 0x04 || offset = 0x10 || offset = 0x14 || offset = 0x18

/-- An access operand names a page below the largest image (R9), or a page of one slice (R41). -/
def Access.wellFormed : Access → Bool
  | .batchHeader done => decide (done < 4096)
  | .formatPage _ done => decide (done < 4096)
  | .purgePage done => decide (done < 4096)
  | .purgeHeader done => decide (done < 4096)
  | .rebuildPage done => decide (done < 64)
  | _ => true

/-- A command is well formed when its operands are ones its row can carry: RUN has CONTROL bit 1 clear and
RESTART has it set (R184); REGISTER_WRITE names a register without a row of its own (R183); a received
frame begins with the header mark 0xB4 (R107); only the primary of a pair, an even line, is judged for an
echo (R111). -/
def Instr.wellFormed : Instr → Bool
  | .run v => !v.getLsbD 1
  | .restart v => v.getLsbD 1
  | .registerWrite offset _ _ => !hasOwnRow offset
  | .memoryError a => a.wellFormed
  | .echoJudged line _ _ => decide (line.val % 2 = 0)
  | .frameReceived _ bytes _ => decide (bytes.head? = some 0xB4)
  | .powerOn | .kick _ | .eventsClear _ | .evmaskWrite _ | .descriptorRead | .startingEnd
  | .drainComplete | .scanIntervalExpiry | .applyChanges _ | .changeItem | .batchEnd | .formatImage _
  | .formatSwitch | .rebuildImage _ | .rebuildSlice | .purgeJob | .loadEdition _ | .productRecord
  | .rescheduleEdition _ | .withdrawEdition _ | .setClock _ | .minuteTick | .pinSlot _ | .freeSlot _
  | .releaseSlot _ | .resyncSlot _ | .clearCounters _ | .setLine _ | .setProfile _
  | .lineModeChangeApplied _ | .keepaliveDue _ | .backoffExpiry _ | .replacementWindowClose _
  | .discoveryVisitDue | .identifyDue _ | .lineRecordTimer _ | .frameStart _ | .frameSent _
  | .headerMark _ _ | .replyTimeout _ | .gapEnd _ | .status _ | .ident _ | .accept _ | .refuse _
  | .pageAck _ | .closeAck _ | .checkReport _ | .busy _ | .reportRewrite _ | .resetPinLow => true

end Sys2Proof
end

