-- ==== Sys2Proof/Certificates/Slice0/Obligations.lean ====
section
/-! DEFINITION. The statements for the provers. Each is about the commands of the GD-24 as exec gives them, over every
state that meets its premises; the words used are those of Safety.lean and of the model. -/

open Sys2Proof Sys2Proof.Machine

/-! ## Commands, reset and the registers (chapters 9 and 10) -/

/-- A step runs the command at the front of the queue on the rest -/
def Obligations.StepRunsFrontCommand : Prop :=
  ∀ (c : Instr) (rest : List Instr) (s : State),
    step { s with pending := c :: rest } = exec c { s with pending := rest }

/-- No command stops the model: every command answers a next state and leaves the queue alone -/
def Obligations.EveryCommandAnswersNext : Prop :=
  ∀ (c : Instr) (s : State), ∃ t, exec c s = .next t ∧ t.pending = s.pending

/-- The part after power-on: registers, HALTED cold, no image, no edition, no slot, lines OFF, default profiles
-/
def Obligations.ResetState : Prop :=
  (∀ o, o ≠ 0 → State.reset.readRegister o = 0) ∧ State.reset.readRegister 0 = 0x00012D24 ∧
  State.reset.engine = .haltedCold ∧ State.reset.change.pages = 0 ∧ State.reset.change.gen = 0 ∧
  State.reset.editions.active.present = false ∧ State.reset.editions.pending.state = .empty ∧
  State.reset.clock.isSet = false ∧
  (∀ n, (State.reset.slot n).state = .vacant ∧ (State.reset.slot n).binding = none ∧
    State.reset.delivery n = none ∧ (State.reset.sweep n).cursor = 0 ∧ (State.reset.sweep n).list = []) ∧
  (∀ l, (State.reset.port l).mode = .off ∧ (State.reset.port l).xstate = .idle ∧ (State.reset.port l).tag = 0 ∧
    State.reset.profiles[l] = ⟨3, 40, 2, 2, 3, 8, 8, false, true⟩) ∧
  State.reset.sched.groups = [] ∧ State.reset.exch.descriptor = none ∧
  (∀ u, State.reset.strip u = ⟨0, .stopped⟩) ∧ (∀ r : Fin 29, State.reset.report.counts[r] = 0) ∧
  State.reset.interrupt = false

/-- The reset pin, power-on and RESTART. That no command but POWER_ON changes the state of a part whose reset
pin is low is the model's reading (log 23); that the host still stores into shared memory is log 2. -/
def Obligations.PowerOnAndRestart : Prop :=
  (∀ s, exec .resetPinLow s = .next { s with resetLow := true }) ∧
  (∀ (s : State) (l : Fin 4), s.resetLow = true → s.driverEnable l = false) ∧
  (∀ (s : State) (c : Instr), s.resetLow = true → c ≠ .powerOn →
    (∀ o v st, c = .registerWrite o v st → st = []) → exec c s = .next s) ∧
  (∀ s, exec .powerOn s = .next { State.reset with mem := s.mem, pending := s.pending }) ∧
  (∀ (s : State) (v : Word), v.getLsbD 1 = true → s.resetLow = false →
    exec (.restart v) s = .next { State.reset with
      regs := { run := false, xbase := s.regs.xbase, events := 0, evmask := s.regs.evmask }
      mem := s.mem, pending := s.pending })

/-- RUN by engine state: what CONTROL bit 0 taken as 0 or 1 does, the resume included -/
def Obligations.RunRequestMovesEngine : Prop :=
  ∀ (s : State) (v : Word), v.getLsbD 1 = false → s.resetLow = false →
    (s.isFaulted = true → exec (.run v) s = .next s) ∧
    (s.isFaulted = false → (s.engine = .haltedResumable → v.getLsbD 0 = false) →
      ∃ t, exec (.run v) s = .next t ∧ Settled
        (match s.engine, v.getLsbD 0 with
         | .haltedCold, true => { s with regs := { s.regs with run := true }, engine := .starting }
         | .starting, false =>
           { s with regs := { s.regs with run := false }, engine := .haltedCold,
                    exch := { s.exch with descriptor := none }, report := .cold }
         | .running, false =>
           want summaryRec { s with regs := { s.regs with run := false }, engine := .stopping,
                                    exch := { s.exch with scanTimer := none } }
         | _, b => { s with regs := { s.regs with run := b } }) t) ∧
    (s.engine = .haltedResumable → v.getLsbD 0 = true →
      ∃ t, exec (.run v) s = .next t ∧ t.engine = .running ∧ t.regs.run = true ∧
        t.report.wanted[summaryRec] = true ∧
        (∀ l : Fin 4, s.clock.isSet = true → s.lineOn l = true → t.editions.timeDue[l] = true) ∧
        t.exch.scanTimer = (if s.desc.scanInterval = 0 then none else some (s.desc.scanInterval * Config.ms)) ∧
        t.clock = s.clock ∧ t.exch.descriptor = s.exch.descriptor ∧ t.profiles = s.profiles ∧
        t.change = s.change ∧ t.regs.xbase = s.regs.xbase ∧ t.regs.evmask = s.regs.evmask ∧ EditionTested s t ∧
        (Memory.wf s.mem = true → s.stripsApart → (∀ u, (s.strip u).position < s.stripCount u) →
          ∀ u, Visited u s t))

/-- REGISTER_WRITE: XBASE takes bits 12-31, a read-only register or an unused offset ignores the write. That the host's stores
into shared memory come with the command, before the write, is the model's choice (log 2). -/
def Obligations.XbaseKeepsPageAligned : Prop :=
  ∀ (s : State) (o v : Word) (st : List (Word × Byte)), s.resetLow = false → hasOwnRow o = false →
    exec (.registerWrite o v st) s = .next { s with
      mem := Memory.storeAll s.mem st
      regs := { s.regs with xbase := if o = 0x0C then v &&& 0xFFFFF000 else s.regs.xbase } } ∧
    (v &&& 0xFFFFF000).toNat % 4096 = 0

/-- EVENTS: raised by owners, cleared by 0, silent in FAULTED, 0 after power-on and RESTART -/
def Obligations.EventsClearByZero : Prop :=
  (∀ (n : Notice) (s : State) (i : Nat), s.isFaulted = false →
    (raise n s).regs.events.getLsbD i = (s.regs.events.getLsbD i || decide (i = n.bit))) ∧
  (∀ (n : Notice) (s : State), s.isFaulted = true → raise n s = s) ∧
  (∀ (c : FaultCause) (s : State), (fault c s).regs.events.getLsbD 7 = true) ∧
  (∀ (s : State) (v : Word), s.resetLow = false → ∃ t, exec (.eventsClear v) s = .next t ∧
    (∀ i, t.regs.events.getLsbD i = (s.regs.events.getLsbD i && v.getLsbD i)) ∧
    t = { s with regs := { s.regs with events := t.regs.events } }) ∧
  (∀ s, ∃ t, exec .powerOn s = .next t ∧ t.regs.events = 0) ∧
  (∀ (s : State) (v : Word), v.getLsbD 1 = true → s.resetLow = false →
    ∃ t, exec (.restart v) s = .next t ∧ t.regs.events = 0)

/-- EVMASK and the interrupt output -/
def Obligations.EvmaskGatesInterrupt : Prop :=
  (∀ (s : State) (v : Word), s.resetLow = false → ∃ t, exec (.evmaskWrite v) s = .next t ∧
    t.readRegister 0x18 = v &&& 0xFF ∧ t = { s with regs := { s.regs with evmask := t.regs.evmask } }) ∧
  (∀ s : State, s.interrupt = true ↔ ∃ i, s.regs.events.getLsbD i = true ∧ s.regs.evmask.getLsbD i = true) ∧
  (∀ s, ∃ t, exec .powerOn s = .next t ∧ t.regs.evmask = 0) ∧
  (∀ (s : State) (v : Word), v.getLsbD 1 = true → s.resetLow = false →
    ∃ t, exec (.restart v) s = .next t ∧ t.regs.evmask = s.regs.evmask ∧ t.interrupt = false)

/-- A KICK or a scan interval expiry takes the POSTED request at the scan position of a STOPPED strip and leaves a strip in
which it finds none; a KICK outside RUNNING does nothing (R190) -/
def Obligations.VisitTakesPostedRequest : Prop :=
  (∀ (s : State) (c : Instr), s.resetLow = false → s.engine = .running → Memory.wf s.mem = true →
    ((∃ v, c = .kick v) ∨ (c = .scanIntervalExpiry ∧ s.exch.scanTimer ≠ none)) →
    (s.stripAddr .priority + 64 * s.stripCount .priority ≤ s.stripAddr .routine ∨
      s.stripAddr .routine + 64 * s.stripCount .routine ≤ s.stripAddr .priority) →
    (∀ u, (s.strip u).position < s.stripCount u) →
    let finds (t : Strip) : Prop := (s.strip t).scan = .stopped ∧ Memory.read s.mem (s.slotAddr t) = 1
    let u := { s with exch := { s.exch with
      scanTimer := match c with
        | .scanIntervalExpiry =>
          if s.desc.scanInterval = 0 then none else some (s.desc.scanInterval * Config.ms)
        | _ => s.exch.scanTimer } }
    ∃ s', exec c s = .next s' ∧ Kept u s' ∧
      (∀ a, s.outsideStrip .priority a = true → s.outsideStrip .routine a = true →
        Memory.read s'.mem a = Memory.read s.mem a) ∧
      (∀ i, 1 ≤ i → s'.regs.events.getLsbD i = s.regs.events.getLsbD i) ∧
      (∀ t, finds t → ownerOf ((Memory.read s.mem (s.slotAddr t + 1)).toNat % 128) ≠ none →
        Memory.read s'.mem (s.slotAddr t) = 2 ∧
        (∀ i, 1 ≤ i → i < 64 →
          Memory.read s'.mem (s.slotAddr t + i) = Memory.read s.mem (s.slotAddr t + i)) ∧
        (s'.strip t).position = (s.strip t).position ∧
        ∃ free, (s'.strip t).scan = .holding
          { kind := (Memory.read s.mem (s.slotAddr t + 1)).toNat % 128
            notify := (Memory.read s.mem (s.slotAddr t + 1)).getLsbD 7
            params := Memory.readBytes s.mem (s.slotAddr t + 8) 56 } true free) ∧
      (∀ t, ¬ finds t → s'.strip t = s.strip t ∧
        ∀ a, s.stripAddr t ≤ a → a < s.stripAddr t + 64 * s.stripCount t →
          Memory.read s'.mem a = Memory.read s.mem a) ∧
      ((∀ t, ¬ finds t) → Settled u s')) ∧
  (∀ (s : State) (v : Word), s.engine ≠ .running → exec (.kick v) s = .next s)

/-- A request of a kind not in the table completes with BAD_KIND -/
def Obligations.UnknownKindCompletesBadKind : Prop :=
  ∀ (s : State) (t : Strip) (v : Word), s.resetLow = false → s.engine = .running → Memory.wf s.mem = true →
    (s.stripAddr .priority + 64 * s.stripCount .priority ≤ s.stripAddr .routine ∨
      s.stripAddr .routine + 64 * s.stripCount .routine ≤ s.stripAddr .priority) →
    (∀ u, (s.strip u).position < s.stripCount u) →
    (s.strip t).scan = .stopped → Memory.read s.mem (s.slotAddr t) = 1 →
    ownerOf ((Memory.read s.mem (s.slotAddr t + 1)).toNat % 128) = none →
    ∃ s', exec (.kick v) s = .next s' ∧
      Memory.readBytes s'.mem (s.slotAddr t) 8 =
        3 :: Memory.readBytes s.mem (s.slotAddr t + 1) 3 ++ [3, 0, 0, 0] ∧
      (∀ i, 8 ≤ i → i < 64 →
        Memory.read s'.mem (s.slotAddr t + i) = Memory.read s.mem (s.slotAddr t + i)) ∧
      ((Memory.read s.mem (s.slotAddr t + 1)).getLsbD 7 = true → s'.regs.events.getLsbD 0 = true) ∧
      Kept s s'

/-- STARTING reads the descriptor: kept if it passes, FAULTED with cause DESCRIPTOR if it does not -/
def Obligations.DescriptorReadValidates : Prop :=
  ∀ s : State, s.resetLow = false → s.engine = .starting → s.exch.descriptor = none →
    let b := Memory.readBytes s.mem s.regs.xbase.toNat 64
    let f (o n : Nat) : Nat := leNat ((b.drop o).take n)
    let extents : List (Nat × Nat) :=
      [(s.regs.xbase.toNat, 64), (f 8 4, 64 * f 16 2), (f 12 4, 64 * f 18 2), (f 20 4, 4096),
       (f 24 4, 1048576), (f 28 4, 1048576), (f 32 4, 16384), (f 36 4, 16384)]
    let good : Prop :=
      f 0 4 = 0x4A444C47 ∧ f 4 2 = 1 ∧ (4 ≤ f 16 2 ∧ f 16 2 ≤ 256) ∧ (4 ≤ f 18 2 ∧ f 18 2 ≤ 256) ∧
      f 8 4 % 64 = 0 ∧ f 12 4 % 64 = 0 ∧
      (∀ o, o = 20 ∨ o = 24 ∨ o = 28 ∨ o = 32 ∨ o = 36 → f o 4 % 4096 = 0) ∧
      (∀ x ∈ extents, x.1 + x.2 ≤ 2 ^ 32) ∧
      extents.Pairwise (fun x y => x.1 + x.2 ≤ y.1 ∨ y.1 + y.2 ≤ x.1)
    ∃ t, exec .descriptorRead s = .next t ∧ t.mem = s.mem ∧ t.regs.xbase = s.regs.xbase ∧
      t.regs.run = s.regs.run ∧ t.regs.evmask = s.regs.evmask ∧
      (good → t.engine = .starting ∧ t.regs.events = s.regs.events ∧
        t.exch.descriptor = some
          { scanInterval := min (f 6 2) 1000, priorityAddr := f 8 4, routineAddr := f 12 4,
            priorityCount := f 16 2, routineCount := f 18 2, report := f 20 4, imageA := f 24 4,
            imageB := f 28 4, editionA := f 32 4, editionB := f 36 4 } ∧
        ∀ r : Fin 29, t.report.wanted[r] = true) ∧
      (¬ good → t.engine = .faulted .descriptor ∧ t.readRegister 0x08 = 0x104 ∧
        t.regs.events.getLsbD 7 = true ∧ t.exch.descriptor = none)

/-- STARTING ends in RUNNING when every record has been written -/
def Obligations.StartingEndEntersRunning : Prop :=
  ∀ s : State, s.resetLow = false → s.engine = .starting → s.exch.descriptor ≠ none →
    (∀ r : Fin 29, s.report.wanted[r] = false) → (∀ u, (s.strip u).position < s.stripCount u) →
    ∃ t, exec .startingEnd s = .next t ∧
      Kept (want summaryRec { s with
        engine := .running
        exch := { s.exch with scanTimer :=
          if s.desc.scanInterval = 0 then none else some (s.desc.scanInterval * Config.ms) } }) t ∧
      (∀ a, s.outsideStrip .priority a = true → s.outsideStrip .routine a = true →
        Memory.read t.mem a = Memory.read s.mem a) ∧
      (Memory.wf s.mem = true → s.stripsApart → ∀ u, Visited u s t)

/-- The drain ends in HALTED resumable, and in RUNNING at once if RUN is 1 -/
def Obligations.DrainEndsInHaltedOrRunning : Prop :=
  ∀ s : State, s.resetLow = false → s.engine = .stopping → Memory.wf s.mem = true →
    (s.strip .priority).scan = .stopped → (s.strip .routine).scan = .stopped →
    s.change.batch = none → s.change.format = none → s.change.rebuild = none → s.change.purge = .empty →
    s.editions.load = none → (∀ l, (s.port l).xstate = .idle ∧ (s.port l).exchange = none) →
    ∃ t, exec .drainComplete s = .next t ∧
      (s.regs.run = false → t.engine = .haltedResumable ∧ t.readRegister 0x08 = 8 ∧
        Memory.read t.mem (s.desc.report + 2) = 0) ∧
      (s.regs.run = true → t.engine = .running) ∧
      t.change = s.change ∧ t.clock = s.clock ∧ t.exch.descriptor = s.exch.descriptor ∧
      t.profiles = s.profiles ∧ t.regs.run = s.regs.run

/-- An error response on a shared-memory access: FAULTED with cause MEMORY, from every state with an access.
What of its step stands before a failing access, and that HALTED cold has no access to fail, is the model's
reading (log 12); that the priority strip is visited first is log 10. -/
def Obligations.MemoryErrorFaults : Prop :=
  ∀ (s : State) (a : Access), s.resetLow = false →
    ((s.engine = .starting ∨ s.engine = .running ∨ s.engine = .stopping ∨ s.engine = .haltedResumable) →
      ∃ t, exec (.memoryError a) s = .next t ∧ t.engine = .faulted .memory ∧ t.readRegister 0x08 = 0x204 ∧
        t.regs.events.getLsbD 7 = true ∧ t.exch.scanTimer = none ∧
        (∀ l, (t.port l).exchange ≠ none → (t.port l).xstate = .sending) ∧
        (s.engine ≠ .haltedResumable → t.regs.run = s.regs.run) ∧ t.regs.xbase = s.regs.xbase ∧
        t.regs.evmask = s.regs.evmask ∧ t.clock = s.clock ∧
        ((a = .descriptorRead ∨ (s.engine = .running ∧ (a = .markRead .priority 0 ∨ a = .takenWrite .priority 0)) ∨
            a = .itemRead ∨ a = .itemPage ∨ a = .productRead ∨ a = .editionPage ∨ ∃ l, a = .framePage l) →
          t.mem = s.mem ∧ t.change = s.change ∧ t.editions = s.editions ∧ t.roster = s.roster ∧
          t.profiles = s.profiles ∧ t.sched = s.sched ∧ t.sweeps = s.sweeps ∧ t.exch.priority = s.exch.priority ∧
          t.exch.routine = s.exch.routine ∧ t.exch.descriptor = s.exch.descriptor ∧
          t.report.counts = s.report.counts ∧ t.report.waiting = s.report.waiting) ∧
        ((a = .markRead .routine 0 ∨ a = .takenWrite .routine 0) → s.engine = .running →
          (s.strip .routine).scan = .stopped → Memory.wf s.mem = true → s.stripsApart →
          (∀ u, (s.strip u).position < s.stripCount u) →
          Visited .priority s t ∧ t.strip .routine = s.strip .routine ∧
          (∀ b, s.outsideStrip .priority b = true → Memory.read t.mem b = Memory.read s.mem b) ∧
          t.change = s.change ∧ t.editions = s.editions ∧ t.roster = s.roster ∧ t.sched = s.sched ∧
          t.profiles = s.profiles)) ∧
    ((s.isFaulted = true ∨ s.engine = .haltedCold) → exec (.memoryError a) s = .next s)

/-- In FAULTED no command touches shared memory or starts a frame, and only RESTART and power-on leave it -/
def Obligations.FaultedTouchesNoMemory : Prop :=
  ∀ (s : State) (c : Instr) (t : State), s.isFaulted = true → exec c s = .next t →
    (∀ o v st, c = .registerWrite o v st → st = []) →
    t.mem = s.mem ∧
    (c = .powerOn ∨ (∃ v, v.getLsbD 1 = true ∧ (c = .restart v ∨ c = .run v ∨ ∃ st, c = .registerWrite 0x04 v st)) ∨
      (t.engine = s.engine ∧ t.report.counts = s.report.counts ∧
        (∀ l, (t.port l).xstate = .sending → (s.port l).xstate = .sending) ∧
        (∀ i, t.regs.events.getLsbD i = true → s.regs.events.getLsbD i = true)))

/-- The engine state moves only as the table of engine states gives -/
def Obligations.EngineMovesByTable : Prop :=
  ∀ (s : State) (c : Instr) (t : State), exec c s = .next t → t.engine ≠ s.engine →
    let written (v : Word) : Prop := c = .run v ∨ c = .restart v ∨ ∃ st, c = .registerWrite 0x04 v st
    (c = .powerOn ∧ t.engine = .haltedCold) ∨
    (∃ v, written v ∧ v.getLsbD 1 = true ∧ t.engine = .haltedCold) ∨
    (∃ v, written v ∧ v.getLsbD 1 = false ∧ v.getLsbD 0 = true ∧
      ((s.engine = .haltedCold ∧ t.engine = .starting) ∨ (s.engine = .haltedResumable ∧ t.engine = .running))) ∨
    (∃ v, written v ∧ v.getLsbD 1 = false ∧ v.getLsbD 0 = false ∧
      ((s.engine = .starting ∧ t.engine = .haltedCold) ∨ (s.engine = .running ∧ t.engine = .stopping))) ∨
    (c = .descriptorRead ∧ s.engine = .starting ∧ t.engine = .faulted .descriptor) ∨
    (c = .startingEnd ∧ s.engine = .starting ∧ t.engine = .running) ∨
    (c = .drainComplete ∧ s.engine = .stopping ∧
      t.engine = if s.regs.run then .running else .haltedResumable) ∨
    ((∃ a, c = .memoryError a) ∧ s.engine ≠ .haltedCold ∧ s.isFaulted = false ∧ t.engine = .faulted .memory)

/-! ## The blocklist image and its jobs (chapters 1 and 2) -/

/-- The home page of a key: fold, mix, scale; below P; the top k bits for P = 2^k -/
def Obligations.HomePageComputation : Prop :=
  ∀ (K : BitVec 64) (P : Nat) (S : Word), 64 ≤ P → P ≤ 4096 →
    let F : Word := (K >>> 32).setWidth 32 ^^^ K.setWidth 32 ^^^ S
    let M : Word := F ^^^ (F >>> 16)
    M >>> 16 = F >>> 16 ∧ M.toNat * P < 2 ^ 44 ∧ homePage K P S = M.toNat * P / 2 ^ 32 ∧ homePage K P S < P ∧
    ∀ k, P = 2 ^ k → homePage K P S = (M >>> (32 - k)).toNat

/-- Taking a request up: when its owner may, that it leaves its holder, and that nothing a host or a line can
see changes. The marks of which requests wait, and came to an idle owner, are the model's own (log 10); that a
job runs until its outcome is handed over is its reading (log 48). -/
def Obligations.TakingUpLeavesOutputsAlone : Prop :=
  (∀ (t : Strip) (o : Owner) (s : State),
    let u := takeUp t o s
    ({ u with exch := s.exch, change := ({ u.change with purge := s.change.purge } : ChangeEngine) } : State) = s ∧
    u.change.purge = (if o = .change ∧ s.change.purge ≠ .empty then .queued false else s.change.purge) ∧
    u.exch.descriptor = s.exch.descriptor ∧ u.exch.scanTimer = s.exch.scanTimer ∧
    (∀ v, (u.strip v).position = (s.strip v).position ∧ ((s.strip v).scan = .stopped → (u.strip v).scan = .stopped)) ∧
    (∀ r h f, (s.strip t).scan = .holding r h f → (u.strip t).scan = .holding r false f) ∧
    (∀ r h f, (s.strip (otherStrip t)).scan = .holding r h f → (u.strip (otherStrip t)).scan = .holding r h
      (f && !(h && decide (ownerOf r.kind = some o))))) ∧
  (∀ (s : State) (t : Strip) (o : Owner) (k : Nat), ownerOf k = some o →
    (s.mayTake t o k = true ↔ s.working = true ∧ ¬ s.busyWith o ∧
      ∃ r free, (s.strip t).scan = .holding r true free ∧ r.kind = k ∧
        (t = .priority ∨ free = true ∨ o = .atOnce ∨
          (¬ s.priorityWaits o ∧ (o = .change → s.change.purge = .empty))))) ∧
  (∀ s : State, s.mayPurge = true ↔ s.working = true ∧ ¬ s.busyWith .change ∧
    ∃ free, s.change.purge = .queued free ∧ (free = true ∨ ¬ s.priorityWaits .change)) ∧
  (∀ (s : State) (t : Strip), s.mayApply t = true ↔ s.mayTake t .change 0x01 = true ∨
    (t = .priority ∧ s.working = true ∧ s.change.batch = none ∧ (∃ b, s.change.rebuild = some b ∧ b.look = true) ∧
      ∃ r f, (s.strip .priority).scan = .holding r true f ∧ r.kind = 0x01)) ∧
  (∀ (s : State) (t : Strip) (k : Nat) (c : Instr) (o : Owner), s.resetLow = false → (k, c) ∈ takingCommands t →
    ownerOf k = some o → s.mayTake t o k = false → (k = 0x01 → s.mayApply t = false) →
    ∃ t', exec c s = .next t' ∧ Settled s t') ∧
  (∀ s : State, s.resetLow = false → s.mayPurge = false → ∃ t', exec .purgeJob s = .next t' ∧ Settled s t') ∧
  (∀ s : State, s.change.pages ≠ 0 → s.change.purge = .empty → s.working = false →
    (queuePurge s).change.purge = .queued false)

/-- APPLY CHANGES as it is taken up: BAD_PARAM, WRONG_STATE, SPENT, or the batch starts -/
def Obligations.ApplyChangesTakenUp : Prop :=
  ∀ (s : State) (t : Strip), s.resetLow = false → s.mayApply t = true →
    (s.strip t).position < s.stripCount t → Memory.wf s.mem = true →
    let list := (s.request t).param 8 4
    let n := (s.request t).param 12 2
    let u := resumeRebuild (takeUp t .change s)
    let badParam : Prop := n < 1 ∨ 4096 < n ∨ list % 16 ≠ 0 ∨ 2 ^ 32 < list + 16 * n
    let noImage : Prop := s.change.pages = 0
    let spent : Prop := s.change.gen = 4294967040
    ∃ t', exec (.applyChanges t) s = .next t' ∧
      (badParam → Answers t ⟨4, false, 0⟩ u t') ∧
      (¬ badParam → noImage → Answers t ⟨5, false, 0⟩ u t') ∧
      (¬ badParam → ¬ noImage → spent → Answers t ⟨6, false, 0⟩ u t') ∧
      (¬ badParam → ¬ noImage → ¬ spent →
        Settled { u with change := { u.change with batch := some (
          { strip := t, list := list, count := n, next := 0, faulty := 0, anyFull := false, changed := [] } : Batch) } } t')

/-- An item that ends BAD_ITEM, EXPIRED, ABSENT, FULL or UNCHANGED changes no page -/
def Obligations.ItemWithoutChange : Prop :=
  ∀ (s : State) (b : Batch) (code : Byte), s.resetLow = false → s.working = true → Memory.wf s.mem = true →
    s.change.batch = some b → b.next < b.count → (s.strip b.strip).position < s.stripCount b.strip →
    let addr := b.list + 16 * b.next + 11
    let i := parseItem (Memory.readBytes s.mem (b.list + 16 * b.next) 16)
    let live := liveCount s.change.table
    let base := s.imageBase s.change.region
    let window := probeWindow i.entry.key s.change.pages s.change.seed
    let page := findPage s.mem base live i.entry.key window
    let bad : Prop := i.entry.key = 0 ∨ (i.operation ≠ 1 ∧ i.operation ≠ 2) ∨
      (i.operation = 1 ∧ ((i.entry.action ≠ 1 ∧ i.entry.action ≠ 2) ∨ 63 < i.entry.reason.toNat))
    let expired : Prop := i.operation = 1 ∧ i.entry.expiry ≠ 0 ∧ s.clock.isSet = true ∧
      i.entry.expiry < s.clock.serviceDay
    ((bad ∧ code = 8) ∨ (¬ bad ∧ expired ∧ code = 7) ∨
      (¬ bad ∧ ¬ expired ∧
        ((i.operation = 2 ∧ page = none ∧ code = 5) ∨
         (i.operation = 1 ∧ page = none ∧ (∀ p ∈ window, 20 ≤ live p) ∧ code = 6) ∨
         (i.operation = 1 ∧ code = 3 ∧ ∃ p, page = some p ∧ i.entry ∈ readEntries s.mem base p (live p))))) →
    ∃ t, exec .changeItem s = .next t ∧
      t.change = { s.change with
        refused := if code = 6 then min (s.change.refused + 1) 65535 else s.change.refused
        batch := t.change.batch } ∧
      (b.next + 1 < b.count ∨ b.changed ≠ [] →
        t.mem = Memory.write s.mem addr code ∧
        t.change.batch = some { b with
          next := b.next + 1, anyFull := b.anyFull || decide (code = 6)
          faulty := b.faulty + (if code = 6 ∨ code = 7 ∨ code = 8 then 1 else 0) }) ∧
      (b.next + 1 = b.count → b.changed = [] → t.change.batch = none ∧
        (s.outsideStrip b.strip addr = true → Memory.read t.mem addr = code) ∧
        (∀ a, a ≠ addr → s.outsideStrip b.strip a = true → Memory.read t.mem a = Memory.read s.mem a) ∧
        (let faulty := b.faulty + (if code = 6 ∨ code = 7 ∨ code = 8 then 1 else 0)
         let result : Result := ⟨if faulty = 0 then 1 else 2, false, faulty⟩
         (b.anyFull = false → code ≠ 6 → (∃ q h f, (s.strip b.strip).scan = .holding q h f) →
           Completed b.strip result { s with mem := Memory.write s.mem addr code } t ∧
           t.report.waiting = s.report.waiting) ∧
         (b.anyFull = true ∨ code = 6 → t.mem = Memory.write s.mem addr code ∧
           t.report.wanted[summaryRec] = true ∧
           t.report.waiting = s.report.waiting ++
             [⟨[summaryRec], .notice .saturated⟩, ⟨[summaryRec], .outcome b.strip result⟩])))

/-- An item that ends ADDED, UPDATED or REMOVED rewrites the entries of one page, and is mirrored into a
rebuild's new image -/
def Obligations.ItemChangesOnePage : Prop :=
  ∀ (s : State) (b : Batch) (p : Nat) (code : Byte) (after : List Entry), s.resetLow = false → s.working = true →
    Memory.wf s.mem = true → s.change.batch = some b → b.next < b.count →
    let addr := b.list + 16 * b.next + 11
    let i := parseItem (Memory.readBytes s.mem (b.list + 16 * b.next) 16)
    let live := liveCount s.change.table
    let base := s.imageBase s.change.region
    let window := probeWindow i.entry.key s.change.pages s.change.seed
    let page := findPage s.mem base live i.entry.key window
    let entries := readEntries s.mem base p (live p)
    let top := base + 256 * p
    let new := s.imageBase s.change.region.other
    i.bad = false → i.isExpired s.serviceDay? = false → p < s.change.table.length → live p ≤ 20 →
    (addr < top ∨ top + 256 ≤ addr) →
    (∀ r, s.change.rebuild = some r → p < s.change.copyCursor →
      0 < r.pages ∧ r.table.length = r.pages ∧ (∀ w ∈ r.table, w.live ≤ 20) ∧
      (top + 256 ≤ new ∨ new + 256 * r.pages ≤ top) ∧ (addr < new ∨ new + 256 * r.pages ≤ addr)) →
    ((i.operation = 1 ∧ page = none ∧ window.find? (fun q => live q < 20) = some p ∧ code = 1 ∧
        after = insertEntry i.entry entries) ∨
      (i.operation = 1 ∧ page = some p ∧ i.entry ∉ entries ∧ code = 2 ∧ after = updateEntry i.entry entries) ∨
      (i.operation = 2 ∧ page = some p ∧ code = 4 ∧ after = removeEntry i.entry.key entries)) →
    ∃ t, exec .changeItem s = .next t ∧ Memory.read t.mem addr = code ∧
      readEntries t.mem base p after.length = after ∧
      (∀ k, after.length ≤ k → k < 20 →
        Memory.readBytes t.mem (top + 16 + 12 * k) 12 = List.replicate 12 0) ∧
      t.change = { s.change with
        table := setLive s.change.table p after.length, changing := true
        batch := some { b with next := b.next + 1, changed := insertPage p b.changed }
        rebuild := t.change.rebuild } ∧
      (let same (f : Nat → Prop) : Prop :=
         ∀ a, a ≠ addr → (a < top + 16 ∨ top + 256 ≤ a) → f a → Memory.read t.mem a = Memory.read s.mem a
       (s.change.rebuild = none ∨ s.change.copyCursor ≤ p →
         t.change.rebuild = s.change.rebuild ∧ same fun _ => True) ∧
       (∀ r, s.change.rebuild = some r → p < s.change.copyCursor →
         let count := workCount r.table
         let newWindow := probeWindow i.entry.key r.pages r.seed
         let newPage := findPage s.mem new count i.entry.key newWindow
         let old (q : Nat) : List Entry := readEntries s.mem new q (count q)
         let mirrored (q : Nat) (es : List Entry) : Prop :=
           let bytes := Memory.readBytes t.mem (new + 256 * q) 256
           let finished : Prop := r.phase = .finishing ∧ q < r.finished
           readEntries t.mem new q es.length = es ∧
           (same fun a => a < new + 256 * q ∨ new + 256 * q + 256 ≤ a) ∧
           (finished → bytes.take 16 = leBytes 2 q ++ [BitVec.ofNat 8 es.length, 1] ++ leBytes 4 1 ++
             leBytes 4 r.identity.toNat ++ leBytes 4 (pageCrc bytes).toNat) ∧
           ∃ w', t.change.rebuild = some { r with table := r.table.set q w' } ∧ w'.live = es.length ∧ w'.hot = true ∧
             (finished → w'.crc = pageCrc bytes) ∧
             (¬ finished → ∀ w, r.table[q]? = some w → w'.crc = w.crc)
         let nothing : Prop := t.change.rebuild = s.change.rebuild ∧ same fun _ => True
         (i.operation = 1 → ∀ q, newPage = some q → (i.entry ∉ old q → mirrored q (updateEntry i.entry (old q))) ∧
           (i.entry ∈ old q → nothing)) ∧
         (i.operation = 1 → newPage = none → ∀ q, newWindow.find? (fun q => count q < 20) = some q →
           mirrored q (insertEntry i.entry (old q))) ∧
         (i.operation = 1 → newPage = none → (∀ q ∈ newWindow, 20 ≤ count q) →
           t.change.rebuild = some { r with unplaced := r.unplaced + 1 } ∧ same fun _ => True) ∧
         (i.operation = 2 → ∀ q, newPage = some q → mirrored q (removeEntry i.entry.key (old q))) ∧
         (i.operation = 2 → newPage = none → nothing)))

/-- The end of a batch: G + 1, stamps, hot stamps of a priority batch, headers, CRCs, digest, summary, outcome
-/
def Obligations.BatchEndStampsChangedPages : Prop :=
  ∀ (s : State) (b : Batch), s.resetLow = false → s.working = true → Memory.wf s.mem = true →
    s.change.batch = some b → b.next = b.count → b.changed ≠ [] →
    (∀ p ∈ b.changed, p < s.change.table.length) → s.change.table.length ≤ 4096 →
    let g := s.change.gen + 1
    let base := s.imageBase s.change.region
    ∃ t, exec .batchEnd s = .next t ∧ t.change.gen = g ∧ t.change.changing = false ∧ t.change.batch = none ∧
      (∀ (p : Nat) (r : StampRec), s.change.table[p]? = some r → p ∉ b.changed → t.change.table[p]? = some r) ∧
      (∀ (p : Nat) (r : StampRec), s.change.table[p]? = some r → p ∈ b.changed →
        let page := Memory.readBytes t.mem (base + 256 * p) 256
        t.change.table[p]? = some
          { r with stamp := g, hot := if b.strip = .priority then g else r.hot, crc := pageCrc page } ∧
        page.take 16 = leBytes 2 p ++ [BitVec.ofNat 8 r.live, 1] ++ leBytes 4 g.toNat ++
          leBytes 4 s.change.identity.toNat ++ leBytes 4 (pageCrc page).toNat) ∧
      (∀ a, (∀ p ∈ b.changed, a < base + 256 * p ∨ base + 256 * p + 16 ≤ a) →
        Memory.read t.mem a = Memory.read s.mem a) ∧
      (s.digestOk → t.digestOk) ∧ t.report.wanted[summaryRec] = true ∧ HeldCompared s t ∧
      (s.heldOk → s.change.gen < Config.spentG → ∀ n,
        (t.slot n).state = (if (s.slot n).state = .current then .behind else (s.slot n).state)) ∧
      (∀ n d, s.delivery n = some d → d.mode = .delta ∨ d.mode = .reload →
        (b.strip = .routine → t.delivery n = some d) ∧
        (b.strip = .priority → ∃ d', t.delivery n = some d' ∧
          (d.phase = .closing → d' = { d with late := d'.late } ∧ ∀ p, p ∈ d'.late ↔ p ∈ d.late ∨ p ∈ b.changed) ∧
          (d.phase ≠ .closing →
            d' = { d with
              urgent := d'.urgent, rest := d.rest.filter fun p => !b.changed.contains p
              inFlight := d.inFlight.filter fun p => !b.changed.contains p } ∧
            (∀ p, p ∈ d'.urgent ↔ p ∈ d.urgent ∨ p ∈ b.changed) ∧
            (d.urgent.Pairwise (· < ·) → d'.urgent.Pairwise (· < ·))))) ∧
      (b.strip = .priority → (∀ l, s.portReady l = false) →
        t.sched.groups = s.sched.groups.map fun g =>
          if g.cls = .routine then { g with plan := g.plan.filter fun p => !b.changed.contains p } else g) ∧
      t.report.waiting = s.report.waiting ++
        (if b.anyFull then [⟨[summaryRec], .notice .saturated⟩] else []) ++
        [⟨[summaryRec], .outcome b.strip
          ⟨if b.faulty = 0 then 1 else 2, false, b.faulty⟩⟩]

/-- FORMAT IMAGE as it is taken up: BAD_PARAM, WRONG_STATE, or P void pages written to the target region. That
all P pages are written in this one step, the switch being a step of its own, is the model's choice (log 11). -/
def Obligations.FormatImageTakenUp : Prop :=
  ∀ (s : State) (t : Strip), s.canTake t .change Kind.formatImage →
    let r := s.request t
    let pages := r.param 8 2
    let identity : Word := BitVec.ofNat 32 (r.param 14 4)
    let u := takeUp t .change s
    let target : Region := if s.change.pages = 0 then .a else s.change.region.other
    let base := s.imageBase target
    ∃ t', exec (.formatImage t) s = .next t' ∧
      ((pages < 64 ∨ 4096 < pages) → Answers t ⟨4, false, 0⟩ u t') ∧
      (64 ≤ pages → pages ≤ 4096 → identity = s.change.identity → Answers t ⟨5, false, 0⟩ u t') ∧
      (64 ≤ pages → pages ≤ 4096 → identity ≠ s.change.identity → s.change.pages ≠ 0 → identity = 0 →
        Answers t ⟨4, false, 0⟩ u t') ∧
      (64 ≤ pages → pages ≤ 4096 → identity ≠ s.change.identity → (s.change.pages ≠ 0 → identity ≠ 0) →
        (∀ n, n < pages → Memory.readBytes t'.mem (base + 256 * n) 256 = voidPage n 1 identity) ∧
        (∀ a, a < base ∨ base + 256 * pages ≤ a → Memory.read t'.mem a = Memory.read s.mem a) ∧
        (∃ f, t'.change.format = some f ∧ t'.change = { u.change with format := some f } ∧ f.strip = t ∧
          f.target = target ∧ f.pages = pages ∧ f.identity = identity ∧
          f.seed = BitVec.ofNat 32 (r.param 10 4) ∧ f.table.length = pages ∧
          ∀ n, n < pages → f.table[n]? = some ⟨1, 0, pageCrc (voidPage n 1 identity), 0⟩))

/-- FORMAT_SWITCH: the new image goes live with G = 1, and the other blocks follow -/
def Obligations.FormatSwitchGoesLive : Prop :=
  ∀ (s : State) (f : Format), s.resetLow = false → s.working = true → s.change.format = some f →
    ∃ t, exec .formatSwitch s = .next t ∧
      t.change = { s.change with
        region := f.target, identity := f.identity, pages := f.pages, seed := f.seed, gen := 1
        table := f.table, digest := digestOf f.table, purgeSkipped := false, format := none } ∧
      t.heldOk ∧ t.mem = s.mem ∧ BlocksFollow s t ∧ t.report.wanted[summaryRec] = true ∧
      (⟨[summaryRec], .outcome f.strip ⟨1, false, 0⟩⟩ : Waiting) ∈ t.report.waiting

/-- REBUILD IMAGE as it is taken up: BAD_PARAM, WRONG_STATE, or CLEARING begins. That the summary record is due
as it begins is the model's reading (log 41). -/
def Obligations.RebuildImageTakenUp : Prop :=
  ∀ (s : State) (t : Strip), s.canTake t .change Kind.rebuildImage →
    let r := s.request t
    let pages := r.param 8 2
    let identity : Word := BitVec.ofNat 32 (r.param 14 4)
    let u := takeUp t .change s
    let badParam : Prop := pages < 64 ∨ 4096 < pages ∨ identity = 0
    let wrong : Prop := s.change.pages = 0 ∨ identity = s.change.identity
    ∃ t', exec (.rebuildImage t) s = .next t' ∧
      (badParam → Answers t ⟨4, false, 0⟩ u t') ∧
      (¬ badParam → wrong → Answers t ⟨5, false, 0⟩ u t') ∧
      (¬ badParam → ¬ wrong →
        Settled (want summaryRec { u with change := { u.change with
          copyCursor := 0
          rebuild := some (
            { strip := t, phase := .clearing, pages := pages, seed := BitVec.ofNat 32 (r.param 10 4),
              identity := identity, startG := s.change.gen, cleared := 0, finished := 0, unplaced := 0,
              table := List.replicate pages ⟨0, 0, false⟩, look := false } : Rebuild) } }) t')

/-- A rebuild slice by its phase: 64 pages on, the live image untouched, the swap, which the other blocks follow, or the failure
at the end. That the swap or failure comes before the last slice's look at the priority holder is the model's choice (log 67). -/
def Obligations.RebuildSliceKeepsLiveImage : Prop :=
  ∀ (s : State) (r : Rebuild), s.resetLow = false → s.change.rebuild = some r → s.sliceReady = true →
    Memory.wf s.mem = true → 64 ≤ r.pages → r.pages ≤ 4096 → r.table.length = r.pages →
    let base := s.imageBase s.change.region.other
    let old := s.imageBase s.change.region
    let look := s.holdsApply .priority
    let ended (t : State) (res : Result) : Prop := (⟨[summaryRec], .outcome r.strip res⟩ : Waiting) ∈ t.report.waiting
    let failed (t : State) (cursor unplaced : Nat) : Prop :=
      t.change = { s.change with rebuild := none, copyCursor := cursor } ∧
      ended t ⟨7, false, min unplaced 65535⟩
    ∃ t, exec .rebuildSlice s = .next t ∧ t.report.wanted[summaryRec] = true ∧
      (∀ a, a < base ∨ base + 256 * r.pages ≤ a → Memory.read t.mem a = Memory.read s.mem a) ∧
      (r.phase = .clearing → r.cleared < r.pages →
        let k := min 64 (r.pages - r.cleared)
        t.change = { s.change with rebuild := some { r with
          cleared := r.cleared + k, look := look
          phase := if r.cleared + k = r.pages then .copying else .clearing } } ∧
        ∀ n, r.cleared ≤ n → n < r.cleared + k →
          Memory.readBytes t.mem (base + 256 * n) 256 = voidPage n 1 r.identity) ∧
      (r.phase = .copying → s.change.copyCursor < s.change.pages →
        (old + 256 * s.change.pages ≤ base ∨ base + 256 * r.pages ≤ old) →
        (∀ w ∈ r.table, w.live ≤ 20) → (∀ rec ∈ s.change.table, rec.live ≤ 20) →
        s.change.table.length ≤ s.change.pages →
        let k := min 64 (s.change.pages - s.change.copyCursor)
        let cursor := s.change.copyCursor + k
        let copied : NewImage :=
          ((List.range k).map fun i => s.change.copyCursor + i).foldl (s.copiedInto r) (s.newImage r)
        ∃ (table : List WorkRec) (unplaced : Nat),
          unplaced = copied.unplaced ∧ table.length = r.table.length ∧
          (∀ (q : Nat) (w w' : WorkRec), r.table[q]? = some w → table[q]? = some w' →
            ∃ es hot, copied.pages[q]? = some (es, hot) ∧ readEntries t.mem base q es.length = es ∧
              w' = { w with live := es.length, hot := hot } ∧ w.live ≤ w'.live ∧ (w.hot = true → hot = true)) ∧
          (cursor < s.change.pages → t.change = { s.change with
            copyCursor := cursor, rebuild := some { r with table := table, unplaced := unplaced, look := look } }) ∧
          (cursor = s.change.pages → unplaced = 0 → t.change = { s.change with
            copyCursor := cursor
            rebuild := some { r with table := table, unplaced := 0, phase := .finishing, look := look } }) ∧
          (cursor = s.change.pages → unplaced ≠ 0 → failed t cursor unplaced)) ∧
      (r.phase = .finishing → r.finished < r.pages →
        let k := min 64 (r.pages - r.finished)
        ∃ table : List WorkRec, table.length = r.table.length ∧
          (∀ (q : Nat) (w w' : WorkRec), r.table[q]? = some w → table[q]? = some w' →
            let page := Memory.readBytes t.mem (base + 256 * q) 256
            if r.finished ≤ q ∧ q < r.finished + k then
              w' = { w with crc := pageCrc page } ∧ page.drop 16 = Memory.readBytes s.mem (base + 256 * q + 16) 240 ∧
              page.take 16 = leBytes 2 q ++ [BitVec.ofNat 8 w.live, 1] ++ leBytes 4 1 ++
                leBytes 4 r.identity.toNat ++ leBytes 4 (pageCrc page).toNat
            else w' = w ∧ page = Memory.readBytes s.mem (base + 256 * q) 256) ∧
          (r.finished + k < r.pages → t.change = { s.change with
            rebuild := some { r with finished := r.finished + k, table := table, look := look } }) ∧
          (r.finished + k = r.pages → r.unplaced = 0 →
            t.change = { s.change with
              region := s.change.region.other, identity := r.identity, pages := r.pages, seed := r.seed, gen := 1
              table := table.map fun w => ⟨1, if w.hot then 1 else 0, w.crc, w.live⟩
              digest := (table.map (·.crc)).foldl (· + ·) 0, purgeSkipped := false, rebuild := none } ∧
            t.heldOk ∧ BlocksFollow s t ∧ ended t ⟨1, false, 0⟩) ∧
          (r.finished + k = r.pages → r.unplaced ≠ 0 → failed t s.change.copyCursor r.unplaced))

/-- A purge job taken up with G at its limit is skipped -/
def Obligations.PurgeJobSkippedAtLimit : Prop :=
  (∀ s : State, s.resetLow = false → s.mayPurge = true → s.change.gen = 4294967040 →
    ∃ t, exec .purgeJob s = .next t ∧ t.mem = s.mem ∧
      t.change = { s.change with purgeSkipped := true, purge := .empty } ∧
      t.report.wanted[summaryRec] = true ∧ t.roster = s.roster) ∧
  (∀ s : State, s.change.pages ≠ 0 → s.change.purge = .empty → (queuePurge s).change.purge ≠ .empty) ∧
  (∀ (f : Format) (s : State), (switchTo f s).change.purgeSkipped = false) ∧
  (∀ (r : Rebuild) (s : State), (swapTo r s).change.purgeSkipped = false)

/-- A purge job removes every entry expired before the service day, and G rises once if it removed one -/
def Obligations.PurgeJobRemovesExpired : Prop :=
  ∀ s : State, s.resetLow = false → s.mayPurge = true → s.change.gen < 4294967040 → Memory.wf s.mem = true →
    s.change.table.length = s.change.pages → s.change.pages ≤ 4096 → (∀ r ∈ s.change.table, r.live ≤ 20) →
    let base := s.imageBase s.change.region
    let sd := s.clock.serviceDay
    let before (p : Nat) : List Entry := readEntries s.mem base p (liveCount s.change.table p)
    let kept (p : Nat) : List Entry := (before p).filter fun e => !(decide (e.expiry ≠ 0) && decide (e.expiry < sd))
    ∃ t, exec .purgeJob s = .next t ∧ t.change.purge = .empty ∧ t.regs.events = s.regs.events ∧
      t.report.waiting = s.report.waiting ∧
      (∀ p, p < s.change.pages →
        readEntries t.mem base p (kept p).length = kept p ∧ liveCount t.change.table p = (kept p).length ∧
        ∀ r, s.change.table[p]? = some r → ∃ r', t.change.table[p]? = some r' ∧ r'.hot = r.hot ∧
          r'.stamp = (if kept p = before p then r.stamp else s.change.gen + 1) ∧ (kept p = before p → r' = r) ∧
          (kept p ≠ before p →
            let page := Memory.readBytes t.mem (base + 256 * p) 256
            r'.crc = pageCrc page ∧
            page.take 16 = leBytes 2 p ++ [BitVec.ofNat 8 (kept p).length, 1] ++
              leBytes 4 (s.change.gen + 1).toNat ++ leBytes 4 s.change.identity.toNat ++
              leBytes 4 (pageCrc page).toNat)) ∧
      (∀ a, a < base ∨ base + 256 * s.change.pages ≤ a → Memory.read t.mem a = Memory.read s.mem a) ∧
      (s.digestOk → t.digestOk) ∧
      ((∀ p, p < s.change.pages → kept p = before p) → t.mem = s.mem ∧
        t.change = { s.change with purge := .empty }) ∧
      ((∃ p, p < s.change.pages ∧ kept p ≠ before p) → t.change.gen = s.change.gen + 1 ∧
        t.change.changing = false ∧ t.report.wanted[summaryRec] = true ∧ HeldCompared s t ∧
        (s.heldOk → ∀ n,
          (t.slot n).state = (if (s.slot n).state = .current then .behind else (s.slot n).state)))

/-! ## Fare editions and the service clock (chapter 3) -/

/-- LOAD EDITION as it is taken up: the pending edition withdrawn first, then WRONG_STATE, BAD_PARAM or
COMPOSING. That a refusal after a withdrawal gives its outcome after the summary record is the model's reading
(log 42). -/
def Obligations.LoadEditionTakenUp : Prop :=
  ∀ (s : State) (t : Strip), s.canTake t .edition Kind.loadEdition →
    let r := s.request t
    let list := r.param 8 4
    let n := r.param 12 2
    let number := r.param 14 2
    let u := takeUp t .edition s
    let wrong : Prop := number ≤ s.editions.active.number.toNat
    let bad : Prop := n < 1 ∨ 960 < n ∨ list % 16 ≠ 0 ∨ 2 ^ 32 < list + 16 * n
    let composing : PendingSlot :=
      { state := .composing, number := BitVec.ofNat 16 number, total := (n + 14) / 15, crcs := [], digest := 0,
        effective := BitVec.ofNat 32 (r.param 16 4), region := s.editions.active.region.other, atRisk := false,
        warned := false }
    ∃ t', exec (.loadEdition t) s = .next t' ∧
      (s.editions.pending.state ≠ .pending →
        (wrong → Answers t ⟨5, false, 0⟩ u t') ∧
        (¬ wrong → bad → Answers t ⟨4, false, 0⟩ u t') ∧
        (¬ wrong → ¬ bad → Settled (want summaryRec { u with editions := { u.editions with
          pending := composing
          load := some { strip := t, list := list, count := n, next := 0, lastCode := 0, clamped := 0 } } }) t')) ∧
      (s.editions.pending.state = .pending →
        t'.mem = s.mem ∧ t'.change = s.change ∧ t'.clock = s.clock ∧ t'.editions.active = s.editions.active ∧
        t'.report.wanted[summaryRec] = true ∧
        (∀ k d, t'.delivery k = some d → d.mode ≠ .stage) ∧ (∀ g ∈ t'.sched.groups, g.cls ≠ .stage) ∧
        (∀ k, (t'.slot k).state = .current → (t'.slot k).heldPending = none) ∧
        (wrong ∨ bad → t'.editions.pending = .empty s.editions.pending.region ∧ t'.editions.load = none ∧
          t'.report.waiting = s.report.waiting ++
            [⟨[summaryRec], .outcome t ⟨if wrong then 5 else 4, false, 0⟩⟩]) ∧
        (¬ wrong → ¬ bad → t'.editions.pending = composing ∧ t'.editions.load ≠ none))

/-- A product record: refused with its index, or clamped and stored; the last record of a page closes the page,
and the last of the list ends the load. That the EMPTY slot of a refused list has effective minute 0 is the
model's (log 16). -/
def Obligations.ProductRecordRead : Prop :=
  ∀ (s : State) (l : Load), s.resetLow = false → s.working = true → Memory.wf s.mem = true →
    s.editions.load = some l →
    let e := s.editions.pending
    let b := Memory.readBytes s.mem (l.list + 16 * l.next) 16
    let f (o n : Nat) : Nat := leNat ((b.drop o).take n)
    let bad : Prop := f 0 2 = 0 ∨ (l.next ≠ 0 ∧ f 0 2 ≤ l.lastCode) ∨ 15 < f 2 1 ∨ f 4 4 = 0 ∨ 2147483648 ≤ f 8 4
    let validity := max 1 (min 10080 (f 12 2))
    let transfer := min validity (f 14 2)
    let clamped := if validity ≠ f 12 2 ∨ transfer ≠ f 14 2 then l.clamped + 1 else l.clamped
    let stored := b.take 3 ++ leBytes 1 (f 3 1 % 4) ++ (b.drop 4).take 8 ++ leBytes 2 validity ++ leBytes 2 transfer
    let page := l.next / 15
    let j := l.next % 15
    let base := s.editionBase e.region + 256 * page
    let closes : Prop := j = 14 ∨ l.next + 1 = l.count
    ∃ t, exec .productRecord s = .next t ∧ t.change = s.change ∧ t.clock = s.clock ∧
      (bad → t.mem = s.mem ∧ t.editions = { s.editions with load := none, pending := .empty e.region } ∧
        t.report.wanted[summaryRec] = true ∧
        t.report.waiting = s.report.waiting ++ [⟨[summaryRec], .outcome l.strip ⟨4, false, l.next⟩⟩]) ∧
      (¬ bad → ¬ closes → t.mem = Memory.writeBytes s.mem (base + 16 + 16 * j) stored) ∧
      (¬ bad → l.next + 1 ≠ l.count → t.editions = { s.editions with
        pending := t.editions.pending
        load := some { l with next := l.next + 1, lastCode := f 0 2, clamped := clamped } } ∧
        (¬ closes → t.editions.pending = e)) ∧
      (¬ bad → closes →
        let p := Memory.readBytes t.mem base 256
        p.take 12 = leBytes 2 e.number.toNat ++
          [BitVec.ofNat 8 page, BitVec.ofNat 8 e.total, BitVec.ofNat 8 (j + 1), 0, 0, 0] ++
          leBytes 4 e.effective.toNat ∧
        (p.drop 12).take 4 = leBytes 4 (pageCrc p).toNat ∧
        (p.drop 16).take (16 * j) = Memory.readBytes s.mem (base + 16) (16 * j) ∧
        (p.drop (16 + 16 * j)).take 16 = stored ∧
        p.drop (32 + 16 * j) = List.replicate (224 - 16 * j) 0 ∧
        (∀ a, a < base ∨ base + 256 ≤ a → Memory.read t.mem a = Memory.read s.mem a) ∧
        (l.next + 1 ≠ l.count → t.editions.pending = { e with crcs := e.crcs ++ [pageCrc p] }) ∧
        (l.next + 1 = l.count → s.clock.isSet = false →
          t.editions = { s.editions with
            load := none
            pending := { e with
              state := .pending, crcs := e.crcs ++ [pageCrc p], digest := e.crcs.foldl (· + ·) 0 + pageCrc p } } ∧
          t.report.wanted[summaryRec] = true ∧
          t.report.waiting = s.report.waiting ++
            [⟨[summaryRec], .outcome l.strip ⟨1, decide (clamped ≠ 0), clamped⟩⟩]) ∧
        (l.next + 1 = l.count → t.editions.load = none ∧ t.report.wanted[summaryRec] = true ∧
          EditionTested { s with
            roster := t.roster
            editions := { s.editions with pending := { e with
              state := .pending, crcs := e.crcs ++ [pageCrc p], digest := e.crcs.foldl (· + ·) 0 + pageCrc p } } } t ∧
          ∃ ws, t.report.waiting = s.report.waiting ++ ws ++
            [⟨[summaryRec], .outcome l.strip ⟨1, decide (clamped ≠ 0), clamped⟩⟩]))

/-- RESCHEDULE EDITION and WITHDRAW EDITION: WRONG_STATE for any other number, the new minute with the tests it
asks for, the EMPTY slot (its effective minute 0 is the model's, log 16). -/
def Obligations.RescheduleAndWithdraw : Prop :=
  (∀ (s : State) (t : Strip), s.canTake t .edition Kind.rescheduleEdition →
    let r := s.request t
    let u := takeUp t .edition s
    let mine : Prop := s.editions.pending.state = .pending ∧ s.editions.pending.number.toNat = r.param 8 2
    let minute := r.param 10 4
    ∃ t', exec (.rescheduleEdition t) s = .next t' ∧
      (¬ mine → Answers t ⟨5, false, 0⟩ u t') ∧
      (mine → s.clock.isSet = false ∨ s.clock.absolute + 10 < minute →
        Settled { u with
          editions := { u.editions with
            pending := { u.editions.pending with effective := BitVec.ofNat 32 minute } }
          report := { u.report with
            wanted := u.report.wanted.set summaryRec true
            waiting := u.report.waiting ++ [⟨[summaryRec], .outcome t ⟨1, false, 0⟩⟩] } } t') ∧
      (mine → t'.mem = s.mem ∧ t'.change = s.change ∧ t'.clock = s.clock ∧ t'.report.wanted[summaryRec] = true ∧
        EditionTested { s with editions := { s.editions with
          pending := { s.editions.pending with effective := BitVec.ofNat 32 minute } } } t' ∧
        ∃ ws, t'.report.waiting = s.report.waiting ++ ws ++ [⟨[summaryRec], .outcome t ⟨1, false, 0⟩⟩])) ∧
  (∀ (s : State) (t : Strip), s.canTake t .edition Kind.withdrawEdition →
    let u := takeUp t .edition s
    let mine : Prop :=
      s.editions.pending.state = .pending ∧ s.editions.pending.number.toNat = (s.request t).param 8 2
    ∃ t', exec (.withdrawEdition t) s = .next t' ∧
      (¬ mine → Answers t ⟨5, false, 0⟩ u t') ∧
      (mine → t'.mem = s.mem ∧ t'.change = s.change ∧ t'.clock = s.clock ∧
        t'.editions = { s.editions with
          pending := ⟨.empty, 0, 0, [], 0, 0, s.editions.pending.region, false, false⟩ } ∧
        (∀ k d, t'.delivery k = some d → d.mode ≠ .stage) ∧ (∀ g ∈ t'.sched.groups, g.cls ≠ .stage) ∧
        (∀ k, (t'.slot k).state = .current → (t'.slot k).heldPending = none) ∧
        t'.report.wanted[summaryRec] = true ∧
        t'.report.waiting = s.report.waiting ++ [⟨[summaryRec], .outcome t ⟨1, false, 0⟩⟩]))

/-- SET CLOCK: BAD_PARAM, or the clock takes day, minute and day start; purge job and CLOCK by the service day
-/
def Obligations.SetClockTakesTime : Prop :=
  ∀ (s : State) (t : Strip), s.canTake t .edition Kind.setClock →
    let r := s.request t
    let u := takeUp t .edition s
    let bad : Prop := 1440 ≤ r.param 10 2 ∨ 1440 ≤ r.param 12 2
    let first : Prop := s.clock.isSet = false
    ∃ t', exec (.setClock t) s = .next t' ∧
      (bad → Answers t ⟨4, false, 0⟩ u t') ∧
      (¬ bad →
        let d := t'.clock.serviceDay
        t'.clock = ⟨true, r.param 8 2, r.param 10 2, 0, r.param 12 2, 0, false⟩ ∧ t'.mem = s.mem ∧
        t'.change = { s.change with purge := t'.change.purge } ∧
        (first ∨ s.clock.serviceDay < d → s.change.pages ≠ 0 → t'.change.purge ≠ .empty) ∧
        ((¬ first ∧ d ≤ s.clock.serviceDay) ∨ s.change.pages = 0 → t'.change.purge = s.change.purge) ∧
        (first ∨ s.clock.serviceDay ≠ d → s.engine = .running →
          (⟨[summaryRec], .notice .clock⟩ : Waiting) ∈ t'.report.waiting) ∧
        (∀ l : Fin 4, s.lineOn l = true → t'.editions.timeDue[l] = true) ∧
        EditionTested { s with clock := t'.clock } t' ∧ t'.report.wanted[summaryRec] = true ∧
        ∃ ws, t'.report.waiting = s.report.waiting ++ ws ++ [⟨[summaryRec], .outcome t ⟨1, false, 0⟩⟩])

/-- A minute tick: one minute on, midnight, the clock's end, and what it starts by engine state; with an edition-manager job
running, its tests when that job ends. That a job runs until its outcome is handed over, and that what the tests then do comes
before the outcome, are the model's reading (log 48). -/
def Obligations.MinuteTickMovesClock : Prop :=
  (∀ s : State, s.resetLow = false →
    let c := s.clock
    let atEnd : Prop := c.day = 65535 ∧ c.minute = 1439
    ∃ t, exec .minuteTick s = .next t ∧ t.mem = s.mem ∧
      (c.isSet = false → Settled s t) ∧
      (c.isSet = true → atEnd → c.stopped = true → Settled s t) ∧
      (c.isSet = true → atEnd → c.stopped = false →
        Kept { s with clock := { c with stopped := true } } t ∧
        ∀ i, t.regs.events.getLsbD i = (s.regs.events.getLsbD i || (!s.isFaulted && decide (i = 4)))) ∧
      (c.isSet = true → ¬ atEnd →
        t.clock = { c with
          day := if c.minute = 1439 then c.day + 1 else c.day
          minute := if c.minute = 1439 then 0 else c.minute + 1
          seconds := 0, part := 0 } ∧
        t.change = { s.change with purge := t.change.purge } ∧
        (c.serviceDay < t.clock.serviceDay → s.change.pages ≠ 0 → t.change.purge ≠ .empty) ∧
        (t.clock.serviceDay ≤ c.serviceDay ∨ s.change.pages = 0 → t.change.purge = s.change.purge) ∧
        (t.clock.serviceDay ≠ c.serviceDay → s.isFaulted = false →
          (⟨[summaryRec], .notice .clock⟩ : Waiting) ∈ t.report.waiting) ∧
        (s.engine = .running → t.report.wanted[summaryRec] = true ∧
          ∀ l : Fin 4, s.lineOn l = true → t.editions.timeDue[l] = true) ∧
        (s.working = true → ¬ s.busyWith .edition → EditionTested { s with clock := t.clock } t) ∧
        (s.working = true → s.busyWith .edition →
          t.editions = { s.editions with
            timeDue := t.editions.timeDue, testsDue := s.editions.testsDue || s.editions.load.isNone }) ∧
        (s.working = false → t.editions = s.editions ∧ t.report.wanted = s.report.wanted ∧ t.roster = s.roster))) ∧
  (∀ (s : State) (u : Strip) (res : Result), s.resetLow = false → s.working = true → Memory.wf s.mem = true →
    s.report.wanted[summaryRec] = true → s.editions.testsDue = true →
    s.report.waiting = [⟨[summaryRec], .outcome u res⟩] → s.outcomeWaits .edition →
    (s.strip u).position < s.stripCount u →
    let a := s.desc.report + recordOffset summaryRec
    let count := leBytes 2 ((s.report.counts[summaryRec] + 2) % 65536)
    let written : State := { s with mem := Memory.writeBytes s.mem a (count ++ recordFields s summaryRec) }
    ∃ t, exec (.reportRewrite summaryRec) s = .next t ∧ t.editions.testsDue = false ∧ t.clock = s.clock ∧
      t.change = s.change ∧ EditionTested s t ∧
      (s.dueNow ∨ s.riskNow → (∀ b, Memory.read t.mem b = Memory.read written.mem b) ∧ t.strip u = s.strip u ∧
        ∃ ws, t.report.waiting = ws ++ [⟨[summaryRec], .outcome u res⟩] ∧ ⟨[summaryRec], .notice .edition⟩ ∈ ws) ∧
      (¬ s.dueNow → ¬ s.riskNow → Completed u res written t ∧ t.report.waiting = []))

/-- The tick that reaches the effective minute, with the edition manager idle, activates the pending edition in one step. That
the EMPTY slot has effective minute 0 is the model's (log 16), and that a job runs until its outcome is handed over (log 48);
what a tick during a job brings is in MinuteTickMovesClock. -/
def Obligations.ActivationAtMinuteTick : Prop :=
  ∀ s : State, s.resetLow = false → s.working = true → ¬ s.busyWith .edition → s.clock.isSet = true →
    ¬ (s.clock.day = 65535 ∧ s.clock.minute = 1439) → s.editions.pending.state = .pending →
    s.editions.pending.effective.toNat ≤ s.clock.day * 1440 + s.clock.minute + 1 → s.clock.minute ≤ 1439 →
    let p := s.editions.pending
    let holds (n : Fin 24) : Prop := ∃ m, (s.slot n).heldPending = some ⟨⟨p.number, p.digest⟩, true, m⟩
    ∃ t, exec .minuteTick s = .next t ∧ t.mem = s.mem ∧
      t.editions.active = ⟨true, p.number, p.total, p.crcs, p.digest, p.region⟩ ∧
      t.editions.pending = ⟨.empty, 0, 0, [], 0, 0, p.region.other, false, false⟩ ∧
      t.report.wanted[summaryRec] = true ∧
      (⟨[summaryRec], .notice .edition⟩ : Waiting) ∈ t.report.waiting ∧
      (∀ n, ((t.slot n).unconfirmed = true ↔ (s.slot n).unconfirmed = true ∨ holds n) ∧
        (t.slot n).heldActive = (s.slot n).heldActive ∧ (t.slot n).heldPending = (s.slot n).heldPending ∧
        ((t.slot n).state = .current → (t.slot n).heldActive = ⟨p.number, p.digest⟩ ∧
          (t.slot n).heldPending = none ∧ (t.slot n).unconfirmed = false)) ∧
      (∀ n l, holds n → s.lineOf n = some l → s.lineOn l = true →
        (t.arbiter l).activateDue = some p.number) ∧
      (∀ n d, t.delivery n = some d → d.mode ≠ .stage) ∧
      (∀ n d, s.delivery n = some d → d.mode = .install → t.delivery n = none) ∧
      (∀ n, t.flagsOf (t.slot n)) ∧
      ((∀ l, s.portReady l = false) →
        (∀ l u, (t.arbiter l).turn = some u → (s.arbiter l).turn = some u ∧ (u.cls = .stage →
          (∀ k, u.target ≠ .group k) ∧ ∀ n d, u.target = .slot n → s.delivery n = some d → d.mode ≠ .stage)) ∧
        (∀ n d, s.delivery n = some d → d.mode = .stage → t.delivery n = some { d with mode := .install }) ∧
        (∀ g ∈ s.sched.groups, g.cls = .stage → g.members ≠ [] → g.planned = true ∨ g.toOpen ≠ [] →
          (∀ n ∈ g.members, ∀ d, s.delivery n = some d → d.mode = .stage) →
          { g with cls := .install } ∈ t.sched.groups))

/-! ## The validator roster (chapter 4) -/

/-- PIN SLOT: BAD_PARAM, WRONG_STATE, or the slot bound, PINNED, SILENT, its data kept or cold -/
def Obligations.PinSlotBinds : Prop :=
  ∀ (s : State) (t : Strip), s.canTake t .atOnce Kind.pinSlot →
    let r := s.request t
    let u := takeUp t .atOnce s
    let drop := r.param 10 1
    let expected : BitVec 64 := BitVec.ofNat 64 (r.param 11 8)
    let bad : Prop := 24 ≤ r.param 8 1 ∨ 4 ≤ r.param 9 1 ∨ drop < 1 ∨ 30 < drop
    ∃ t', exec (.pinSlot t) s = .next t' ∧
      (bad → Answers t ⟨4, false, 0⟩ u t') ∧
      (∀ (n : Fin 24) (l : Fin 4), ¬ bad → r.param 8 1 = n.val → r.param 9 1 = l.val →
        let b := (s.actingLine l, drop)
        let old := s.slot n
        let serial := if expected ≠ 0 then expected else if old.binding = some b then old.serial else 0
        let kept : Prop := old.binding = some b ∧ serial = old.serial
        let base : Slot := if kept then old else .cold
        ((∃ m, m ≠ n ∧ (s.slot m).binding = some b) → Answers t ⟨5, false, 0⟩ u t') ∧
        ((∀ m, m ≠ n → (s.slot m).binding ≠ some b) →
          Completed t ⟨1, false, 0⟩ u t' ∧
          t'.slot n = { base with
            state := .silent, binding := some b, mode := .pinned, frozen := decide (r.param 19 1 ≠ 0)
            serial := serial, serialSeen := 0, reason := .none, replaced := false, duplicate := false
            window := none, reach := .primary, misses := 0, failures := 0, garbleRun := 0, backoff := none
            keepalive := some 0, kept := none, identify := none, counters := old.counters } ∧
          (∀ m, m ≠ n → t'.slot m = s.slot m) ∧ t'.roster.lines = s.roster.lines ∧ t'.delivery n = none ∧
          t'.marks n = (if kept then s.marks n else ⟨false, false, false⟩) ∧ (¬ kept → t'.sweep n = .cold) ∧
          t'.change = s.change ∧ t'.editions = s.editions ∧ t'.clock = s.clock ∧ t'.profiles = s.profiles))

/-- FREE, RELEASE and RESYNC SLOT: what each refuses and what each leaves in the slot. That a CURRENT slot made BEHIND keeps its
keep-alive due time is the model's reading (log 64). -/
def Obligations.FreeReleaseResync : Prop :=
  ∀ (s : State) (t : Strip),
    let r := s.request t
    let u := takeUp t .atOnce s
    let bad : Prop := 24 ≤ r.param 8 1
    (s.canTake t .atOnce Kind.freeSlot → ∃ t', exec (.freeSlot t) s = .next t' ∧
      (bad → Answers t ⟨4, false, 0⟩ u t') ∧
      (∀ n : Fin 24, r.param 8 1 = n.val → Completed t ⟨1, false, 0⟩ u t' ∧ t'.slot n = .cold ∧
        t'.marks n = ⟨false, false, false⟩ ∧ t'.sweep n = .cold ∧ t'.roster.full = false ∧ t'.delivery n = none ∧
        ∀ m, m ≠ n → t'.slot m = s.slot m)) ∧
    (s.canTake t .atOnce Kind.releaseSlot → ∃ t', exec (.releaseSlot t) s = .next t' ∧
      (bad → Answers t ⟨4, false, 0⟩ u t') ∧
      (∀ n : Fin 24, r.param 8 1 = n.val →
        ((s.slot n).state ≠ .quarantined → Answers t ⟨5, false, 0⟩ u t') ∧
        ((s.slot n).state = .quarantined → Completed t ⟨1, false, 0⟩ u t' ∧
          t'.slot n = { s.slot n with
            state := .silent, reason := .none, failures := 0, misses := 0, garbleRun := 0, backoff := none
            window := none, keepalive := some 0 } ∧
          ∀ m, m ≠ n → t'.slot m = s.slot m))) ∧
    (s.canTake t .atOnce Kind.resyncSlot → ∃ t', exec (.resyncSlot t) s = .next t' ∧
      (bad → Answers t ⟨4, false, 0⟩ u t') ∧
      (∀ n : Fin 24, r.param 8 1 = n.val →
        ((s.slot n).state = .vacant → Answers t ⟨5, false, 0⟩ u t') ∧
        ((s.slot n).state ≠ .vacant → Completed t ⟨1, false, 0⟩ u t' ∧
          t'.slot n = { s.slot n with
            reload := true, heldH := 0, repair := false
            state := if (s.slot n).state = .current then .behind else (s.slot n).state } ∧
          t'.sweep n = .cold ∧
          (∀ d, s.delivery n = some d → d.mode.isBlocklist = true → t'.delivery n = none) ∧
          ∀ m, m ≠ n → t'.slot m = s.slot m)))

/-- CLEAR COUNTERS acts on the slots and lines of its masks and ends OK. That the outcome comes before the rewrites of the
records it made due is the model's choice (log 71). -/
def Obligations.ClearCountersByMask : Prop :=
  ∀ (s : State) (t : Strip), s.canTake t .atOnce Kind.clearCounters →
    let slots : BitVec 32 := BitVec.ofNat 32 ((s.request t).param 8 4)
    let lines : BitVec 8 := BitVec.ofNat 8 ((s.request t).param 12 1)
    let u := takeUp t .atOnce s
    ∃ t', exec (.clearCounters t) s = .next t' ∧ Completed t ⟨1, false, 0⟩ u t' ∧
      (∀ n : Fin 24,
        (slots.getLsbD n.val = true →
          t'.slot n = { s.slot n with
            counters := ⟨0, 0, 0, 0, 0, 0, 0, 0⟩, replaced := false, duplicate := false } ∧
          t'.report.wanted[rosterRec n] = true) ∧
        (slots.getLsbD n.val = false → t'.slot n = s.slot n)) ∧
      (∀ l : Fin 4, (t'.port l).counters =
        (if lines.getLsbD l.val then ⟨0, 0, 0, 0, 0⟩ else (s.port l).counters)) ∧
      ((∀ n : Fin 24, slots.getLsbD n.val = false) → (∀ l : Fin 4, lines.getLsbD l.val = false) →
        Answers t ⟨1, false, 0⟩ u t')

/-- The expiries of the roster's and the ports' timers: what falls due, and nothing else. One discovery timer
for every line is the model's choice (log 25); a line record timer that leaves the record due is its reading
(log 44). -/
def Obligations.TimersFallDue : Prop :=
  (∀ (s : State) (n : Fin 24) (l : Fin 4), s.resetLow = false → s.engine = .running → s.lineOf n = some l →
    s.lineOn l = true → (s.slot n).keepalive ≠ none →
    ∃ t, exec (.keepaliveDue n) s = .next t ∧ Settled (s.setSlot n { s.slot n with keepalive := some 0 }) t) ∧
  (∀ (s : State) (n : Fin 24), s.resetLow = false → s.engine = .running →
    ∃ t, exec (.backoffExpiry n) s = .next t ∧ Settled (s.setSlot n { s.slot n with backoff := none }) t) ∧
  (∀ (s : State) (n : Fin 24), s.resetLow = false → s.engine = .running → (s.slot n).state = .identifying →
    (s.slot n).identify ≠ none →
    ∃ t, exec (.identifyDue n) s = .next t ∧ Settled (s.setSlot n { s.slot n with identify := some 0 }) t) ∧
  (∀ (s : State) (n : Fin 24), s.resetLow = false →
    ∃ t, exec (.replacementWindowClose n) s = .next t ∧
      Settled (s.setSlot n { s.slot n with window := none }) t) ∧
  (∀ s : State, s.resetLow = false → s.engine = .running →
    ∃ t, exec .discoveryVisitDue s = .next t ∧
      (∀ l : Fin 4, (t.arbiter l).discoveryDue = ((s.arbiter l).discoveryDue || s.lineOn l)) ∧
      Settled { s with
        roster := { s.roster with visitLeft := 250 * Config.ms }
        sched := { s.sched with arbiters := Vector.ofFn fun l : Fin 4 =>
          { s.arbiter l with discoveryDue := (s.arbiter l).discoveryDue || s.lineOn l } } } t) ∧
  (∀ (s : State) (l : Fin 4), s.resetLow = false → s.working = true → (s.port l).recordTimer ≠ none →
    ∃ t, exec (.lineRecordTimer l) s = .next t ∧ t.report.wanted[lineRec l] = true ∧
      (t.port l).recordTimer = none ∧ Settled (want (lineRec l) s) t)

/-! ## Line ports, profiles and frames (chapter 5) -/

/-- The profile table: defaults at power-on and RESTART, SET PROFILE refused, clamped and stored -/
def Obligations.SetProfileStoresClamped : Prop :=
  (∀ s : State, ∃ t, exec .powerOn s = .next t ∧ ∀ i : Fin 4, t.profiles[i] = ⟨3, 40, 2, 2, 3, 8, 8, false, true⟩) ∧
  (∀ (s : State) (v : Word), v.getLsbD 1 = true → s.resetLow = false → ∃ t, exec (.restart v) s = .next t ∧
    ∀ i : Fin 4, t.profiles[i] = ⟨3, 40, 2, 2, 3, 8, 8, false, true⟩) ∧
  (∀ (s : State) (t : Strip), s.canTake t .atOnce Kind.setProfile →
    let f (o : Nat) : Nat := (s.request t).param o 1
    let u := takeUp t .atOnce s
    let bad : Prop := 4 ≤ f 8 ∨ 7 ≤ f 9 ∨ 2 ≤ f 16
    let timeout := max 1 (f 10)
    let gap := max 2 (min 32 (f 11))
    let retries := min 3 (f 12)
    let miss := max 1 (min 15 (f 13))
    let keepalive := max 1 (min 240 (f 14))
    let quarantine := max 1 (min 15 (f 15))
    let changed := [(timeout, f 10), (gap, f 11), (retries, f 12), (miss, f 13), (keepalive, f 14), (quarantine, f 15)]
    let count := (changed.filter fun x => decide (x.1 ≠ x.2)).length
    ∃ t', exec (.setProfile t) s = .next t' ∧
      (bad → Answers t ⟨4, false, 0⟩ u t') ∧
      (∀ (i : Fin 4) (rate : Fin 7), ¬ bad → f 8 = i.val → f 9 = rate.val →
        Completed t ⟨1, decide (count ≠ 0), count⟩ u t' ∧ count ≤ 6 ∧
        t'.profiles[i] = ⟨rate, timeout, gap, retries, miss, keepalive, quarantine, decide (f 16 = 1), decide (f 17 ≠ 0)⟩ ∧
        (∀ j : Fin 4, j ≠ i → t'.profiles[j] = s.profiles[j]) ∧
        (∀ n, t'.slot n = { s.slot n with served := (t'.slot n).served } ∧
          (∀ l, s.lineOf n = some l → (s.port l).profile = i → (t'.slot n).servedAt rate) ∧
          ((∀ l, s.lineOf n = some l → (s.port l).profile ≠ i) → (t'.slot n).served = (s.slot n).served)) ∧
        t'.change = s.change ∧ t'.editions = s.editions ∧ t'.clock = s.clock))

/-- SET LINE: BAD_PARAM, WRONG_STATE, or mode and profile recorded; a line going OFF makes its slots SILENT. What becomes of a
frame that a loop takes from the receiver of an odd line set OFF is the model's choice (log 57). -/
def Obligations.SetLineRecordsMode : Prop :=
  ∀ (s : State) (t : Strip), s.canTake t .atOnce Kind.setLine →
    let f (o : Nat) : Nat := (s.request t).param o 1
    let u := takeUp t .atOnce s
    let bad : Prop := 4 ≤ f 8 ∨ 3 ≤ f 9 ∨ 4 ≤ f 10 ∨ (f 9 = 2 ∧ f 8 % 2 = 1)
    ∃ t', exec (.setLine t) s = .next t' ∧
      (bad → Answers t ⟨4, false, 0⟩ u t') ∧
      (∀ l i : Fin 4, ¬ bad → f 8 = l.val → f 10 = i.val →
        let named (k : Fin 4) : Prop :=
          k = l ∨ ((s.paired l = true ∨ f 9 = 2) ∧ k = partner l)
        let mode (k : Fin 4) : LineMode :=
          if f 9 = 0 then .off else if f 9 = 1 then .single else if k = l then .pairPrimary else .pairSecondary
        let merges : Prop := f 9 = 2 ∧ s.paired l = false ∧
          ∃ n m a, (s.slot n).binding = some (l, a) ∧ (s.slot m).binding = some (partner l, a)
        (merges → Answers t ⟨5, false, 0⟩ u t') ∧
        (¬ merges → Completed t ⟨1, false, 0⟩ u t' ∧
          (∀ k, named k → (t'.port k).mode = mode k ∧ (t'.port k).profile = i ∧ (t'.lineRoster k).clash = []) ∧
          (∀ k, ¬ named k → (t'.port k).mode = (s.port k).mode ∧ (t'.port k).profile = (s.port k).profile ∧
            (t'.lineRoster k).clash = (s.lineRoster k).clash) ∧
          (∀ k, named k → f 9 = 0 → (t'.port k).applied = .off ∧
            ((s.port k).xstate ≠ .sending → (t'.port k).xstate = .idle ∧ (t'.port k).exchange = none)) ∧
          (∀ o, f 9 = 0 → s.paired l = false → s.looped (partner l) = true →
            (s.port (partner l)).xstate = .receiving o → (s.port (partner l)).rxSide = .secondary →
            (t'.port (partner l)).xstate = (if o = .awaiting then .awaiting else .gap) ∧
            (t'.port (partner l)).replyLeft = (s.port (partner l)).replyLeft ∧
            ∀ k, (t'.port k).counters = (s.port k).counters) ∧
          (∀ n, (t'.slot n).counters = (s.slot n).counters ∧ (t'.slot n).serial = (s.slot n).serial ∧
            (t'.slot n).heldId = (s.slot n).heldId ∧ (t'.slot n).heldH = (s.slot n).heldH ∧
            (t'.slot n).heldActive = (s.slot n).heldActive ∧ (t'.slot n).heldPending = (s.slot n).heldPending) ∧
          (∀ n, (∃ k, named k ∧ s.lineOf n = some k) → f 9 = 0 →
            ((s.slot n).state = .identifying ∨ (s.slot n).state = .behind ∨ (s.slot n).state = .current) →
            (t'.slot n).state = .silent ∧ t'.delivery n = none) ∧
          (∀ n, (f 9 ≠ 0 ∨ (∀ k, named k → s.lineOf n ≠ some k) ∨ (s.slot n).state = .vacant ∨
              (s.slot n).state = .silent ∨ (s.slot n).state = .quarantined) → (t'.slot n).state = (s.slot n).state) ∧
          ((∃ k, named k ∧ (s.lineRoster k).clash ≠ []) → ∃ w ∈ t'.report.waiting, w.act = .notice .line ∧
            ∀ q, q ∈ w.needs ↔ ∃ k, named k ∧ q = lineRec k) ∧
          (∀ n d, f 9 = 2 → s.paired l = false → (s.slot n).binding = some (partner l, d) →
            (t'.slot n).binding = some (l, d)) ∧
          (∀ n, (∀ k, named k → t'.lineOf n = some k → (t'.slot n).servedAt (s.profiles[i]).rate) ∧
            ((∀ k, named k → t'.lineOf n ≠ some k) → (t'.slot n).served = (s.slot n).served)) ∧
          t'.change = s.change ∧ t'.clock = s.clock ∧ t'.profiles = s.profiles))

/-- A change of mode that waited takes effect at IDLE: modes in force, a pair started, an odd line split off.
When a change of mode waits for this command (log 24) and that a pair accepted again while its split waits
starts anew (log 57) are the model's, and so is that a visit due on the secondary does not pass to the pair (log 69). -/
def Obligations.LineModeTakesEffect : Prop :=
  ∀ (s : State) (l : Fin 4), s.resetLow = false → s.working = true →
    (s.port l).applied ≠ (s.port l).mode ∨ (s.port (evenLine l)).forming = true →
    (∀ k ∈ s.modeLines l, (s.port k).xstate = .idle ∧ (s.port k).exchange = none) →
    ∃ t, exec (.lineModeChangeApplied l) s = .next t ∧ t.mem = s.mem ∧ t.change = s.change ∧ t.clock = s.clock ∧
      t.profiles = s.profiles ∧ l ∈ s.modeLines l ∧
      (∀ k, (t.port k).mode = (s.port k).mode ∧ (t.port k).profile = (s.port k).profile ∧
        (k ∉ s.modeLines l → (t.port k).applied = (s.port k).applied ∧ (t.port k).tag = (s.port k).tag)) ∧
      (∀ k ∈ s.modeLines l, (t.port k).applied = (s.port k).mode ∧
        ((s.port k).applied = .off → (s.port k).mode ≠ .off →
          (t.lineRoster k).position = 1 ∧ (t.port k).last = none) ∧
        ((s.port k).applied = .pairSecondary → (s.port k).mode ≠ .pairSecondary →
          (t.port k).tag = 0 ∧ (t.lineRoster k).position = 1) ∧
        ((s.port k).applied ≠ .pairSecondary ∨ (s.port k).mode = .pairSecondary →
          (t.port k).tag = (s.port k).tag)) ∧
      (let e := evenLine l
       s.looped e = false ∨ (s.port e).forming = true →
       (s.port e).mode = .pairPrimary → (s.port (partner e)).mode = .pairSecondary →
        (t.port e).forming = false ∧ (t.port e).broken = false ∧ (t.port e).missRun = 0 ∧ (t.port e).goodRun = 0 ∧
        t.arbiter (partner e) = .cold ∧ ∀ n, s.lineOf n = some e → (t.slot n).reach = .primary)

/-- FRAME_START: the content of each request, what its start does to the delivery record, the marks and the
discovery position, and the frame that an IDLE port drives once the line has been idle. That an exchange with
nothing left to send is taken back is the model's choice (log 19); when a DISCARD is due its reading (log 17).
-/
def Obligations.FrameStartDrivesRequest : Prop :=
  (∀ (s : State) (l : Fin 4) (n : Fin 24) (a : Nat), (s.slot n).binding = some (l, a) →
    let v := s.slot n
    let c := s.change
    let e := s.editions
    let sent (w : Work) (rate : Fin 7) (code : Byte) (content : List Byte) (makes : State → Prop) : Prop :=
      ∃ f, s.requestFrame l w = some f ∧ f.addr = a ∧ f.code = code ∧ f.content = content ∧ f.noReply = false ∧
        f.rate = rate ∧ makes f.after
    let nothing (u : State) : Prop := u = s
    let plan (mode : Mode) (h : Word) (hot : StampRec → Prop) (ps : List Nat) : Prop :=
      ps.Pairwise (· < ·) ∧ ∀ p, p ∈ ps ↔ ∃ r, c.table[p]? = some r ∧ hot r ∧
        (if mode = .delta then h < r.stamp else r.live ≠ 0 ∨ 1 < r.stamp)
    let fresh (mode : Mode) : Delivery :=
      { mode := mode, identity := 0, baseH := 0, edition := ⟨0, 0⟩, total := 0, target := 0
        streamed := (s.profileOf l).streamed, grouped := (s.groupOf n).isSome, urgent := [], rest := [], late := []
        inFlight := none, mask := 0, tallyCount := 0, tallySum := 0, phase := .opening, makeActive := false
        repairReload := false }
    let opens (kind : OpenKind) : Prop :=
      s.delivery n = none ∧ ∀ g, s.groupOf n = some g → n ∈ g.toOpen ∧ g.cls.openKind = kind
    let head (set mode : Byte) : List Byte := [set, mode, if (s.groupOf n).isSome then 1 else 0]
    let target := ((s.groupOf n).bind (·.target)).getD c.gen
    let planned (mode : Mode) (h : Word) (mends : Bool) (u : State) : Prop :=
      (∃ urgent rest, u.delivery n = some { fresh mode with
          identity := c.identity, baseH := h, target := target, urgent := urgent, rest := rest, repairReload := mends } ∧
        plan mode h (fun r => h < r.hot) urgent ∧
        (s.groupOf n = none → plan mode h (fun r => r.hot ≤ h) rest) ∧ (s.groupOf n ≠ none → rest = [])) ∧
      (u.groupOf n).map (·.target) = (s.groupOf n).map fun _ => some target
    let staged (mode : Mode) (number : BitVec 16) (digest : Word) (total : Nat) (u : State) : Prop :=
      u.delivery n = some { fresh mode with edition := ⟨number, digest⟩, total := total }
    let reloads : Prop := v.reload = true ∨ v.heldId ≠ c.identity ∨ v.heldH = 0
    let block (mode : Byte) (h : Word) : List Byte :=
      head 1 mode ++ leBytes 4 c.identity.toNat ++ leBytes 4 h.toNat ++ leBytes 4 target.toNat ++
      leBytes 2 c.pages ++ leBytes 4 c.seed.toNat
    let edition (mode : Byte) (number : BitVec 16) (total : Nat) (digest minute : Word) : List Byte :=
      head 2 mode ++ leBytes 2 number.toNat ++ leBytes 1 total ++ leBytes 4 digest.toNat ++ leBytes 4 minute.toNat
    let still : Prop := c.pages ≠ 0 ∧ c.changing = false
    let level2 : Prop := ∃ k, v.cap = some k ∧ k.level = 2
    sent (.poll n) (if v.state = .silent then 0 else v.served) 0x01 [] nothing ∧
    sent (.confirm n) (if v.state = .silent then 0 else v.served) 0x01 [] nothing ∧
    (v.state = .identifying → sent (.identify n) 0 0x02 [] nothing) ∧
    (opens .blocklist → still → reloads →
      sent (.openTo n .blocklist) v.served 0x10 (block 2 0) (planned .reload 0 false)) ∧
    (opens .blocklist → still → ¬ reloads → v.heldH < c.gen →
      sent (.openTo n .blocklist) v.served 0x10 (block 1 v.heldH) (planned .delta v.heldH false)) ∧
    (opens .repair → still → ¬ reloads → ¬ v.heldH < c.gen → v.repair = true →
      (level2 → sent (.openTo n .repair) v.served 0x10 (block 3 0) fun u => u.delivery n =
        some { fresh .repair with identity := c.identity, target := target }) ∧
      (¬ level2 → sent (.openTo n .repair) v.served 0x10 (block 2 0) (planned .reload 0 true))) ∧
    (opens .stage → e.pending.state = .pending → ¬ s.needsDiscard n → sent (.openTo n .stage) v.served 0x10
      (edition 4 e.pending.number e.pending.total e.pending.digest e.pending.effective)
      (staged .stage e.pending.number e.pending.digest e.pending.total)) ∧
    (opens .stage → s.needsDiscard n → s.requestFrame l (.openTo n .stage) = none) ∧
    (opens .install → e.active.present = true → sent (.openTo n .install) v.served 0x10
      (edition 5 e.active.number e.active.total e.active.digest 0)
      (staged .install e.active.number e.active.digest e.active.total)) ∧
    (∀ d, s.delivery n = some d → d.phase = .opened →
      let tally := leBytes 2 d.tallyCount.toNat ++ leBytes 4 d.tallySum.toNat
      let quiet : Prop := c.gen = d.target ∧ c.changing = false
      let closes (u : State) : Prop :=
        u.delivery n = some { d with phase := .closing, makeActive := decide (d.mode = .install) }
      (d.mode.isBlocklist = true → quiet → sent (.close n) v.served 0x13
        ([1] ++ leBytes 4 d.target.toNat ++ tally ++ leBytes 4 c.digest.toNat ++ [0]) closes) ∧
      (d.mode.isBlocklist = true → ¬ quiet → sent (.close n) v.served 0x13
        ([1] ++ leBytes 4 d.target.toNat ++ tally ++ [0, 0, 0, 0] ++ [1]) closes) ∧
      (d.mode.isBlocklist = false → sent (.close n) v.served 0x13
        ([2] ++ leBytes 4 d.edition.number.toNat ++ tally ++ leBytes 4 d.edition.digest.toNat ++
          [if d.mode = .install then 2 else 0]) closes) ∧
      (d.mode = .repair → (s.sweep n).cursor < c.pages → c.changing = false → sent (.check n) v.served 0x14
        (leBytes 2 (s.sweep n).cursor ++ leBytes 1 (min 8 (c.pages - (s.sweep n).cursor))) nothing)) ∧
    (e.active.present = true → s.staged n ⟨e.active.number, e.active.digest⟩ → (s.marks n).activateSent = false →
      sent (.activate n) v.served 0x20 (leBytes 2 e.active.number.toNat)
        fun u => u.marks n = { s.marks n with activateSent := true }) ∧
    (∀ p, v.heldPending = some p → s.needsDiscard n →
      sent (.discard n) v.served 0x21 (leBytes 2 p.edition.number.toNat) nothing)) ∧
  (∀ (s : State) (l : Fin 4),
    let all (w : Work) (code : Byte) (content : List Byte) : Prop :=
      ∃ f, s.requestFrame l w = some f ∧ f.addr = 31 ∧ f.code = code ∧ f.content = content ∧ f.noReply = true ∧
        f.rate = 0
    (∃ f, s.requestFrame l .time = some f ∧ f.after.editions.timeDue = s.editions.timeDue.set l false) ∧
    all .time 0x22 (leBytes 2 s.clock.day ++ leBytes 2 s.clock.minute) ∧
    (∀ k, (s.arbiter l).activateDue = some k → all .activateAll 0x20 (leBytes 2 k.toNat)) ∧
    ((∀ b, ¬ s.visits l b) → s.requestFrame l .discovery = none) ∧
    ∀ b, s.visits l b → ∃ f, s.requestFrame l .discovery = some f ∧ f.addr = b ∧ f.code = 0x02 ∧ f.content = [] ∧
      f.noReply = false ∧ f.rate = 0 ∧ (f.after.lineRoster l).position = b % 30 + 1 ∧
      (f.after.arbiter l).discoveryDue = false ∧ f.after.sched.deliveries = s.sched.deliveries) ∧
  (∀ (s : State) (l : Fin 4) (ex : Exchange), s.resetLow = false → s.working = true → (s.port l).xstate = .idle →
    (s.port l).exchange = some ex → ex.started = false →
    ∃ t, exec (.frameStart l) s = .next t ∧ t.mem = s.mem ∧ t.change = s.change ∧ t.profiles = s.profiles ∧
      (∀ f, s.requestFrame l ex.work = some f → f.addr < 32 →
        let byte := 10 * Config.second / baud f.rate
        let n := f.content.length
        let tag := (s.port l).tag
        let side := sidePort l (s.firstSide l ex.work)
        let head : List Byte := [0xB4, BitVec.ofNat 8 f.addr, f.code,
          tag.setWidth 8 + (if f.noReply then 16 else 0)] ++ leBytes 2 n
        let block : List Byte := (if f.code = 0x12 then 0xBD else 0xB7) :: f.content
        ((s.port l).idleTime < 2 * byte → Settled s t ∧ (t.port l).exchange = some ex) ∧
        (2 * byte ≤ (s.port l).idleTime → (t.port l).xstate = .sending ∧ (t.port l).tag = tag + 1 ∧
          (t.port l).tx = head ++ leBytes 2 (crc16 head).toNat ++
            (if n = 0 then [] else block ++ leBytes 2 (crc16 block).toNat) ∧
          (t.port l).sendLeft = (if n = 0 then 8 else n + 11) * byte ∧
          t.roster = f.after.roster ∧ t.editions = f.after.editions ∧
          ((∀ k, k ≠ l → s.portReady k = false) → t.sched = f.after.sched) ∧
          (t.port side).counters = { (s.port side).counters with
            sent := min ((s.port side).counters.sent + 1) 65535 } ∧
          ∃ ex', (t.port l).exchange = some ex' ∧ ex'.work = ex.work ∧ ex'.started = true ∧ ex'.tag = tag ∧
            ex'.noReply = f.noReply ∧ ex'.repeated = false ∧
            ex'.retries = (if ex.work = .discovery then 0 else (s.profileOf l).retries))) ∧
      (s.requestFrame l ex.work = none → (t.port l).xstate = .idle ∧ (t.port l).tag = (s.port l).tag ∧
        (t.port l).tx = (s.port l).tx ∧ (t.port l).counters = (s.port l).counters))

/-- The next PAGE or VOID of a delivery or a group: its page, stamp, bytes and CRCs as the frame starts, NO
REPLY by write mode. A blocklist page's CRC is the stamp table's; an edition page's is the CRC field read (log 18). -/
def Obligations.PageFrameCarriesPage : Prop :=
  (∀ (s : State) (l : Fin 4) (n : Fin 24) (ex : Exchange) (d : Delivery) (p : Nat), s.resetLow = false →
    s.working = true → (s.port l).xstate = .idle → (s.port l).exchange = some ex → ex.started = false →
    ex.work = .page n → s.lineOf n = some l → s.delivery n = some d → d.phase = .opened →
    (if d.mode = .repair then (s.sweep n).list else d.urgent ++ d.rest).head? = some p →
    2 * (10 * Config.second / baud (s.slot n).served) ≤ (s.port l).idleTime →
    let page (base : Nat) : List Byte := Memory.readBytes s.mem (base + 256 * p) 256
    let crc (base : Nat) : Word := BitVec.ofNat 32 (leNat (((page base).drop 12).take 4))
    let region := if d.mode = .stage then s.editions.pending.region else s.editions.active.region
    let live := s.imageBase s.change.region
    let fares := s.editionBase region
    ∃ t, exec (.frameStart l) s = .next t ∧
      (∀ r, d.mode.isBlocklist = true → s.change.changing = false → s.change.table[p]? = some r →
        t.delivery n = some { d with inFlight := some p } ∧
        ∃ e, (t.port l).exchange = some e ∧ e.noReply = (d.streamed && decide (d.mode ≠ .repair)) ∧
          (r.live = 0 → e.code = 0x12 ∧ e.content = leBytes 2 p ++ leBytes 4 r.stamp.toNat ∧
            e.page = some ⟨p, true, 0, r.crc⟩) ∧
          (r.live ≠ 0 → e.code = 0x11 ∧ e.content = [1] ++ leBytes 2 p ++ leBytes 4 r.stamp.toNat ++ page live ∧
            e.page = some ⟨p, false, r.crc, r.crc⟩)) ∧
      (d.mode.isBlocklist = false →
        t.delivery n = some { d with inFlight := some p } ∧
        ∃ e, (t.port l).exchange = some e ∧ e.noReply = d.streamed ∧ e.code = 0x11 ∧
          e.content = [2] ++ leBytes 2 p ++ leBytes 2 d.edition.number.toNat ++ [0, 0] ++ page fares ∧
          e.page = some ⟨p, false, crc fares, crc fares⟩)) ∧
  (∀ (s : State) (l : Fin 4) (k : Nat) (ex : Exchange) (g : Group) (mode : Mode) (number : BitVec 16) (p : Nat),
    s.resetLow = false → s.working = true → (s.port l).xstate = .idle → (s.port l).exchange = some ex →
    ex.started = false → ex.work = .groupPage k → s.group k = some g → g.plan.head? = some p →
    (∃ n ∈ g.members, s.delivery n ≠ none) →
    (∀ n ∈ g.members, ∀ d, s.delivery n = some d → d.mode.isBlocklist = mode.isBlocklist ∧
      (mode.isBlocklist = false → d.mode = mode ∧ d.edition.number = number)) →
    2 * (10 * Config.second / baud g.rate) ≤ (s.port l).idleTime →
    let page (base : Nat) : List Byte := Memory.readBytes s.mem (base + 256 * p) 256
    let crc (base : Nat) : Word := BitVec.ofNat 32 (leNat (((page base).drop 12).take 4))
    let region := if mode = .stage then s.editions.pending.region else s.editions.active.region
    let live := s.imageBase s.change.region
    let fares := s.editionBase region
    ∃ t, exec (.frameStart l) s = .next t ∧
      let goes (code : Byte) (content : List Byte) (read : PageRead) : Prop :=
        (∃ e, (t.port l).exchange = some e ∧ e.addr = 31 ∧ e.code = code ∧ e.content = content ∧ e.noReply = true ∧
          e.rate = g.rate ∧ e.members = g.members ∧ e.page = some read) ∧
        ((∀ m, s.portReady m = false) → t.group k = some { g with inFlight := some p })
      (∀ r, mode.isBlocklist = true → s.change.changing = false → s.change.table[p]? = some r →
        (r.live = 0 → goes 0x12 (leBytes 2 p ++ leBytes 4 r.stamp.toNat) ⟨p, true, 0, r.crc⟩) ∧
        (r.live ≠ 0 → goes 0x11 ([1] ++ leBytes 2 p ++ leBytes 4 r.stamp.toNat ++ page live)
          ⟨p, false, r.crc, r.crc⟩)) ∧
      (mode.isBlocklist = false →
        goes 0x11 ([2] ++ leBytes 2 p ++ leBytes 2 number.toNat ++ [0, 0] ++ page fares)
          ⟨p, false, crc fares, crc fares⟩))

/-- The end of a frame's last byte: AWAITING, or for NO REPLY the turnaround gap, the second copy, the tally.
That the first copy counts (log 29) and how a frame on a line set OFF ends (log 37) are the model's reading. -/
def Obligations.FrameSentAwaitsOrEnds : Prop :=
  ∀ (s : State) (l : Fin 4) (ex : Exchange), s.resetLow = false → (s.port l).xstate = .sending →
    (s.port l).exchange = some ex → (∀ m, ex.work.slot = some m → s.lineOf m = some l) →
    let echo := (s.port l).echoDue || (s.looped l && decide (ex.side = .primary))
    let ends : Prop := s.isFaulted = false ∧ ex.noReply = true
    let counts : Prop := ends ∧ ex.repeated = false ∧ ex.withdrawn = false
    ∃ t, exec (.frameSent l) s = .next t ∧ t.mem = s.mem ∧ t.change = s.change ∧
      (s.isFaulted = true →
        Settled (s.modPort l fun p =>
          { p with xstate := .idle, exchange := none, reply := none, idleTime := 0 }) t ∧
        (t.port l).exchange = none) ∧
      (s.isFaulted = false → ex.noReply = false → (t.port l).exchange = some ex ∧
        Settled (s.modPort l fun p =>
          { p with xstate := .awaiting, replyLeft := ex.timeout, echoDue := echo, idleTime := 0 }) t) ∧
      (ends → (t.port l).echoDue = echo ∧ (t.port l).idleTime = 0 ∧
        (ex.twice = true → ex.repeated = false → (t.port l).xstate = .gap ∧ (t.port l).gapLeft = (s.port l).gap ∧
          (t.port l).exchange = some { ex with after := .copy }) ∧
        (ex.twice = false ∨ ex.repeated = true → (t.port l).exchange = none ∧
          ((s.port l).mode ≠ .off → (t.port l).xstate = .gap ∧ (t.port l).gapLeft = (s.port l).gap) ∧
          ((s.port l).mode = .off → (t.port l).xstate = .idle ∧ (t.port l).applied = .off))) ∧
      (∀ n r d, counts → ex.work = .page n → ex.page = some r → s.lineOf n = some l → s.delivery n = some d →
        (t.slot n).counters.pagesSent = min ((s.slot n).counters.pagesSent + 1) 65535 ∧
        t.delivery n = some { d with
          tallyCount := d.tallyCount + 1, tallySum := d.tallySum + r.tallyCrc, inFlight := none
          urgent := if d.inFlight = some r.page then d.urgent.erase r.page else d.urgent
          rest := if d.inFlight = some r.page then d.rest.erase r.page else d.rest }) ∧
      (∀ g r n d, counts → ex.work = .groupPage g → ex.page = some r → ex.members.Nodup → n ∈ ex.members →
        s.lineOf n = some l → s.delivery n = some d →
        (t.slot n).counters.pagesSent = min ((s.slot n).counters.pagesSent + 1) 65535 ∧
        t.delivery n = some { d with tallyCount := d.tallyCount + 1, tallySum := d.tallySum + r.tallyCrc }) ∧
      (ends → ex.work = .activateAll → ex.withdrawn = false → ex.twice = false ∨ ex.repeated = true →
        (t.arbiter l).activateDue = none ∧ ∀ n, (t.marks n).confirmDue =
          ((s.marks n).confirmDue || (decide (s.lineOf n = some l) && (s.slot n).unconfirmed))) ∧
      (∀ k r g, counts → ex.work = .groupPage k → ex.page = some r → s.group k = some g → g.inFlight = some r.page →
        (s.port l).mode ≠ .off → (∀ m, s.portReady m = false) →
        t.group k = some { g with plan := g.plan.erase r.page, inFlight := none }) ∧
      (∀ n, ends → ex.repeated = true → s.lineOf n = some l → t.delivery n = s.delivery n)

/-- One echo judged: the echo runs, two missing make the loop BROKEN, two good make it INTACT -/
def Obligations.EchoMovesLoopState : Prop :=
  ∀ (s : State) (l : Fin 4) (copy : List Byte) (inTime : Bool), s.resetLow = false → s.working = true →
    (s.port l).echoDue = true → s.looped l = true →
    let p := s.port l
    let seen : Prop := inTime = true ∧ copy = p.tx
    let judged (f : Port → Port) : State := s.modPort l fun q => f { q with echoDue := false }
    let changed (b : Bool) (reach : Slot → Fin 24 → Side) : State :=
      { judged fun q => { q with broken := b, missRun := 0, goodRun := 0 } with
        roster := { s.roster with slots := Vector.ofFn fun n => { s.slot n with reach := reach (s.slot n) n } }
        report := { s.report with
          wanted := (s.report.wanted.set (lineRec l) true).set (lineRec (partner l)) true
          waiting := s.report.waiting ++ [⟨[lineRec l, lineRec (partner l)], .notice .line⟩] } }
    ∃ t, exec (.echoJudged l copy inTime) s = .next t ∧
      (p.broken = false → seen → Settled (judged fun q => { q with missRun := 0 }) t) ∧
      (p.broken = false → ¬ seen → p.missRun ≠ 1 →
        Settled (judged fun q => { q with missRun := q.missRun + 1 }) t) ∧
      (p.broken = false → ¬ seen → p.missRun = 1 → Settled (changed true fun v _ => v.reach) t) ∧
      (p.broken = true → ¬ seen → Settled (judged fun q => { q with goodRun := 0 }) t) ∧
      (p.broken = true → seen → p.goodRun ≠ 1 →
        Settled (judged fun q => { q with goodRun := q.goodRun + 1 }) t) ∧
      (p.broken = true → seen → p.goodRun = 1 →
        Settled (changed false fun v n => if s.lineOf n = some l then .primary else v.reach) t)

/-- A header mark starts RECEIVING; a frame taken with no exchange awaiting is garbled or stale, and a gap
follows. The receiver read outside an attempt on a broken loop (log 20), an odd line set OFF before its pair's
split, whose receiver is read no more (log 57), and the rate of that gap (log 49) are the model's choice. -/
def Obligations.FrameWithNoExchangeAwaiting : Prop :=
  (∀ (s : State) (l : Fin 4) (side : Side) (o : From), s.resetLow = false → s.hears l side = true →
    s.readSide l = side → (s.port l).xstate.origin = some o →
    (∀ ex m, (s.port l).exchange = some ex → ex.work.slot = some m → s.lineOf m = some l) →
    ∃ t, exec (.headerMark l side) s = .next t ∧ (t.port l).exchange = (s.port l).exchange ∧
      Settled (s.modPort l fun p => { p with xstate := .receiving o, rxSide := side, idleTime := 0 }) t) ∧
  (XState.idle.origin = some .idle ∧ XState.awaiting.origin = some .awaiting ∧ XState.gap.origin = some .gap) ∧
  (∀ (s : State) (l : Fin 4) (bytes : List Byte) (ending : FrameEnd) (o : From), s.resetLow = false →
    s.hears l (s.port l).rxSide = true → (s.port l).xstate = .receiving o → o ≠ .awaiting →
    let f (a k : Nat) : Nat := leNat ((bytes.drop a).take k)
    let n := f 4 2
    let intact : Prop := ending = .complete ∧ 8 ≤ bytes.length ∧ (crc16 (bytes.take 6)).toNat = f 6 2 ∧ n ≤ 300 ∧
      bytes.length = (if n = 0 then 8 else n + 11) ∧
      (n = 0 ∨ (crc16 ((bytes.drop 8).take (n + 1))).toNat = f (n + 9) 2)
    let at' := sidePort l (s.port l).rxSide
    let gap (u : State) : State := u.modPort l fun p => { p with
      xstate := .gap, gapLeft := (s.profileOf l).gap * (10 * Config.second / baud (s.port l).rate) }
    let count (g : LineCounters → LineCounters) : State :=
      s.modPort at' fun p => { p with counters := g p.counters }
    ∃ t, exec (.frameReceived l bytes ending) s = .next t ∧
      (¬ intact → Settled (gap (count fun k => { k with garbled := min (k.garbled + 1) 65535 })) t) ∧
      (intact →
        let u := count fun k => { k with
          stale := min (k.stale + 1) 65535
          received := if 128 ≤ f 1 1 then min (k.received + 1) 65535 else k.received }
        Settled (gap
          (match s.slotAt l (f 1 1 % 32) with
           | some m => u.modSlot m fun v =>
             { v with counters := { v.counters with stale := min (v.counters.stale + 1) 65535 } }
           | none => u)) t)) ∧
  (∀ (s : State) (l : Fin 4) (bytes : List Byte) (ending : FrameEnd), s.resetLow = false →
    ((∃ o, (s.port l).xstate = .receiving o) → s.hears l (s.port l).rxSide = false) →
    ∃ t, exec (.frameReceived l bytes ending) s = .next t ∧ Settled s t)

/-- The frame taken while an exchange awaits, one to a slot or a discovery visit: good reply, stale, or a garbled reply, with
clash detection and the clash list. That a good, unfit reply moves the garble run by the last-exchange mark as it stood before
that reply is the model's reading of R107 and R83 (log 21), and so is that the data mark's value is not checked (log 22). -/
def Obligations.AwaitedFrameJudged : Prop :=
  ∀ (s : State) (l : Fin 4) (bytes : List Byte) (ending : FrameEnd) (ex : Exchange),
    s.resetLow = false → s.hears l (s.port l).rxSide = true → (s.port l).xstate = .receiving .awaiting →
    (s.port l).exchange = some ex →
    let f (a k : Nat) : Nat := leNat ((bytes.drop a).take k)
    let len := f 4 2
    let intact : Prop := ending = .complete ∧ 8 ≤ bytes.length ∧ (crc16 (bytes.take 6)).toNat = f 6 2 ∧ len ≤ 300 ∧
      bytes.length = (if len = 0 then 8 else len + 11) ∧
      (len = 0 ∨ (crc16 ((bytes.drop 8).take (len + 1))).toNat = f (len + 9) 2)
    let good : Prop := intact ∧ 128 ≤ f 1 1 ∧ f 1 1 % 32 = ex.addr ∧ f 3 1 % 16 = ex.tag.toNat
    let code : Byte := BitVec.ofNat 8 (f 2 1)
    let content := (bytes.drop 9).take len
    let c (i k : Nat) : Nat := leNat ((content.drop i).take k)
    let request : Byte := ex.code
    let admitted : Prop :=
      ((request = 0x01 ∨ request = 0x20 ∨ request = 0x21) ∧ (code = 0x81 ∨ code = 0x9F)) ∨
      (request = 0x02 ∧ (code = 0x82 ∨ code = 0x9F)) ∨
      (request = 0x10 ∧ (code = 0x90 ∨ code = 0x91 ∨ code = 0x9F)) ∨
      ((request = 0x11 ∨ request = 0x12) ∧ (code = 0x92 ∨ code = 0x91 ∨ code = 0x9F)) ∨
      (request = 0x13 ∧ (code = 0x93 ∨ code = 0x9F)) ∨
      (request = 0x14 ∧ (code = 0x94 ∨ code = 0x91 ∨ code = 0x9F))
    let fit : Prop := admitted ∧ (code = 0x81 → len = 42) ∧ (code = 0x82 → len = 18 ∧ c 0 8 ≠ 0) ∧
      (code = 0x90 ∨ code = 0x93 → len = 8) ∧ (code = 0x91 → len = 1) ∧ (code = 0x9F → len = 0) ∧
      (code = 0x92 → len = 6 ∧ ∃ r, ex.page = some r ∧ c 0 2 = r.page) ∧
      (code = 0x94 → len = 3 + 4 * leNat ((ex.content.drop 2).take 1) ∧ content.take 3 = ex.content.take 3)
    let k := (s.port (sidePort l (s.port l).rxSide)).counters
    (∀ n, ex.work.slot = some n → s.lineOf n = some l → ex.detached = false → ex.withdrawn = false →
    let v := s.slot n
    let garbled : Slot := { v with
      counters := { v.counters with garbled := min (v.counters.garbled + 1) 65535 }
      garbleRun := v.runAfter ex.addr (s.port l).last }
    let retried (t : State) : Prop :=
      (t.port l).xstate = .gap ∧ (t.port l).gapLeft = (s.port l).gap ∧ (t.port l).reply = (s.port l).reply ∧
      (t.port l).exchange = some { ex with after := .attempt, retries := ex.retries - 1 } ∧
      t.slot n = garbled
    let ended (t : State) : Prop :=
      (t.port l).xstate = .gap ∧ (t.port l).gapLeft = (s.port l).gap ∧ (t.port l).exchange = none ∧
      (t.port l).last = some (ex.addr, false) ∧ (ex.work.isDelivery = true → t.delivery n = none) ∧
      ((s.slot n).binding = some (s.actingLine l, ex.addr) → v.state ≠ .vacant → t.slot n = s.afterMiss l ex garbled) ∧
      ∀ m, m ≠ n → (s.suspectAt l ex.addr m → t.slot m = { s.slot m with garbleRun := 0 }) ∧
        (¬ s.suspectAt l ex.addr m → t.slot m = s.slot m)
    ∃ t, exec (.frameReceived l bytes ending) s = .next t ∧ t.mem = s.mem ∧ t.change = s.change ∧
      (let k' := (t.port (sidePort l (s.port l).rxSide)).counters
       (good → fit → k' = { k with received := min (k.received + 1) 65535 } ∧
        (t.port l).xstate = .gap ∧ (t.port l).gapLeft = (s.port l).gap ∧ (t.port l).exchange = some ex ∧
        (t.port l).reply = some ⟨code, content⟩ ∧ (t.port l).last = some (ex.addr, true) ∧
        ((s.slot n).binding = some (s.actingLine l, ex.addr) → t.slot n = { v with
          misses := 0, garbleRun := 0, reach := if s.brokenLoop l then ex.side else v.reach }) ∧
        ∀ m, m ≠ n → (¬ s.suspectAt l ex.addr m → t.slot m = s.slot m) ∧
          (s.suspectAt l ex.addr m → (t.slot m).garbleRun = 0 ∧ (t.slot m).state = .quarantined ∧
            ((s.slot m).state ≠ .quarantined → (t.slot m).reason = .clash ∧ t.delivery m = none ∧
              (⟨[rosterRec m, summaryRec], .notice .quarantine⟩ : Waiting) ∈ t.report.waiting))) ∧
       (intact → ¬ good → (t.port l).xstate = .awaiting ∧ (t.port l).replyLeft = (s.port l).replyLeft ∧
        (t.port l).exchange = some ex ∧ k'.stale = min (k.stale + 1) 65535 ∧ k'.garbled = k.garbled) ∧
       (¬ intact → 0 < ex.retries → retried t ∧ k' = { k with garbled := min (k.garbled + 1) 65535 }) ∧
       (good → ¬ fit → 0 < ex.retries → retried t ∧ k' = { k with received := min (k.received + 1) 65535 }) ∧
       (¬ intact ∨ (good ∧ ¬ fit) → ex.retries = 0 → ended t))) ∧
    (ex.work = .discovery →
    let r := s.lineRoster l
    let g := (r.garbles[ex.addr]?).getD 0 + 1
    let second : Prop := ex.withdrawn = false ∧ ex.side = .primary ∧ s.brokenLoop l = true
    ∃ t, exec (.frameReceived l bytes ending) s = .next t ∧ t.mem = s.mem ∧ t.change = s.change ∧
      (t.port l).last = (s.port l).last ∧
      (∀ m, (intact → good) ∨ (s.slot m).binding ≠ some (s.actingLine l, f 1 1 % 32) → t.slot m = s.slot m) ∧
      (let k' := (t.port (sidePort l (s.port l).rxSide)).counters
       (good → fit → k' = { k with received := min (k.received + 1) 65535 } ∧
        (t.port l).xstate = .gap ∧ (t.port l).gapLeft = (s.port l).gap ∧ (t.port l).exchange = some ex ∧
        (t.port l).reply = some ⟨code, content⟩ ∧ t.lineRoster l = { r with garbles := r.garbles.set ex.addr 0 }) ∧
       (intact → ¬ good → (t.port l).xstate = .awaiting ∧ (t.port l).replyLeft = (s.port l).replyLeft ∧
        (t.port l).exchange = some ex ∧ k'.stale = min (k.stale + 1) 65535 ∧ k'.garbled = k.garbled ∧
        t.lineRoster l = r) ∧
       (¬ intact → k' = { k with garbled := min (k.garbled + 1) 65535 }) ∧
       (good → ¬ fit → k' = { k with received := min (k.received + 1) 65535 }) ∧
       (¬ intact ∨ (good ∧ ¬ fit) → (t.port l).xstate = .gap ∧ (t.port l).gapLeft = (s.port l).gap ∧
        (second → (t.port l).exchange = some { ex with after := .attempt }) ∧
        (¬ second → ex.retries = 0 → (t.port l).exchange = none) ∧
        (g < 4 → t.lineRoster l = { r with garbles := r.garbles.set ex.addr g }) ∧
        (4 ≤ g → (t.lineRoster l).garbles = r.garbles.set ex.addr 0 ∧
          (∀ a, a ∈ (t.lineRoster l).clash ↔ a ∈ r.clash ∨ a = ex.addr) ∧
          ∃ w ∈ t.report.waiting, w.act = .notice .line ∧ lineRec l ∈ w.needs))))

/-- The reply timer runs out: a retry while one is left, else a miss with its counts, backoff and delivery's end; a discovery
visit is over and the garble count of its address 0 -/
def Obligations.TimeoutRetriesOrMisses : Prop :=
  (∀ (s : State) (l : Fin 4) (ex : Exchange) (n : Fin 24), s.resetLow = false → s.working = true →
    (s.port l).xstate = .awaiting → (s.port l).exchange = some ex → ex.work.slot = some n → s.lineOf n = some l →
    ex.detached = false → ex.withdrawn = false →
    let at' := sidePort l ex.side
    let v := s.slot n
    ∃ t, exec (.replyTimeout l) s = .next t ∧ t.mem = s.mem ∧ t.change = s.change ∧
      (t.port l).xstate = .gap ∧ (t.port l).gapLeft = (s.port l).gap ∧
      (t.port at').counters = (if ex.silentPoll then (s.port at').counters else { (s.port at').counters with
        timeouts := min ((s.port at').counters.timeouts + 1) 65535 }) ∧
      (0 < ex.retries →
        (t.port l).exchange = some { ex with after := .attempt, retries := ex.retries - 1 } ∧
        t.slot n = { v with garbleRun := 0 }) ∧
      (ex.retries = 0 → (t.port l).exchange = none ∧ (t.port l).last = some (ex.addr, false) ∧
        (ex.work.isDelivery = true → t.delivery n = none) ∧
        (v.state ≠ .vacant → t.slot n = s.afterMiss l ex { v with garbleRun := 0 }) ∧
        (v.state = .identifying ∨
            ((v.state = .behind ∨ v.state = .current) ∧ (s.profileOf l).missLimit ≤ v.misses + 1) →
          t.delivery n = none) ∧
        ∀ m, m ≠ n → (s.suspectAt l ex.addr m → t.slot m = { s.slot m with garbleRun := 0 }) ∧
          (¬ s.suspectAt l ex.addr m → t.slot m = s.slot m))) ∧
  (∀ (s : State) (l : Fin 4) (ex : Exchange), s.resetLow = false → s.working = true → (s.port l).xstate = .awaiting →
    (s.port l).exchange = some ex → ex.work = .discovery →
    let r := s.lineRoster l
    let second : Prop := ex.withdrawn = false ∧ ex.side = .primary ∧ s.brokenLoop l = true
    ∃ t, exec (.replyTimeout l) s = .next t ∧ t.mem = s.mem ∧ t.change = s.change ∧
      (t.port l).xstate = .gap ∧ (t.port l).gapLeft = (s.port l).gap ∧ (t.port l).last = (s.port l).last ∧
      t.lineRoster l = { r with garbles := r.garbles.set ex.addr 0 } ∧ (∀ m, t.slot m = s.slot m) ∧
      (∀ k, (t.port k).counters = (s.port k).counters) ∧
      (second → (t.port l).exchange = some { ex with after := .attempt }) ∧
      (¬ second → ex.retries = 0 → (t.port l).exchange = none))

/-- The end of the turnaround gap: IDLE, the next attempt with a new tag and REPEAT, or the second copy. What a
loop that became INTACT in the gap changes (logs 38 and 53), and an odd line set OFF by then (log 57), is the
model's reading. -/
def Obligations.GapEndGoesOn : Prop :=
  ∀ (s : State) (l : Fin 4), s.resetLow = false → s.working = true → (s.port l).xstate = .gap →
    (s.port l).reply = none →
    let k (t : State) (side : Side) : LineCounters := (t.port (sidePort l side)).counters
    let flags (ex : Exchange) (tag : BitVec 4) (again : Bool) : Byte :=
      tag.setWidth 8 + (if ex.noReply then 0x10 else 0) + (if again then 0x20 else 0)
    let head (ex : Exchange) (tag : BitVec 4) (again : Bool) : List Byte :=
      [0xB4, BitVec.ofNat 8 ex.addr, ex.code, flags ex tag again] ++ leBytes 2 ex.content.length
    let goes (t : State) (ex : Exchange) (tag : BitVec 4) (side : Side) (again : Bool) : Prop :=
      (t.port l).xstate = .sending ∧ (t.port l).tx.take 6 = head ex tag again ∧
      ((t.port l).tx.drop 9).take ex.content.length = ex.content ∧
      k t side = { k s side with sent := min ((k s side).sent + 1) 65535 } ∧
      ∃ e, (t.port l).exchange = some e ∧ e.work = ex.work ∧ e.side = side ∧ e.tag = tag ∧ e.repeated = again ∧
        e.retries = ex.retries
    ∃ t, exec (.gapEnd l) s = .next t ∧ t.mem = s.mem ∧ t.change = s.change ∧ t.roster = s.roster ∧
      ((s.port l).exchange = none ∨ (∃ ex, (s.port l).exchange = some ex ∧ ex.started = true ∧
          (ex.after = .nothing ∨ (ex.after = .attempt ∧
            (ex.withdrawn = true ∨ (ex.work = .discovery ∧ s.brokenLoop l = false))) ∨
          (ex.after = .copy ∧ s.looped l = false))) →
        (t.port l).xstate = .idle ∧ (t.port l).tag = (s.port l).tag ∧
        (t.port l).idleTime = min ((s.port l).idleTime + (s.port l).gapLeft) (2 * (10 * Config.second / 19200)) ∧
        ∀ e, (t.port l).exchange = some e → e.started = false) ∧
      (∀ ex, (s.port l).exchange = some ex → ex.started = true → ex.after = .attempt → ex.withdrawn = false →
        (ex.work = .discovery → s.brokenLoop l = true) →
        goes t ex (s.port l).tag (if s.brokenLoop l then otherSide ex.side else .primary)
          (decide (ex.work ≠ .discovery)) ∧
        (t.port l).tag = (s.port l).tag + 1) ∧
      (∀ ex, (s.port l).exchange = some ex → ex.started = true → ex.after = .copy →
        (s.looped l = true → goes t ex ex.tag .secondary true ∧ (t.port l).tag = (s.port l).tag) ∧
        (s.looped l = false → ex.work = .activateAll → ex.withdrawn = false → (t.arbiter l).activateDue = none ∧
          ∀ n, s.lineOf n = some l → (s.slot n).unconfirmed = true → (t.marks n).confirmDue = true))

/-! ## The dialogue, the scheduler and the verify unit (chapters 6 to 8) -/

/-- A STATUS by slot state: kept aside, another serial, a store fault, or held data recorded and the digest
compared. The backoff of a STATUS kept aside (log 30) and the serial a QUARANTINED slot without a recorded
serial shows as last seen (log 61) are the model's. -/
def Obligations.StatusTaken : Prop :=
  ∀ (s : State) (l : Fin 4) (ex : Exchange) (content : List Byte) (n : Fin 24), s.resetLow = false →
    s.replyHeld l 0x81 = some (ex, content) → ex.work.slot = some n → ex.detached = false →
    ex.withdrawn = false →
    let c (i k : Nat) : Nat := leNat ((content.drop i).take k)
    let st : Status :=
      { serial := BitVec.ofNat 64 (c 0 8), identity := BitVec.ofNat 32 (c 8 4), gen := BitVec.ofNat 32 (c 12 4)
        digest := BitVec.ofNat 32 (c 16 4), active := ⟨BitVec.ofNat 16 (c 20 2), BitVec.ofNat 32 (c 22 4)⟩
        pending := if c 26 2 = 0 then none
          else some ⟨⟨BitVec.ofNat 16 (c 26 2), BitVec.ofNat 32 (c 28 4)⟩, decide (c 32 1 % 2 = 1),
            BitVec.ofNat 64 (c 33 8)⟩
        openDelivery := decide (c 41 1 % 2 = 1), storeFault := decide (c 41 1 / 2 % 2 = 1)
        busy := decide (c 41 1 / 4 % 2 = 1) }
    let v := s.slot n
    let interval := (s.slotProfile n).keepalive * (250 * Config.ms)
    let inService : Prop := v.state = .behind ∨ v.state = .current
    let busied := if st.busy then v.closedFor (100 * Config.ms) else v.backoff
    let compared : Prop := s.change.pages ≠ 0 ∧ st.identity = s.change.identity ∧ st.gen = s.change.gen ∧
      v.reload = false ∧ s.change.changing = false ∧ st.openDelivery = false ∧
      ∀ d, s.delivery n = some d → d.mode.isBlocklist = false
    ∃ t, exec (.status l) s = .next t ∧ t.mem = s.mem ∧ t.change = s.change ∧ (t.port l).reply = none ∧
      (t.marks n).confirmDue = false ∧
      (v.state = .silent → t.slot n = { v with
        state := .identifying, kept := some st, identify := some 0, keepalive := none, backoff := busied }) ∧
      (inService → st.serial ≠ v.serial →
        t.slot n = { v with state := .identifying, kept := some st, identify := some 0, keepalive := none }) ∧
      (inService → st.serial ≠ v.serial → t.delivery n = none) ∧
      (v.state = .identifying → t.slot n = { v with kept := some st, keepalive := none, backoff := busied }) ∧
      (v.state = .quarantined → st.serial ≠ v.serial →
        t.slot n = { v with serialSeen := st.serial, keepalive := some interval }) ∧
      (inService ∨ v.state = .quarantined → st.serial = v.serial →
        (t.slot n).heldId = st.identity ∧ (t.slot n).heldActive = st.active ∧
        (t.slot n).heldPending = st.pending ∧ (t.slot n).keepalive = some interval ∧
        (t.slot n).heldH = (if v.reload then 0
          else if st.identity = s.change.identity ∧ s.change.gen < st.gen then 0 else st.gen) ∧
        (t.slot n).unconfirmed = (v.unconfirmed &&
          decide (st.active ≠ ⟨s.editions.active.number, s.editions.active.digest⟩))) ∧
      (inService → st.serial = v.serial → st.storeFault = true →
        (t.slot n).state = .quarantined ∧ (t.slot n).reason = .store ∧ t.delivery n = none ∧
        (⟨[rosterRec n, summaryRec], .notice .quarantine⟩ : Waiting) ∈ t.report.waiting) ∧
      (inService → st.serial = v.serial → st.storeFault = false →
        ((t.slot n).state = .behind ∨ (t.slot n).state = .current) ∧
        ((t.slot n).state = .current → (t.slot n).heldId = s.change.identity ∧ (t.slot n).heldH = s.change.gen ∧
          st.active = ⟨s.editions.active.number, s.editions.active.digest⟩ ∧ (t.slot n).repair = false ∧
          (t.slot n).unconfirmed = false ∧
          (s.editions.pending.state ≠ .pending → st.pending = none) ∧
          (s.editions.pending.state = .pending → ∃ p, st.pending = some p ∧ p.complete = true ∧
            p.edition = ⟨s.editions.pending.number, s.editions.pending.digest⟩)) ∧
        (t.slot n).backoff = busied ∧ t.report.wanted[rosterRec n] = true ∧
        (∀ d, s.delivery n = some d → d.phase ≠ .opening → st.openDelivery = false → t.delivery n = none) ∧
        (compared → st.digest ≠ s.change.digest → v.repair = false → (t.slot n).repair = true ∧
          (t.slot n).state = .behind ∧
          (t.slot n).counters.mismatches = min (v.counters.mismatches + 1) 65535) ∧
        (compared → st.digest = s.change.digest → (t.slot n).repair = false) ∧
        (compared → st.digest ≠ s.change.digest → v.repair = true →
          (t.slot n).repair = true ∧ (t.slot n).counters = v.counters))

/-- An IDENT in IDENTIFYING accepted, refused for IDENTITY or CLASH, or learned as a replacement; an IDENT to
discovery by its serial. A kept store fault (log 30), a rebound slot's reach side (log 33) and what the
duplicate notice waits for (log 45) are the model's reading. -/
def Obligations.IdentTaken : Prop :=
  (∀ (s : State) (l : Fin 4) (ex : Exchange) (content : List Byte) (n : Fin 24), s.resetLow = false →
    s.replyHeld l 0x82 = some (ex, content) → ex.work.slot = some n → ex.detached = false →
    ex.withdrawn = false → (s.slot n).state = .identifying →
    let serial : BitVec 64 := BitVec.ofNat 64 (leNat (content.take 8))
    let c := identCapability content
    let v := s.slot n
    let interval := (s.slotProfile n).keepalive * (250 * Config.ms)
    let other : Prop := ∃ m, m ≠ n ∧ (s.slot m).binding ≠ none ∧ (s.slot m).serial = serial
    let accepted : Prop := v.serial = serial ∨ (v.serial = 0 ∧ ¬ other)
    let frozen : Prop := v.frozen = true ∧ v.serial ≠ 0
    let again : Prop := v.window ≠ none ∧ v.serial ≠ 0
    let notice : Waiting := ⟨[rosterRec n, summaryRec], .notice .quarantine⟩
    ∃ t, exec (.ident l) s = .next t ∧ t.mem = s.mem ∧ t.change = s.change ∧
      (t.slot n).keepalive = some interval ∧ (t.slot n).kept = none ∧ (t.slot n).identify = none ∧
      (t.slot n).binding = v.binding ∧ (t.slot n).reach = v.reach ∧ (∀ m, m ≠ n → t.slot m = s.slot m) ∧
      (accepted → (t.slot n).serial = serial ∧ (t.slot n).misses = 0 ∧ (t.slot n).garbleRun = 0 ∧
        (t.slot n).cap = (if v.frozen = true ∧ v.cap ≠ none then v.cap else some c) ∧
        (∀ st, v.kept = some st → st.serial = serial → (t.slot n).heldId = st.identity ∧
          (t.slot n).heldActive = st.active ∧ (t.slot n).heldPending = st.pending) ∧
        ((∀ st, v.kept = some st → st.serial ≠ serial) → (t.slot n).heldId = 0 ∧ (t.slot n).heldH = 0 ∧
          (t.slot n).heldActive = ⟨0, 0⟩ ∧ (t.slot n).heldPending = none) ∧
        (v.frozen = false ∨ v.cap = none → s.flagsOf (t.slot n) ∧
          ∀ k, s.lineOf n = some k → (t.slot n).servedAt (s.profileOf k).rate) ∧
        ((∀ st, v.kept = some st → st.storeFault = false) →
          (t.slot n).state = .behind ∨ (t.slot n).state = .current) ∧
        (∀ st, v.kept = some st → st.storeFault = true → (t.slot n).state = .quarantined ∧
          (t.slot n).reason = .store ∧ notice ∈ t.report.waiting)) ∧
      (¬ accepted → frozen → (t.slot n).state = .quarantined ∧ (t.slot n).reason = .identity ∧
        (t.slot n).serial = v.serial ∧ (t.slot n).serialSeen = serial ∧ (t.slot n).cap = v.cap ∧
        (t.slot n).heldId = v.heldId ∧ (t.slot n).heldH = v.heldH ∧ notice ∈ t.report.waiting) ∧
      (¬ accepted → ¬ frozen → again ∨ other → (t.slot n).state = .quarantined ∧ (t.slot n).reason = .clash ∧
        (t.slot n).serial = serial ∧ (again → (t.slot n).window = none) ∧ notice ∈ t.report.waiting) ∧
      (¬ accepted → ¬ frozen → ¬ again → ¬ other → (t.slot n).serial = serial ∧ (t.slot n).cap = some c ∧
        s.flagsOf (t.slot n) ∧ (∀ k, s.lineOf n = some k → (t.slot n).servedAt (s.profileOf k).rate) ∧
        (t.slot n).heldId = 0 ∧ (t.slot n).heldH = 0 ∧ (t.slot n).reload = true ∧ (t.slot n).repair = false ∧
        (t.slot n).unconfirmed = false ∧ (t.slot n).replaced = true ∧
        (∀ st, v.kept = some st → (t.slot n).heldActive = st.active ∧ (t.slot n).heldPending = st.pending) ∧
        (t.slot n).window = some (600 * Config.second) ∧ (s.change.gen ≠ 0 → (t.slot n).state = .behind) ∧
        ((t.slot n).state = .behind ∨ (t.slot n).state = .current) ∧
        (⟨[rosterRec n, summaryRec], .notice .roster⟩ : Waiting) ∈ t.report.waiting)) ∧
  (∀ (s : State) (l : Fin 4) (ex : Exchange) (content : List Byte), s.resetLow = false →
    s.replyHeld l 0x82 = some (ex, content) → ex.work = .discovery →
    let serial : BitVec 64 := BitVec.ofNat 64 (leNat (content.take 8))
    let b := (s.actingLine l, ex.addr)
    let holds (m : Fin 24) : Prop := (s.slot m).binding ≠ none ∧ (s.slot m).serial = serial
    (∀ m, (s.slot m).binding ≠ some b) →
    ∃ t, exec (.ident l) s = .next t ∧ t.mem = s.mem ∧
      ((∀ m, ¬ holds m) → (∀ m, (s.slot m).state ≠ .vacant) →
        t.roster.full = true ∧ ∀ m, t.slot m = s.slot m) ∧
      (∀ n, (∀ m, ¬ holds m) → (s.slot n).state = .vacant → (∀ m, m < n → (s.slot m).state ≠ .vacant) →
        (t.slot n).binding = some b ∧ (t.slot n).mode = .learned ∧ (t.slot n).frozen = false ∧
        (t.slot n).serial = serial ∧ (t.slot n).cap = some (identCapability content) ∧ (t.slot n).heldId = 0 ∧
        (t.slot n).heldH = 0 ∧ (t.slot n).heldActive = ⟨0, 0⟩ ∧ (t.slot n).heldPending = none ∧
        (t.slot n).keepalive = some 0 ∧ (t.slot n).reach = ex.side ∧ s.flagsOf (t.slot n) ∧
        (t.slot n).servedAt (s.profileOf b.1).rate ∧
        ((t.slot n).state = .behind ∨ (t.slot n).state = .current) ∧
        (⟨[rosterRec n, summaryRec], .notice .roster⟩ : Waiting) ∈ t.report.waiting ∧
        ∀ m, m ≠ n → t.slot m = s.slot m) ∧
      (∀ n, holds n → (∀ m, holds m → m = n) → (s.slot n).mode = .learned → (s.slot n).state = .silent →
        let v := s.slot n
        (t.slot n).binding = some b ∧ (t.slot n).reach = ex.side ∧ (t.slot n).keepalive = some 0 ∧
        (t.slot n).serial = serial ∧ (t.slot n).mode = .learned ∧
        (t.slot n).cap = (if v.frozen then v.cap else some (identCapability content)) ∧
        (t.slot n).servedAt (s.profileOf b.1).rate ∧ (v.frozen = false → s.flagsOf (t.slot n)) ∧
        (t.slot n).heldId = v.heldId ∧ (t.slot n).heldH = v.heldH ∧ (t.slot n).heldActive = v.heldActive ∧
        (t.slot n).heldPending = v.heldPending ∧ ((t.slot n).state = .behind ∨ (t.slot n).state = .current) ∧
        (⟨[rosterRec n, summaryRec], .notice .roster⟩ : Waiting) ∈ t.report.waiting ∧
        ∀ m, m ≠ n → t.slot m = s.slot m) ∧
      ((∃ m, holds m) → (∀ n, holds n → (∀ m, holds m → m = n) →
          ¬ ((s.slot n).mode = .learned ∧ (s.slot n).state = .silent)) →
        ∀ n, (holds n → t.slot n = { s.slot n with duplicate := true } ∧ ((s.slot n).duplicate = false →
            (⟨[rosterRec n], .notice .roster⟩ : Waiting) ∈ t.report.waiting)) ∧
          (¬ holds n → t.slot n = s.slot n))) ∧
  (∀ content : List Byte,
    let f (o k : Nat) : Nat := leNat ((content.drop o).take k)
    let c := identCapability content
    c.model = BitVec.ofNat 16 (f 8 2) ∧ c.blocklist = min (f 10 2) 4096 ∧ c.edition = min (f 12 1) 128 ∧
    (c.level = 1 ∨ c.level = 2) ∧ (c.level = 1 ↔ f 17 1 ≤ 1) ∧
    (∀ r : Fin 7, baud r ≤ max 19200 (f 13 4) ↔ baud r ≤ baud c.rate))

/-- ACCEPT opens the delivery and records what the validator now holds; REFUSE by reason: STORE, IDENTITY,
failure; both at a group's member too. Which pages a common plan leaves out is the model's reading (log 15). -/
def Obligations.OpenAnswered : Prop :=
  (∀ (s : State) (l : Fin 4) (ex : Exchange) (content : List Byte) (n : Fin 24) (d : Delivery),
    s.resetLow = false → s.replyHeld l 0x90 = some (ex, content) → ex.work.slot = some n → ex.detached = false →
    ex.withdrawn = false → (s.port l).xstate = .gap → s.lineOf n = some l → s.delivery n = some d →
    let mask : BitVec 64 := BitVec.ofNat 64 (leNat (content.take 8))
    let edition : Prop := d.mode = .stage ∨ d.mode = .install
    ∃ t d', exec (.accept l) s = .next t ∧ t.mem = s.mem ∧ t.change = s.change ∧ t.delivery n = some d' ∧
      d' = { d with phase := .opened, tallyCount := 0, tallySum := 0, mask := mask, rest := d'.rest } ∧
      (¬ edition ∨ s.groupOf n ≠ none → d'.rest = d.rest) ∧
      (edition → s.groupOf n = none → ∀ p, p ∈ d'.rest ↔ p < d.total ∧ mask.getLsbD p = false) ∧
      (d.mode = .reload → (t.slot n).heldId = d.identity ∧ (t.slot n).heldH = 0) ∧
      (d.mode ≠ .reload → (t.slot n).heldId = (s.slot n).heldId ∧ (t.slot n).heldH = (s.slot n).heldH) ∧
      (edition → (t.slot n).heldPending = some ⟨d.edition, false, mask⟩) ∧
      (¬ edition → (t.slot n).heldPending = (s.slot n).heldPending) ∧
      (t.slot n).heldActive = (s.slot n).heldActive ∧ (t.slot n).failures = (s.slot n).failures ∧
      (∀ g, s.groupOf n = some g → (∀ m, s.portReady m = false) →
        let left := g.toOpen.filter fun m => decide (m ≠ n)
        let member (m : Fin 24) (dm : Delivery) : Prop := m ∈ g.members ∧ t.delivery m = some dm
        ∃ g' ∈ t.sched.groups, g'.id = g.id ∧ g'.members = g.members ∧ g'.toOpen = left ∧
          (left ≠ [] ∨ g.planned = true → g' = { g with toOpen := left }) ∧
          (left = [] → g.planned = false → g'.planned = true ∧
            (edition → (∀ m dm, member m dm → dm.mode.isBlocklist = false ∧ dm.total = d.total) →
              ∀ p, p ∈ g'.plan ↔ p < d.total ∧ ∃ m dm, member m dm ∧ dm.mask.getLsbD p = false) ∧
            (¬ edition → (∀ m dm, member m dm → dm.mode.isBlocklist = true) →
              ∀ p, p ∈ g'.plan ↔ ∃ r, s.change.table[p]? = some r ∧
                ((∃ m dm, member m dm ∧ dm.mode = .delta ∧ dm.baseH < r.stamp) ∨
                  (∃ m dm, member m dm ∧ dm.mode = .reload ∧ (r.live ≠ 0 ∨ 1 < r.stamp))) ∧
                ∃ m dm, member m dm ∧ p ∉ dm.urgent)))) ∧
  (∀ (s : State) (l : Fin 4) (ex : Exchange) (content : List Byte) (n : Fin 24) (d : Delivery),
    s.resetLow = false → s.replyHeld l 0x91 = some (ex, content) → ex.work.slot = some n → ex.detached = false →
    ex.withdrawn = false → s.delivery n = some d → (s.slot n).state ≠ .quarantined →
    let reason := leNat (content.take 1)
    let v := s.slot n
    let limit := (s.slotProfile n).quarantine
    let reloads : Prop := match ex.work with
      | .openTo _ _ => d.mode = .delta ∨ d.mode = .repair
      | _ => d.mode.isBlocklist = true
    ∃ t, exec (.refuse l) s = .next t ∧ t.mem = s.mem ∧ t.change = s.change ∧ t.delivery n = none ∧
      (t.slot n).counters = { v.counters with refusals := min (v.counters.refusals + 1) 65535 } ∧
      (t.slot n).heldId = v.heldId ∧ (t.slot n).heldActive = v.heldActive ∧
      ((s.port l).xstate = .gap → (∀ m, s.portReady m = false) → ∀ g ∈ t.sched.groups, n ∉ g.members ∧ g.members ≠ []) ∧
      (d.mode = .repair → t.sweep n = { s.sweep n with
        cursor := match (s.sweep n).list with
          | [] => (s.sweep n).cursor
          | p :: _ => p / 8 * 8
        list := [], held := none }) ∧
      (reason = 4 → (t.slot n).state = .quarantined ∧ (t.slot n).reason = .store ∧
        (t.slot n).failures = v.failures) ∧
      (reason = 1 → reloads → (t.slot n).reload = true ∧ (t.slot n).heldH = 0 ∧ (t.slot n).failures = v.failures ∧
        (t.slot n).backoff = v.backoff) ∧
      (reason ≠ 4 → ¬ (reason = 1 ∧ reloads) → (t.slot n).failures = min (v.failures + 1) limit ∧
        (t.slot n).reload = v.reload ∧ (t.slot n).heldH = v.heldH ∧
        (t.slot n).backoff = some (max (v.backoff.getD 0) (min (500 * 2 ^ v.failures) 32000 * Config.ms)) ∧
        (limit ≤ v.failures + 1 → (t.slot n).state = .quarantined ∧ (t.slot n).reason = .failures) ∧
        (v.failures + 1 < limit → (t.slot n).state = v.state)))

/-- A PAGE ACK counts its page or fails the delivery; a CHECK REPORT puts the differing pages on the repair list
-/
def Obligations.PageAckAndCheckReport : Prop :=
  (∀ (s : State) (l : Fin 4) (ex : Exchange) (content : List Byte) (n : Fin 24) (d : Delivery) (r : PageRead),
    s.resetLow = false → s.replyHeld l 0x92 = some (ex, content) → ex.work.slot = some n → ex.detached = false →
    ex.withdrawn = false → (s.port l).xstate = .gap → s.lineOf n = some l → s.delivery n = some d →
    ex.page = some r →
    let same : Prop := leNat ((content.drop 2).take 4) = r.ackCrc.toNat
    let v := s.slot n
    ∃ t, exec (.pageAck l) s = .next t ∧ t.mem = s.mem ∧ t.change = s.change ∧
      (same →
        t.delivery n = some { d with
          tallyCount := d.tallyCount + 1, tallySum := d.tallySum + r.tallyCrc, inFlight := none
          urgent := if d.inFlight = some r.page then d.urgent.erase r.page else d.urgent
          rest := if d.inFlight = some r.page then d.rest.erase r.page else d.rest } ∧
        t.sweep n = { s.sweep n with
          list := if d.mode = .repair then (s.sweep n).list.erase r.page else (s.sweep n).list } ∧
        (t.slot n).counters = { v.counters with pagesSent := min (v.counters.pagesSent + 1) 65535 } ∧
        (t.slot n).failures = v.failures) ∧
      (¬ same → t.delivery n = none ∧
        (t.slot n).counters = { v.counters with tallyFailures := min (v.counters.tallyFailures + 1) 65535 } ∧
        (t.slot n).failures = min (v.failures + 1) (s.slotProfile n).quarantine)) ∧
  (∀ (s : State) (l : Fin 4) (ex : Exchange) (content : List Byte) (n : Fin 24) (d : Delivery),
    s.resetLow = false → s.replyHeld l 0x94 = some (ex, content) → ex.work.slot = some n → ex.detached = false →
    ex.withdrawn = false → (s.port l).xstate = .gap → s.lineOf n = some l → s.delivery n = some d →
    d.mode = .repair →
    let f (o k : Nat) : Nat := leNat ((content.drop o).take k)
    let crc (i : Nat) : Word := BitVec.ofNat 32 (f (3 + 4 * i) 4)
    let w := s.sweep n
    ∃ t, exec (.checkReport l) s = .next t ∧ t.mem = s.mem ∧ t.change = s.change ∧ t.delivery n = some d ∧
      (s.change.changing = true →
        t.sweep n = { w with held := some ⟨f 0 2, (List.range (f 2 1)).map crc⟩ }) ∧
      (s.change.changing = false → ∃ ps, t.sweep n = { w with
          cursor := f 0 2 + f 2 1, list := w.list ++ ps, held := none } ∧ ps.Pairwise (· < ·) ∧
        ∀ p, p ∈ ps ↔ ∃ i, i < f 2 1 ∧ p = f 0 2 + i ∧ (s.change.table[p]?).map (·.crc) ≠ some (crc i)))

/-- A CLOSE ACK: COMMITTED records the delivery and takes the verdict, TALLY fails it, NOT_OPEN ends it. What
the notice of a second failed sweep waits for (log 45) and that the CLOSE's MAKE ACTIVE decides (log 52) are the
model's reading. That a COMMITTED close whose MISMATCH ends a repair keeps the consecutive failures, so that the second in a
row adds to them, is the model's choice between R178 and the words of R82 and R135 (log 65). -/
def Obligations.CloseAckTaken : Prop :=
  ∀ (s : State) (l : Fin 4) (ex : Exchange) (content : List Byte) (n : Fin 24) (d : Delivery),
    s.resetLow = false → s.replyHeld l 0x93 = some (ex, content) → ex.work.slot = some n → ex.detached = false →
    ex.withdrawn = false → s.delivery n = some d →
    let f (o k : Nat) : Nat := leNat ((content.drop o).take k)
    let v := s.slot n
    let committed : Prop := f 0 1 = 1
    let tally : Prop := f 2 2 = d.tallyCount.toNat ∧ f 4 4 = d.tallySum.toNat
    let reload := if d.mode = .reload then false else v.reload
    let plain : Prop := (d.mode = .delta ∨ d.mode = .reload) ∧ d.repairReload = false
    let mending : Prop := d.mode = .repair ∨ (d.mode = .reload ∧ d.repairReload = true)
    let w := s.sweep n
    let limit := (s.slotProfile n).quarantine
    let mismatched := min (v.counters.mismatches + 1) 65535
    ∃ t, exec (.closeAck l) s = .next t ∧ t.mem = s.mem ∧ t.change = s.change ∧ t.delivery n = none ∧
      (committed → (t.marks n).solo = false) ∧
      (committed → d.mode.isBlocklist = true → (t.slot n).heldId = d.identity ∧ (t.slot n).reload = reload ∧
        (t.slot n).heldH = (if reload then 0
          else if d.identity = s.change.identity ∧ s.change.gen < d.target then 0 else d.target)) ∧
      (committed → plain → (t.slot n).failures = 0 ∧
        (tally → f 1 1 = 1 → (t.slot n).repair = false ∧ t.sweep n = .cold ∧ (t.slot n).counters = v.counters) ∧
        (tally → f 1 1 = 0 → (t.slot n).repair = v.repair ∧ (t.slot n).counters = v.counters) ∧
        (¬ tally ∨ f 1 1 = 2 → (t.slot n).repair = true ∧ (t.slot n).state ≠ .current ∧
          (t.slot n).counters = { v.counters with mismatches := mismatched })) ∧
      (committed → mending → tally → f 1 1 = 0 ∨ f 1 1 = 1 →
        (t.slot n).repair = false ∧ t.sweep n = .cold ∧ (t.slot n).failures = 0) ∧
      (committed → mending → ¬ tally ∨ f 1 1 = 2 → (t.slot n).repair = v.repair ∧
        (t.slot n).counters = { v.counters with mismatches := mismatched } ∧
        t.sweep n = { (if d.mode = .repair then { w with cursor := 0, list := [], held := none } else w) with
          run := if w.run = 0 then 1 else 0 } ∧
        (w.run = 0 → (t.slot n).failures = v.failures ∧ (t.slot n).backoff = v.backoff) ∧
        (w.run ≠ 0 → (t.slot n).failures = min (v.failures + 1) limit ∧
          (t.slot n).backoff = v.closedFor (min (500 * 2 ^ v.failures) 32000 * Config.ms) ∧
          (limit ≤ v.failures + 1 → v.state ≠ .quarantined → (t.slot n).state = .quarantined ∧ (t.slot n).reason = .failures) ∧
          ∃ x ∈ t.report.waiting, x.act = .notice .roster ∧ rosterRec n ∈ x.needs)) ∧
      (committed → d.mode.isBlocklist = false → d.makeActive = false → ∃ mask, (t.slot n).heldPending = some ⟨d.edition, true, mask⟩ ∧
        (∀ k, k < d.total → k < 64 → mask.getLsbD k = true) ∧ (t.slot n).heldActive = v.heldActive ∧
        (t.slot n).failures = 0) ∧
      (committed → d.mode.isBlocklist = false → d.makeActive = true → (t.slot n).heldActive = d.edition ∧ (t.slot n).failures = 0 ∧
        (∀ p, v.heldPending = some p → p.edition.number = d.edition.number → (t.slot n).heldPending = none) ∧
        (∀ p, v.heldPending = some p → p.edition.number ≠ d.edition.number → (t.slot n).heldPending = some p)) ∧
      (f 0 1 = 2 → (∃ g ∈ s.sched.groups, n ∈ g.members) → (t.marks n).solo = true) ∧
      (f 0 1 = 2 → (t.slot n).failures = min (v.failures + 1) (s.slotProfile n).quarantine ∧
        (t.slot n).counters = { v.counters with tallyFailures := min (v.counters.tallyFailures + 1) 65535 }) ∧
      (f 0 1 = 3 → (t.slot n).failures = v.failures ∧ (t.slot n).counters = v.counters) ∧
      (f 0 1 = 2 ∨ f 0 1 = 3 → (t.slot n).heldId = v.heldId ∧ (t.slot n).heldH = v.heldH ∧
        (t.slot n).heldActive = v.heldActive ∧ (t.slot n).heldPending = v.heldPending ∧
        (t.slot n).repair = v.repair)

/-- BUSY: counted, 100 ms of backoff, the delivery as before the frame but for an OPEN's, no failure and no miss
-/
def Obligations.BusyLeavesWorkDue : Prop :=
  ∀ (s : State) (l : Fin 4) (ex : Exchange) (content : List Byte) (n : Fin 24), s.resetLow = false →
    s.replyHeld l 0x9F = some (ex, content) → ex.work.slot = some n → ex.detached = false →
    (s.port l).xstate = .gap → s.lineOf n = some l →
    let v := s.slot n
    ∃ t, exec (.busy l) s = .next t ∧ t.mem = s.mem ∧ t.change = s.change ∧ (t.port l).reply = none ∧
      (t.port l).exchange = none ∧
      t.slot n = { v with
        counters := { v.counters with busy := min (v.counters.busy + 1) 65535 }
        backoff := some (max (v.backoff.getD 0) (100 * Config.ms))
        keepalive := (t.slot n).keepalive, identify := (t.slot n).identify } ∧
      (ex.withdrawn = true → t.delivery n = s.delivery n ∧ (t.slot n).identify = v.identify) ∧
      (ex.withdrawn = false → ∀ m,
        (ex.work = .poll m → (t.slot n).keepalive = some (100 * Config.ms) ∧ t.delivery n = s.delivery n) ∧
        (ex.work = .identify m → v.state = .identifying → (t.slot n).identify = some (100 * Config.ms)) ∧
        (∀ k, ex.work = .openTo m k → t.delivery n = none) ∧
        (∀ d, s.delivery n = some d →
          (ex.work = .page m → t.delivery n = some { d with inFlight := none }) ∧
          (ex.work = .check m → t.delivery n = some d) ∧
          (ex.work = .close m → d.late = [] → t.delivery n = some { d with phase := .opened }) ∧
          (ex.work = .close m → ∃ d', t.delivery n = some d' ∧ d'.phase = .opened ∧
            d'.tallyCount = d.tallyCount ∧ d'.tallySum = d.tallySum ∧ d'.target = d.target ∧
            ∀ p, p ∈ d'.urgent ↔ p ∈ d.urgent ∨ p ∈ d.late)))

/-- An exchange boundary: the first class with work, the turn that goes on or the next by round robin, a group
that forms. A CLOSE after the 16th page (log 14), a visit with no address free (log 50), an OPEN that takes its
slot out of another class's group (log 55), a DISCARD with the part's pending number (log 17), a delivery that
goes on though its slot matches and a member passed over (log 58), a hot void page (log 63), the CLOSE of a plan that was
wholly urgent, served in its URGENT turn (log 70), and a turn that goes on by the work there is at the boundary alone (log 75)
are the model's choice or reading. -/
def Obligations.ArbiterServesFirstClass : Prop :=
  (∀ (s : State) (l : Fin 4), s.portReady l = true →
    let t := arbitrate l s
    let idle (c : Cls) : Prop := s.offer l c = none
    t.mem = s.mem ∧ t.roster = s.roster ∧ t.change = s.change ∧ t.editions = s.editions ∧
    ((∀ c, idle c) → (t.arbiter l).turn = none ∧ (t.port l).exchange = none) ∧
    (∀ c before after pointer ch, [Cls.urgent, .activation, .upkeep, .install, .stage, .routine, .repair] =
        before ++ c :: after → (∀ b ∈ before, idle b) → s.offer l c = some (pointer, ch) →
      (∀ u w, (s.arbiter l).turn = some u → u.cls = c → s.turnGoesOn l u = some w →
        (t.port l).exchange = some (handed w) ∧ t.sched = s.sched) ∧
      ((∀ u, (s.arbiter l).turn = some u → u.cls = c → s.turnGoesOn l u = none) →
        let cleared := clearWay c ch.work s
        let members := cleared.groupFor l c ch
        let turn (target : Target) (w : Work) (p : Option Nat) : Prop :=
          (t.port l).exchange = some (handed w) ∧ (t.arbiter l).turn = some ⟨c, target, 0⟩ ∧
          (t.arbiter l).pointers = match p with
            | some k => (s.arbiter l).pointers.put c k
            | none => (s.arbiter l).pointers
        (members.length < 2 → (∀ g, ch.target ≠ .group g) → turn ch.target ch.work pointer) ∧
        (∀ k g, members.length < 2 → ch.target = .group k → cleared.group k = some g → g.members ≠ [] →
          turn (.group k) ch.work (g.members.getLast?.map (·.val))) ∧
        (∀ m ms, members = m :: ms → ms ≠ [] →
          turn (.group (forSlots leaveGroup members cleared).freshGroup) (.openTo m c.openKind)
            (members.getLast?.map (·.val)) ∧
          ∃ g ∈ t.sched.groups, g.id = (forSlots leaveGroup members cleared).freshGroup ∧ g.line = l ∧ g.cls = c ∧
            g.members = members ∧ g.toOpen = members ∧ g.target = none ∧ g.planned = false ∧ g.plan = [] ∧
            g.rate = (s.slot m).served ∧ ∀ h ∈ t.sched.groups, h ≠ g → ∀ n ∈ members, n ∉ h.members) ∧
        ((∀ n kind, ch.work ≠ .openTo n kind) →
          t.sched.groups = s.sched.groups ∧ t.sched.deliveries = s.sched.deliveries) ∧
        (∀ n kind, ch.work = .openTo n kind →
          (c = .urgent → t.delivery n = none ∧ (∀ m, m ≠ n → t.delivery m = s.delivery m) ∧
            ∀ g ∈ t.sched.groups, n ∉ g.members) ∧
          (c ≠ .urgent → t.sched.deliveries = s.sched.deliveries ∧ (∀ g, t.groupOf n = some g → g.cls = c) ∧
            (s.groupIn c n = none → ∀ g ∈ t.sched.groups, n ∈ g.members → g.cls = c)) ∧
          (∀ g ∈ s.sched.groups, (∀ m, m = n ∨ m ∈ members → m ∉ g.members ∧ m ∉ g.toOpen) → g.members ≠ [] →
            g.planned = true ∨ g.toOpen ≠ [] → g ∈ t.sched.groups) ∧
          ∀ g ∈ t.sched.groups, (g.cls = c ∧ g.members = members) ∨
            ∃ h ∈ s.sched.groups, h.id = g.id ∧ h.cls = g.cls ∧ h.line = g.line ∧ ∀ m ∈ g.members, m ∈ h.members)))) ∧
  (∀ (s : State) (l : Fin 4) (c : Cls) (ch : Choice) (n : Fin 24),
    n ∈ s.groupFor l c ch ↔ ∃ k, (c = .stage ∧ ch.work = .openTo k .stage ∨ c = .routine ∧ ch.work = .openTo k .blocklist) ∧
      (s.profileOf l).group = true ∧ ∀ m, m = n ∨ m = k →
        s.lineOf m = some l ∧ s.slotWork c m = some ⟨.openTo m c.openKind, .slot m⟩ ∧ (s.marks m).solo = false ∧
        (s.slot m).served = (s.slot k).served ∧ ∃ cap, (s.slot m).cap = some cap ∧ cap.level = 2) ∧
  (∀ (s : State) (l : Fin 4) (c : Cls) (k : Nat) (ch : Choice), s.offer l c = some (some k, ch) →
    let at' (j : Nat) : Option Choice := if c = .upkeep then s.upkeepAt l j else s.workAt l c j
    let size := if c = .upkeep then 26 else 24
    let start := match (s.arbiter l).pointers.get c with
      | some q => q + 1
      | none => 0
    k < size ∧ at' k = some ch ∧
    ∃ i, i < size ∧ k = (start + i) % size ∧ ∀ j, j < i → at' ((start + j) % size) = none) ∧
  (∀ (s : State) (l : Fin 4) (u : Turn) (w : Work), s.turnGoesOn l u = some w →
    u.cls ≠ .activation ∧ u.cls ≠ .upkeep ∧ (w.counted = true → u.burst < 16) ∧
    (∀ n, u.target = .slot n → s.lineOf n = some l ∧ s.slotWork u.cls n = some ⟨w, .slot n⟩) ∧
    (∀ k, u.target = .group k → ∃ g, s.group k = some g ∧ g.cls = u.cls ∧
      ((∃ m ∈ g.toOpen, w = .openTo m g.cls.openKind) ∨ (w = .groupPage g.id ∧ g.toOpen = [] ∧ g.plan ≠ []) ∨
        (∃ m ∈ g.members, w = .close m ∧ s.memberClose g m = true ∧
          (g.members.Pairwise (· < ·) → ∀ n ∈ g.members, n < m → s.memberClose g n = false)))) ∧
    u.target ≠ .line) ∧
  (∀ (s : State) (l : Fin 4) (u : Turn) (w : Work), u.cls ≠ .activation → u.cls ≠ .upkeep →
    (w.counted = true → u.burst < 16) →
    (∀ n, u.target = .slot n → (s.turnGoesOn l u = some w ↔
      s.lineOf n = some l ∧ s.slotWork u.cls n = some ⟨w, .slot n⟩)) ∧
    (∀ k g, u.target = .group k → s.group k = some g → g.cls = u.cls →
      let closes (m : Fin 24) : Prop := g.planned = true ∧ g.plan = [] ∧ s.memberReady g.cls m ∧
        ∃ d, s.delivery m = some d ∧ d.urgent = [] ∧ d.phase = .opened
      g.cls = .routine ∨ g.cls = .install ∨ g.cls = .stage →
      (s.turnGoesOn l u = some w ↔ s.groupDue g w ∨ ((∀ w', ¬ s.groupDue g w') ∧
        ∃ before m after, g.members = before ++ m :: after ∧ closes m ∧ (∀ b ∈ before, ¬ closes b) ∧ w = .close m)))) ∧
  (∀ (s : State) (c : Cls) (n : Fin 24) (ch : Choice), s.slotWork c n = some ch ↔ s.workDue c n ch) ∧
  (∀ (s : State) (l : Fin 4) (c : Cls) (k : Nat) (ch : Choice),
    (s.workAt l c k = some ch ↔ ∃ n : Fin 24, n.val = k ∧ s.lineOf n = some l ∧ s.workDue c n ch) ∧
    (s.upkeepAt l 0 = some ch ↔ s.editions.timeDue[l] = true ∧ ch = ⟨.time, .line⟩) ∧
    (s.upkeepAt l 1 = some ch ↔ (s.arbiter l).discoveryDue = true ∧ (∃ a, s.visits l a) ∧ ch = ⟨.discovery, .line⟩) ∧
    s.upkeepAt l (k + 2) = s.workAt l .upkeep k) ∧
  (∀ (s : State) (l : Fin 4) (c : Cls),
    let at' (j : Nat) : Option Choice := if c = .upkeep then s.upkeepAt l j else s.workAt l c j
    let broadcast : Prop := c = .activation ∧ (s.arbiter l).activateDue ≠ none
    (broadcast → s.offer l c = some (none, ⟨.activateAll, .line⟩)) ∧
    (s.offer l c = none ↔ ¬ broadcast ∧ ∀ j, j < (if c = .upkeep then 26 else 24) → at' j = none)) ∧
  (∀ (s : State) (l : Fin 4), s.resetLow = false → s.engine = .running → (s.port l).xstate = .gap →
    (s.port l).reply = none → (s.port l).exchange = none → (∀ k, k ≠ l → s.portReady k = false) →
    let u := s.modPort l fun p => { p with
      xstate := .idle, gapLeft := 0, idleTime := min (p.idleTime + p.gapLeft) (2 * (10 * Config.second / 19200)) }
    ∃ t, exec (.gapEnd l) s = .next t ∧ t.sched = (arbitrate l u).sched ∧
      ∀ k, (t.port k).exchange = ((arbitrate l u).port k).exchange)

/-! ## The report block (chapter 10) and the invariants -/

/-- A rewrite: the record's fields as they stand by the layout of each record, its count 2 higher, then what
waited for it. How times left are rounded is the model's reading (log 7); fields of what a slot does not hold
are free (log 6). Where an outcome let go brings the tests of a minute tick put off to it (R59), MinuteTickMovesClock says
what follows (log 48). -/
def Obligations.RewriteShowsState : Prop :=
  (∀ (s : State) (r : Fin 29), s.resetLow = false → Memory.wf s.mem = true → s.report.wanted[r] = true →
    (s.working = true ∨ (s.engine = .starting ∧ ∀ q, q < r → s.report.wanted[q] = false)) →
    let a := s.desc.report + recordOffset r
    let count := leBytes 2 ((s.report.counts[r] + 2) % 65536)
    let fields := recordFields s r
    let alone (w : Waiting) : Prop := ∀ q ∈ w.needs, q = r
    let written : State := { s with mem := Memory.writeBytes s.mem a (count ++ fields) }
    ∃ t, exec (.reportRewrite r) s = .next t ∧ t.report.counts[r] = (s.report.counts[r] + 2) % 65536 ∧
      (∀ q : Fin 29, q ≠ r → t.report.counts[q] = s.report.counts[q]) ∧ t.change = s.change ∧ t.clock = s.clock ∧
      (s.editions.testsDue = false ∨ (∀ w ∈ s.report.waiting, alone w → ∃ n, w.act = .notice n) →
        t.report.wanted[r] = false ∧ t.editions = s.editions ∧ t.roster = s.roster) ∧
      ((∀ w ∈ s.report.waiting, ¬ alone w) →
        Memory.readBytes t.mem a 2 = count ∧ Memory.readBytes t.mem (a + 2) fields.length = fields ∧
        (∀ b, b < a ∨ a + 2 + fields.length ≤ b → Memory.read t.mem b = Memory.read s.mem b) ∧
        t.regs.events = s.regs.events ∧ t.report.waiting.length = s.report.waiting.length) ∧
      (∀ w ∈ s.report.waiting, ∀ n, alone w → w.act = .notice n → t.regs.events.getLsbD n.bit = true) ∧
      (∀ u res q h f, s.report.waiting = [⟨[r], .outcome u res⟩] → (s.strip u).position < s.stripCount u →
        (s.strip u).scan = .holding q h f → s.editions.testsDue = false ∨ ownerOf q.kind ≠ some .edition →
        Completed u res written t ∧ t.report.waiting = [])) ∧
  (∀ (s : State) (r : Fin 29), 2 + (recordFields s r).length = if 1 ≤ r.val ∧ r.val ≤ 4 then 64 else 128) ∧
  (∀ (s : State) (r q : Fin 29), r < q →
    recordOffset r + 2 + (recordFields s r).length ≤ recordOffset q ∧
    recordOffset q + 2 + (recordFields s q).length ≤ 3456) ∧
  (∀ s : State,
    let at' (o k v : Nat) : Prop := ((recordFields s summaryRec).drop (o - 2)).take k = leBytes k v
    let c := s.change
    let e := s.editions
    let slots (q : SlotState) : Nat := ((List.finRange 24).filter fun n => (s.slot n).state = q).length
    at' 2 1 s.engine.code ∧ at' 3 1 (if s.clock.isSet then 1 else 0) ∧ at' 4 2 s.clock.day ∧ at' 6 2 s.clock.minute ∧
    at' 8 2 s.clock.serviceDay ∧ at' 10 2 s.clock.dayStart ∧ at' 12 4 c.identity.toNat ∧ at' 16 2 c.pages ∧
    at' 18 2 0 ∧ at' 20 4 c.seed.toNat ∧ at' 24 4 c.gen.toNat ∧ at' 28 4 (c.table.map (·.live)).sum ∧
    at' 32 2 c.refused ∧ at' 34 2 (c.table.filter fun r => r.live = 0).length ∧ at' 36 4 c.digest.toNat ∧
    at' 40 1 (match c.rebuild.map Rebuild.phase with
      | none => 0
      | some .clearing => 1
      | some .copying => 2
      | some .finishing => 3) ∧
    at' 41 1 ((if c.purgeSkipped then 1 else 0) + (if s.roster.full then 2 else 0) +
      (if e.pending.atRisk then 4 else 0)) ∧
    at' 42 2 c.copyCursor ∧ at' 44 2 e.active.number.toNat ∧ at' 46 4 e.active.digest.toNat ∧ at' 50 1 e.active.total ∧
    at' 51 1 (match e.pending.state with
      | .empty => 0
      | .composing => 1
      | .pending => 2) ∧
    at' 52 2 e.pending.number.toNat ∧ at' 54 4 e.pending.effective.toNat ∧ at' 58 1 e.pending.total ∧ at' 59 1 0 ∧
    at' 60 1 (slots .vacant) ∧ at' 61 1 (slots .silent) ∧ at' 62 1 (slots .identifying) ∧ at' 63 1 (slots .behind) ∧
    at' 64 1 (slots .current) ∧ at' 65 1 (slots .quarantined) ∧ at' 66 62 0) ∧
  (∀ (s : State) (l : Fin 4),
    let at' (o k v : Nat) : Prop := ((recordFields s (lineRec l)).drop (o - 2)).take k = leBytes k v
    let p := s.port l
    let a := s.actingLine l
    let k := p.counters
    at' 2 1 (match p.mode with
      | .off => 0
      | .single => 1
      | .pairPrimary => 2
      | .pairSecondary => 3) ∧
    at' 3 1 p.profile.val ∧
    at' 4 1 (match (s.port a).xstate with
      | .idle => 0
      | .sending => 1
      | .awaiting => 2
      | .receiving _ => 3
      | .gap => 4) ∧
    at' 5 1 (if s.paired l = false then 0 else if (s.port a).broken then 2 else 1) ∧
    at' 6 1 (s.lineRoster a).position ∧ at' 7 1 0 ∧ at' 8 2 k.sent ∧ at' 10 2 k.received ∧ at' 12 2 k.garbled ∧
    at' 14 2 k.timeouts ∧ at' 16 2 k.stale ∧
    (∃ m, at' 18 4 m ∧ m < 2 ^ 30 ∧ ∀ i, i < 30 → (m.testBit i = true ↔ i + 1 ∈ (s.lineRoster a).clash)) ∧
    at' 22 42 0) ∧
  (∀ (s : State) (n : Fin 24),
    let at' (o k v : Nat) : Prop := ((recordFields s (rosterRec n)).drop (o - 2)).take k = leBytes k v
    let v := s.slot n
    let k := v.counters
    let time (t : Option Time) : Nat := t.getD 0 / (250 * Config.ms)
    let bit (b : Bool) (i : Nat) : Nat := if b then 2 ^ i else 0
    at' 2 1 (match v.state with
      | .vacant => 0
      | .silent => 1
      | .identifying => 2
      | .behind => 3
      | .current => 4
      | .quarantined => 5) ∧
    (v.binding = none → at' 3 1 255 ∧ at' 4 1 0) ∧
    (∀ l a, v.binding = some (l, a) → at' 3 1 l.val ∧ at' 4 1 a) ∧
    at' 5 1 ((match v.mode with
      | .free => 0
      | .learned => 1
      | .pinned => 2) + bit v.frozen 2) ∧
    at' 6 1 (match v.reason with
      | .none => 0
      | .identity => 1
      | .clash => 2
      | .failures => 3
      | .store => 4) ∧
    at' 7 1 (bit v.reload 0 + bit v.repair 1 + bit v.unconfirmed 2 + bit v.replaced 3 + bit v.duplicate 4 +
      bit v.blIncapable 5 + bit v.edIncapable 6 + bit (v.reach = .secondary) 7) ∧
    at' 8 8 v.serial.toNat ∧ at' 16 8 v.serialSeen.toNat ∧ at' 30 1 v.served.val ∧
    (∀ c, v.cap = some c → at' 24 2 c.model.toNat ∧ at' 26 2 c.blocklist ∧ at' 28 1 c.edition ∧ at' 29 1 c.level ∧
      at' 31 1 c.rate.val) ∧
    (v.cap = none → at' 29 1 0) ∧
    at' 32 4 v.heldId.toNat ∧ at' 36 4 v.heldH.toNat ∧ at' 40 2 v.heldActive.number.toNat ∧
    at' 42 4 v.heldActive.digest.toNat ∧
    (∀ p, v.heldPending = some p → at' 46 2 p.edition.number.toNat ∧ at' 48 4 p.edition.digest.toNat ∧
      at' 52 1 (bit p.complete 0) ∧ at' 56 8 p.mask.toNat) ∧
    (v.heldPending = none → at' 46 2 0) ∧
    at' 53 1 v.misses ∧ at' 54 1 v.failures ∧ at' 55 1 v.garbleRun ∧ at' 64 2 (time v.backoff) ∧
    at' 66 2 (if v.keepalive = none then 65535 else time v.keepalive) ∧ at' 68 2 (time v.window) ∧
    at' 70 2 (s.sweep n).cursor ∧ at' 72 2 (s.sweep n).list.length ∧ at' 74 2 k.misses ∧ at' 76 2 k.garbled ∧
    at' 78 2 k.stale ∧ at' 80 2 k.busy ∧ at' 82 2 k.refusals ∧ at' 84 2 k.tallyFailures ∧ at' 86 2 k.mismatches ∧
    at' 88 2 k.pagesSent ∧ at' 90 38 0)

/-- The invariants hold after power-on, and after power-on and RESTART over any memory in canonical form -/
def Obligations.ResetMeetsInvariants : Prop :=
  let all (s : State) : Prop := s.memoryOk ∧ s.regionsOk ∧ s.genOk ∧ s.heldOk ∧ s.digestOk
  all State.reset ∧
  (∀ s : State, Memory.wf s.mem = true → ∃ t, exec .powerOn s = .next t ∧ all t) ∧
  (∀ (s : State) (v : Word), s.memoryOk → s.resetLow = false → v.getLsbD 1 = true →
    ∃ t, exec (.restart v) s = .next t ∧ all t)

/-- Every step keeps memory in its canonical form, XBASE aligned, and the edition slots on different regions -/
def Obligations.MemoryAndRegionsKept : Prop :=
  ∀ s t : State, step s = .next t → (s.memoryOk → t.memoryOk) ∧ (s.regionsOk → t.regionsOk)

/-- Every step keeps G at or below its limit, a batch below it, every recorded H of the live identity at most G,
and the digest -/
def Obligations.GenerationsKept : Prop :=
  ∀ s t : State, step s = .next t → (s.genOk → s.heldOk → t.genOk ∧ t.heldOk) ∧ (s.digestOk → t.digestOk)
end

