-- ==== Sys2Proof/Laws/State.lean ====
section
/-! SUPPORT. Every named update of the state, field by field and accessor by accessor, and what each accessor reads
after the update of its own field. -/

namespace Sys2Proof.Machine

/-! ### setSlot -/

@[simp] theorem State.setSlot_regs (s : State) (n : Fin 24) (v : Slot) : (s.setSlot n v).regs = s.regs := rfl
@[simp] theorem State.setSlot_engine (s : State) (n : Fin 24) (v : Slot) : (s.setSlot n v).engine = s.engine := rfl
@[simp] theorem State.setSlot_resetLow (s : State) (n : Fin 24) (v : Slot) : (s.setSlot n v).resetLow = s.resetLow := rfl
@[simp] theorem State.setSlot_exch (s : State) (n : Fin 24) (v : Slot) : (s.setSlot n v).exch = s.exch := rfl
@[simp] theorem State.setSlot_change (s : State) (n : Fin 24) (v : Slot) : (s.setSlot n v).change = s.change := rfl
@[simp] theorem State.setSlot_editions (s : State) (n : Fin 24) (v : Slot) : (s.setSlot n v).editions = s.editions := rfl
@[simp] theorem State.setSlot_clock (s : State) (n : Fin 24) (v : Slot) : (s.setSlot n v).clock = s.clock := rfl
@[simp] theorem State.setSlot_ports (s : State) (n : Fin 24) (v : Slot) : (s.setSlot n v).ports = s.ports := rfl
@[simp] theorem State.setSlot_profiles (s : State) (n : Fin 24) (v : Slot) : (s.setSlot n v).profiles = s.profiles := rfl
@[simp] theorem State.setSlot_sched (s : State) (n : Fin 24) (v : Slot) : (s.setSlot n v).sched = s.sched := rfl
@[simp] theorem State.setSlot_sweeps (s : State) (n : Fin 24) (v : Slot) : (s.setSlot n v).sweeps = s.sweeps := rfl
@[simp] theorem State.setSlot_report (s : State) (n : Fin 24) (v : Slot) : (s.setSlot n v).report = s.report := rfl
@[simp] theorem State.setSlot_mem (s : State) (n : Fin 24) (v : Slot) : (s.setSlot n v).mem = s.mem := rfl
@[simp] theorem State.setSlot_pending (s : State) (n : Fin 24) (v : Slot) : (s.setSlot n v).pending = s.pending := rfl
@[simp] theorem State.setSlot_lineRoster (s : State) (n : Fin 24) (v : Slot) (k : Fin 4) : (s.setSlot n v).lineRoster k = s.lineRoster k := rfl
@[simp] theorem State.setSlot_port (s : State) (n : Fin 24) (v : Slot) (k : Fin 4) : (s.setSlot n v).port k = s.port k := rfl
@[simp] theorem State.setSlot_arbiter (s : State) (n : Fin 24) (v : Slot) (k : Fin 4) : (s.setSlot n v).arbiter k = s.arbiter k := rfl
@[simp] theorem State.setSlot_delivery (s : State) (n : Fin 24) (v : Slot) (k : Fin 24) : (s.setSlot n v).delivery k = s.delivery k := rfl
@[simp] theorem State.setSlot_marks (s : State) (n : Fin 24) (v : Slot) (k : Fin 24) : (s.setSlot n v).marks k = s.marks k := rfl
@[simp] theorem State.setSlot_sweep (s : State) (n : Fin 24) (v : Slot) (k : Fin 24) : (s.setSlot n v).sweep k = s.sweep k := rfl

/-! ### modSlot -/

@[simp] theorem State.modSlot_regs (s : State) (n : Fin 24) (f : Slot → Slot) : (s.modSlot n f).regs = s.regs := rfl
@[simp] theorem State.modSlot_engine (s : State) (n : Fin 24) (f : Slot → Slot) : (s.modSlot n f).engine = s.engine := rfl
@[simp] theorem State.modSlot_resetLow (s : State) (n : Fin 24) (f : Slot → Slot) : (s.modSlot n f).resetLow = s.resetLow := rfl
@[simp] theorem State.modSlot_exch (s : State) (n : Fin 24) (f : Slot → Slot) : (s.modSlot n f).exch = s.exch := rfl
@[simp] theorem State.modSlot_change (s : State) (n : Fin 24) (f : Slot → Slot) : (s.modSlot n f).change = s.change := rfl
@[simp] theorem State.modSlot_editions (s : State) (n : Fin 24) (f : Slot → Slot) : (s.modSlot n f).editions = s.editions := rfl
@[simp] theorem State.modSlot_clock (s : State) (n : Fin 24) (f : Slot → Slot) : (s.modSlot n f).clock = s.clock := rfl
@[simp] theorem State.modSlot_ports (s : State) (n : Fin 24) (f : Slot → Slot) : (s.modSlot n f).ports = s.ports := rfl
@[simp] theorem State.modSlot_profiles (s : State) (n : Fin 24) (f : Slot → Slot) : (s.modSlot n f).profiles = s.profiles := rfl
@[simp] theorem State.modSlot_sched (s : State) (n : Fin 24) (f : Slot → Slot) : (s.modSlot n f).sched = s.sched := rfl
@[simp] theorem State.modSlot_sweeps (s : State) (n : Fin 24) (f : Slot → Slot) : (s.modSlot n f).sweeps = s.sweeps := rfl
@[simp] theorem State.modSlot_report (s : State) (n : Fin 24) (f : Slot → Slot) : (s.modSlot n f).report = s.report := rfl
@[simp] theorem State.modSlot_mem (s : State) (n : Fin 24) (f : Slot → Slot) : (s.modSlot n f).mem = s.mem := rfl
@[simp] theorem State.modSlot_pending (s : State) (n : Fin 24) (f : Slot → Slot) : (s.modSlot n f).pending = s.pending := rfl
@[simp] theorem State.modSlot_lineRoster (s : State) (n : Fin 24) (f : Slot → Slot) (k : Fin 4) : (s.modSlot n f).lineRoster k = s.lineRoster k := rfl
@[simp] theorem State.modSlot_port (s : State) (n : Fin 24) (f : Slot → Slot) (k : Fin 4) : (s.modSlot n f).port k = s.port k := rfl
@[simp] theorem State.modSlot_arbiter (s : State) (n : Fin 24) (f : Slot → Slot) (k : Fin 4) : (s.modSlot n f).arbiter k = s.arbiter k := rfl
@[simp] theorem State.modSlot_delivery (s : State) (n : Fin 24) (f : Slot → Slot) (k : Fin 24) : (s.modSlot n f).delivery k = s.delivery k := rfl
@[simp] theorem State.modSlot_marks (s : State) (n : Fin 24) (f : Slot → Slot) (k : Fin 24) : (s.modSlot n f).marks k = s.marks k := rfl
@[simp] theorem State.modSlot_sweep (s : State) (n : Fin 24) (f : Slot → Slot) (k : Fin 24) : (s.modSlot n f).sweep k = s.sweep k := rfl

/-! ### modLineRoster -/

@[simp] theorem State.modLineRoster_regs (s : State) (l : Fin 4) (f : LineRoster → LineRoster) : (s.modLineRoster l f).regs = s.regs := rfl
@[simp] theorem State.modLineRoster_engine (s : State) (l : Fin 4) (f : LineRoster → LineRoster) : (s.modLineRoster l f).engine = s.engine := rfl
@[simp] theorem State.modLineRoster_resetLow (s : State) (l : Fin 4) (f : LineRoster → LineRoster) : (s.modLineRoster l f).resetLow = s.resetLow := rfl
@[simp] theorem State.modLineRoster_exch (s : State) (l : Fin 4) (f : LineRoster → LineRoster) : (s.modLineRoster l f).exch = s.exch := rfl
@[simp] theorem State.modLineRoster_change (s : State) (l : Fin 4) (f : LineRoster → LineRoster) : (s.modLineRoster l f).change = s.change := rfl
@[simp] theorem State.modLineRoster_editions (s : State) (l : Fin 4) (f : LineRoster → LineRoster) : (s.modLineRoster l f).editions = s.editions := rfl
@[simp] theorem State.modLineRoster_clock (s : State) (l : Fin 4) (f : LineRoster → LineRoster) : (s.modLineRoster l f).clock = s.clock := rfl
@[simp] theorem State.modLineRoster_ports (s : State) (l : Fin 4) (f : LineRoster → LineRoster) : (s.modLineRoster l f).ports = s.ports := rfl
@[simp] theorem State.modLineRoster_profiles (s : State) (l : Fin 4) (f : LineRoster → LineRoster) : (s.modLineRoster l f).profiles = s.profiles := rfl
@[simp] theorem State.modLineRoster_sched (s : State) (l : Fin 4) (f : LineRoster → LineRoster) : (s.modLineRoster l f).sched = s.sched := rfl
@[simp] theorem State.modLineRoster_sweeps (s : State) (l : Fin 4) (f : LineRoster → LineRoster) : (s.modLineRoster l f).sweeps = s.sweeps := rfl
@[simp] theorem State.modLineRoster_report (s : State) (l : Fin 4) (f : LineRoster → LineRoster) : (s.modLineRoster l f).report = s.report := rfl
@[simp] theorem State.modLineRoster_mem (s : State) (l : Fin 4) (f : LineRoster → LineRoster) : (s.modLineRoster l f).mem = s.mem := rfl
@[simp] theorem State.modLineRoster_pending (s : State) (l : Fin 4) (f : LineRoster → LineRoster) : (s.modLineRoster l f).pending = s.pending := rfl
@[simp] theorem State.modLineRoster_slot (s : State) (l : Fin 4) (f : LineRoster → LineRoster) (k : Fin 24) : (s.modLineRoster l f).slot k = s.slot k := rfl
@[simp] theorem State.modLineRoster_port (s : State) (l : Fin 4) (f : LineRoster → LineRoster) (k : Fin 4) : (s.modLineRoster l f).port k = s.port k := rfl
@[simp] theorem State.modLineRoster_arbiter (s : State) (l : Fin 4) (f : LineRoster → LineRoster) (k : Fin 4) : (s.modLineRoster l f).arbiter k = s.arbiter k := rfl
@[simp] theorem State.modLineRoster_delivery (s : State) (l : Fin 4) (f : LineRoster → LineRoster) (k : Fin 24) : (s.modLineRoster l f).delivery k = s.delivery k := rfl
@[simp] theorem State.modLineRoster_marks (s : State) (l : Fin 4) (f : LineRoster → LineRoster) (k : Fin 24) : (s.modLineRoster l f).marks k = s.marks k := rfl
@[simp] theorem State.modLineRoster_sweep (s : State) (l : Fin 4) (f : LineRoster → LineRoster) (k : Fin 24) : (s.modLineRoster l f).sweep k = s.sweep k := rfl

/-! ### modPort -/

@[simp] theorem State.modPort_regs (s : State) (l : Fin 4) (f : Port → Port) : (s.modPort l f).regs = s.regs := rfl
@[simp] theorem State.modPort_engine (s : State) (l : Fin 4) (f : Port → Port) : (s.modPort l f).engine = s.engine := rfl
@[simp] theorem State.modPort_resetLow (s : State) (l : Fin 4) (f : Port → Port) : (s.modPort l f).resetLow = s.resetLow := rfl
@[simp] theorem State.modPort_exch (s : State) (l : Fin 4) (f : Port → Port) : (s.modPort l f).exch = s.exch := rfl
@[simp] theorem State.modPort_change (s : State) (l : Fin 4) (f : Port → Port) : (s.modPort l f).change = s.change := rfl
@[simp] theorem State.modPort_editions (s : State) (l : Fin 4) (f : Port → Port) : (s.modPort l f).editions = s.editions := rfl
@[simp] theorem State.modPort_clock (s : State) (l : Fin 4) (f : Port → Port) : (s.modPort l f).clock = s.clock := rfl
@[simp] theorem State.modPort_roster (s : State) (l : Fin 4) (f : Port → Port) : (s.modPort l f).roster = s.roster := rfl
@[simp] theorem State.modPort_profiles (s : State) (l : Fin 4) (f : Port → Port) : (s.modPort l f).profiles = s.profiles := rfl
@[simp] theorem State.modPort_sched (s : State) (l : Fin 4) (f : Port → Port) : (s.modPort l f).sched = s.sched := rfl
@[simp] theorem State.modPort_sweeps (s : State) (l : Fin 4) (f : Port → Port) : (s.modPort l f).sweeps = s.sweeps := rfl
@[simp] theorem State.modPort_report (s : State) (l : Fin 4) (f : Port → Port) : (s.modPort l f).report = s.report := rfl
@[simp] theorem State.modPort_mem (s : State) (l : Fin 4) (f : Port → Port) : (s.modPort l f).mem = s.mem := rfl
@[simp] theorem State.modPort_pending (s : State) (l : Fin 4) (f : Port → Port) : (s.modPort l f).pending = s.pending := rfl
@[simp] theorem State.modPort_slot (s : State) (l : Fin 4) (f : Port → Port) (k : Fin 24) : (s.modPort l f).slot k = s.slot k := rfl
@[simp] theorem State.modPort_lineRoster (s : State) (l : Fin 4) (f : Port → Port) (k : Fin 4) : (s.modPort l f).lineRoster k = s.lineRoster k := rfl
@[simp] theorem State.modPort_arbiter (s : State) (l : Fin 4) (f : Port → Port) (k : Fin 4) : (s.modPort l f).arbiter k = s.arbiter k := rfl
@[simp] theorem State.modPort_delivery (s : State) (l : Fin 4) (f : Port → Port) (k : Fin 24) : (s.modPort l f).delivery k = s.delivery k := rfl
@[simp] theorem State.modPort_marks (s : State) (l : Fin 4) (f : Port → Port) (k : Fin 24) : (s.modPort l f).marks k = s.marks k := rfl
@[simp] theorem State.modPort_sweep (s : State) (l : Fin 4) (f : Port → Port) (k : Fin 24) : (s.modPort l f).sweep k = s.sweep k := rfl

/-! ### modArbiter -/

@[simp] theorem State.modArbiter_regs (s : State) (l : Fin 4) (f : Arbiter → Arbiter) : (s.modArbiter l f).regs = s.regs := rfl
@[simp] theorem State.modArbiter_engine (s : State) (l : Fin 4) (f : Arbiter → Arbiter) : (s.modArbiter l f).engine = s.engine := rfl
@[simp] theorem State.modArbiter_resetLow (s : State) (l : Fin 4) (f : Arbiter → Arbiter) : (s.modArbiter l f).resetLow = s.resetLow := rfl
@[simp] theorem State.modArbiter_exch (s : State) (l : Fin 4) (f : Arbiter → Arbiter) : (s.modArbiter l f).exch = s.exch := rfl
@[simp] theorem State.modArbiter_change (s : State) (l : Fin 4) (f : Arbiter → Arbiter) : (s.modArbiter l f).change = s.change := rfl
@[simp] theorem State.modArbiter_editions (s : State) (l : Fin 4) (f : Arbiter → Arbiter) : (s.modArbiter l f).editions = s.editions := rfl
@[simp] theorem State.modArbiter_clock (s : State) (l : Fin 4) (f : Arbiter → Arbiter) : (s.modArbiter l f).clock = s.clock := rfl
@[simp] theorem State.modArbiter_roster (s : State) (l : Fin 4) (f : Arbiter → Arbiter) : (s.modArbiter l f).roster = s.roster := rfl
@[simp] theorem State.modArbiter_ports (s : State) (l : Fin 4) (f : Arbiter → Arbiter) : (s.modArbiter l f).ports = s.ports := rfl
@[simp] theorem State.modArbiter_profiles (s : State) (l : Fin 4) (f : Arbiter → Arbiter) : (s.modArbiter l f).profiles = s.profiles := rfl
@[simp] theorem State.modArbiter_sweeps (s : State) (l : Fin 4) (f : Arbiter → Arbiter) : (s.modArbiter l f).sweeps = s.sweeps := rfl
@[simp] theorem State.modArbiter_report (s : State) (l : Fin 4) (f : Arbiter → Arbiter) : (s.modArbiter l f).report = s.report := rfl
@[simp] theorem State.modArbiter_mem (s : State) (l : Fin 4) (f : Arbiter → Arbiter) : (s.modArbiter l f).mem = s.mem := rfl
@[simp] theorem State.modArbiter_pending (s : State) (l : Fin 4) (f : Arbiter → Arbiter) : (s.modArbiter l f).pending = s.pending := rfl
@[simp] theorem State.modArbiter_slot (s : State) (l : Fin 4) (f : Arbiter → Arbiter) (k : Fin 24) : (s.modArbiter l f).slot k = s.slot k := rfl
@[simp] theorem State.modArbiter_lineRoster (s : State) (l : Fin 4) (f : Arbiter → Arbiter) (k : Fin 4) : (s.modArbiter l f).lineRoster k = s.lineRoster k := rfl
@[simp] theorem State.modArbiter_port (s : State) (l : Fin 4) (f : Arbiter → Arbiter) (k : Fin 4) : (s.modArbiter l f).port k = s.port k := rfl
@[simp] theorem State.modArbiter_delivery (s : State) (l : Fin 4) (f : Arbiter → Arbiter) (k : Fin 24) : (s.modArbiter l f).delivery k = s.delivery k := rfl
@[simp] theorem State.modArbiter_marks (s : State) (l : Fin 4) (f : Arbiter → Arbiter) (k : Fin 24) : (s.modArbiter l f).marks k = s.marks k := rfl
@[simp] theorem State.modArbiter_sweep (s : State) (l : Fin 4) (f : Arbiter → Arbiter) (k : Fin 24) : (s.modArbiter l f).sweep k = s.sweep k := rfl

/-! ### setDelivery -/

@[simp] theorem State.setDelivery_regs (s : State) (n : Fin 24) (d : Option Delivery) : (s.setDelivery n d).regs = s.regs := rfl
@[simp] theorem State.setDelivery_engine (s : State) (n : Fin 24) (d : Option Delivery) : (s.setDelivery n d).engine = s.engine := rfl
@[simp] theorem State.setDelivery_resetLow (s : State) (n : Fin 24) (d : Option Delivery) : (s.setDelivery n d).resetLow = s.resetLow := rfl
@[simp] theorem State.setDelivery_exch (s : State) (n : Fin 24) (d : Option Delivery) : (s.setDelivery n d).exch = s.exch := rfl
@[simp] theorem State.setDelivery_change (s : State) (n : Fin 24) (d : Option Delivery) : (s.setDelivery n d).change = s.change := rfl
@[simp] theorem State.setDelivery_editions (s : State) (n : Fin 24) (d : Option Delivery) : (s.setDelivery n d).editions = s.editions := rfl
@[simp] theorem State.setDelivery_clock (s : State) (n : Fin 24) (d : Option Delivery) : (s.setDelivery n d).clock = s.clock := rfl
@[simp] theorem State.setDelivery_roster (s : State) (n : Fin 24) (d : Option Delivery) : (s.setDelivery n d).roster = s.roster := rfl
@[simp] theorem State.setDelivery_ports (s : State) (n : Fin 24) (d : Option Delivery) : (s.setDelivery n d).ports = s.ports := rfl
@[simp] theorem State.setDelivery_profiles (s : State) (n : Fin 24) (d : Option Delivery) : (s.setDelivery n d).profiles = s.profiles := rfl
@[simp] theorem State.setDelivery_sweeps (s : State) (n : Fin 24) (d : Option Delivery) : (s.setDelivery n d).sweeps = s.sweeps := rfl
@[simp] theorem State.setDelivery_report (s : State) (n : Fin 24) (d : Option Delivery) : (s.setDelivery n d).report = s.report := rfl
@[simp] theorem State.setDelivery_mem (s : State) (n : Fin 24) (d : Option Delivery) : (s.setDelivery n d).mem = s.mem := rfl
@[simp] theorem State.setDelivery_pending (s : State) (n : Fin 24) (d : Option Delivery) : (s.setDelivery n d).pending = s.pending := rfl
@[simp] theorem State.setDelivery_slot (s : State) (n : Fin 24) (d : Option Delivery) (k : Fin 24) : (s.setDelivery n d).slot k = s.slot k := rfl
@[simp] theorem State.setDelivery_lineRoster (s : State) (n : Fin 24) (d : Option Delivery) (k : Fin 4) : (s.setDelivery n d).lineRoster k = s.lineRoster k := rfl
@[simp] theorem State.setDelivery_port (s : State) (n : Fin 24) (d : Option Delivery) (k : Fin 4) : (s.setDelivery n d).port k = s.port k := rfl
@[simp] theorem State.setDelivery_arbiter (s : State) (n : Fin 24) (d : Option Delivery) (k : Fin 4) : (s.setDelivery n d).arbiter k = s.arbiter k := rfl
@[simp] theorem State.setDelivery_marks (s : State) (n : Fin 24) (d : Option Delivery) (k : Fin 24) : (s.setDelivery n d).marks k = s.marks k := rfl
@[simp] theorem State.setDelivery_sweep (s : State) (n : Fin 24) (d : Option Delivery) (k : Fin 24) : (s.setDelivery n d).sweep k = s.sweep k := rfl

/-! ### modDelivery -/

@[simp] theorem State.modDelivery_regs (s : State) (n : Fin 24) (f : Delivery → Delivery) : (s.modDelivery n f).regs = s.regs := rfl
@[simp] theorem State.modDelivery_engine (s : State) (n : Fin 24) (f : Delivery → Delivery) : (s.modDelivery n f).engine = s.engine := rfl
@[simp] theorem State.modDelivery_resetLow (s : State) (n : Fin 24) (f : Delivery → Delivery) : (s.modDelivery n f).resetLow = s.resetLow := rfl
@[simp] theorem State.modDelivery_exch (s : State) (n : Fin 24) (f : Delivery → Delivery) : (s.modDelivery n f).exch = s.exch := rfl
@[simp] theorem State.modDelivery_change (s : State) (n : Fin 24) (f : Delivery → Delivery) : (s.modDelivery n f).change = s.change := rfl
@[simp] theorem State.modDelivery_editions (s : State) (n : Fin 24) (f : Delivery → Delivery) : (s.modDelivery n f).editions = s.editions := rfl
@[simp] theorem State.modDelivery_clock (s : State) (n : Fin 24) (f : Delivery → Delivery) : (s.modDelivery n f).clock = s.clock := rfl
@[simp] theorem State.modDelivery_roster (s : State) (n : Fin 24) (f : Delivery → Delivery) : (s.modDelivery n f).roster = s.roster := rfl
@[simp] theorem State.modDelivery_ports (s : State) (n : Fin 24) (f : Delivery → Delivery) : (s.modDelivery n f).ports = s.ports := rfl
@[simp] theorem State.modDelivery_profiles (s : State) (n : Fin 24) (f : Delivery → Delivery) : (s.modDelivery n f).profiles = s.profiles := rfl
@[simp] theorem State.modDelivery_sweeps (s : State) (n : Fin 24) (f : Delivery → Delivery) : (s.modDelivery n f).sweeps = s.sweeps := rfl
@[simp] theorem State.modDelivery_report (s : State) (n : Fin 24) (f : Delivery → Delivery) : (s.modDelivery n f).report = s.report := rfl
@[simp] theorem State.modDelivery_mem (s : State) (n : Fin 24) (f : Delivery → Delivery) : (s.modDelivery n f).mem = s.mem := rfl
@[simp] theorem State.modDelivery_pending (s : State) (n : Fin 24) (f : Delivery → Delivery) : (s.modDelivery n f).pending = s.pending := rfl
@[simp] theorem State.modDelivery_slot (s : State) (n : Fin 24) (f : Delivery → Delivery) (k : Fin 24) : (s.modDelivery n f).slot k = s.slot k := rfl
@[simp] theorem State.modDelivery_lineRoster (s : State) (n : Fin 24) (f : Delivery → Delivery) (k : Fin 4) : (s.modDelivery n f).lineRoster k = s.lineRoster k := rfl
@[simp] theorem State.modDelivery_port (s : State) (n : Fin 24) (f : Delivery → Delivery) (k : Fin 4) : (s.modDelivery n f).port k = s.port k := rfl
@[simp] theorem State.modDelivery_arbiter (s : State) (n : Fin 24) (f : Delivery → Delivery) (k : Fin 4) : (s.modDelivery n f).arbiter k = s.arbiter k := rfl
@[simp] theorem State.modDelivery_marks (s : State) (n : Fin 24) (f : Delivery → Delivery) (k : Fin 24) : (s.modDelivery n f).marks k = s.marks k := rfl
@[simp] theorem State.modDelivery_sweep (s : State) (n : Fin 24) (f : Delivery → Delivery) (k : Fin 24) : (s.modDelivery n f).sweep k = s.sweep k := rfl

/-! ### modMarks -/

@[simp] theorem State.modMarks_regs (s : State) (n : Fin 24) (f : Marks → Marks) : (s.modMarks n f).regs = s.regs := rfl
@[simp] theorem State.modMarks_engine (s : State) (n : Fin 24) (f : Marks → Marks) : (s.modMarks n f).engine = s.engine := rfl
@[simp] theorem State.modMarks_resetLow (s : State) (n : Fin 24) (f : Marks → Marks) : (s.modMarks n f).resetLow = s.resetLow := rfl
@[simp] theorem State.modMarks_exch (s : State) (n : Fin 24) (f : Marks → Marks) : (s.modMarks n f).exch = s.exch := rfl
@[simp] theorem State.modMarks_change (s : State) (n : Fin 24) (f : Marks → Marks) : (s.modMarks n f).change = s.change := rfl
@[simp] theorem State.modMarks_editions (s : State) (n : Fin 24) (f : Marks → Marks) : (s.modMarks n f).editions = s.editions := rfl
@[simp] theorem State.modMarks_clock (s : State) (n : Fin 24) (f : Marks → Marks) : (s.modMarks n f).clock = s.clock := rfl
@[simp] theorem State.modMarks_roster (s : State) (n : Fin 24) (f : Marks → Marks) : (s.modMarks n f).roster = s.roster := rfl
@[simp] theorem State.modMarks_ports (s : State) (n : Fin 24) (f : Marks → Marks) : (s.modMarks n f).ports = s.ports := rfl
@[simp] theorem State.modMarks_profiles (s : State) (n : Fin 24) (f : Marks → Marks) : (s.modMarks n f).profiles = s.profiles := rfl
@[simp] theorem State.modMarks_sweeps (s : State) (n : Fin 24) (f : Marks → Marks) : (s.modMarks n f).sweeps = s.sweeps := rfl
@[simp] theorem State.modMarks_report (s : State) (n : Fin 24) (f : Marks → Marks) : (s.modMarks n f).report = s.report := rfl
@[simp] theorem State.modMarks_mem (s : State) (n : Fin 24) (f : Marks → Marks) : (s.modMarks n f).mem = s.mem := rfl
@[simp] theorem State.modMarks_pending (s : State) (n : Fin 24) (f : Marks → Marks) : (s.modMarks n f).pending = s.pending := rfl
@[simp] theorem State.modMarks_slot (s : State) (n : Fin 24) (f : Marks → Marks) (k : Fin 24) : (s.modMarks n f).slot k = s.slot k := rfl
@[simp] theorem State.modMarks_lineRoster (s : State) (n : Fin 24) (f : Marks → Marks) (k : Fin 4) : (s.modMarks n f).lineRoster k = s.lineRoster k := rfl
@[simp] theorem State.modMarks_port (s : State) (n : Fin 24) (f : Marks → Marks) (k : Fin 4) : (s.modMarks n f).port k = s.port k := rfl
@[simp] theorem State.modMarks_arbiter (s : State) (n : Fin 24) (f : Marks → Marks) (k : Fin 4) : (s.modMarks n f).arbiter k = s.arbiter k := rfl
@[simp] theorem State.modMarks_delivery (s : State) (n : Fin 24) (f : Marks → Marks) (k : Fin 24) : (s.modMarks n f).delivery k = s.delivery k := rfl
@[simp] theorem State.modMarks_sweep (s : State) (n : Fin 24) (f : Marks → Marks) (k : Fin 24) : (s.modMarks n f).sweep k = s.sweep k := rfl

/-! ### setGroups -/

@[simp] theorem State.setGroups_regs (s : State) (gs : List Group) : (s.setGroups gs).regs = s.regs := rfl
@[simp] theorem State.setGroups_engine (s : State) (gs : List Group) : (s.setGroups gs).engine = s.engine := rfl
@[simp] theorem State.setGroups_resetLow (s : State) (gs : List Group) : (s.setGroups gs).resetLow = s.resetLow := rfl
@[simp] theorem State.setGroups_exch (s : State) (gs : List Group) : (s.setGroups gs).exch = s.exch := rfl
@[simp] theorem State.setGroups_change (s : State) (gs : List Group) : (s.setGroups gs).change = s.change := rfl
@[simp] theorem State.setGroups_editions (s : State) (gs : List Group) : (s.setGroups gs).editions = s.editions := rfl
@[simp] theorem State.setGroups_clock (s : State) (gs : List Group) : (s.setGroups gs).clock = s.clock := rfl
@[simp] theorem State.setGroups_roster (s : State) (gs : List Group) : (s.setGroups gs).roster = s.roster := rfl
@[simp] theorem State.setGroups_ports (s : State) (gs : List Group) : (s.setGroups gs).ports = s.ports := rfl
@[simp] theorem State.setGroups_profiles (s : State) (gs : List Group) : (s.setGroups gs).profiles = s.profiles := rfl
@[simp] theorem State.setGroups_sweeps (s : State) (gs : List Group) : (s.setGroups gs).sweeps = s.sweeps := rfl
@[simp] theorem State.setGroups_report (s : State) (gs : List Group) : (s.setGroups gs).report = s.report := rfl
@[simp] theorem State.setGroups_mem (s : State) (gs : List Group) : (s.setGroups gs).mem = s.mem := rfl
@[simp] theorem State.setGroups_pending (s : State) (gs : List Group) : (s.setGroups gs).pending = s.pending := rfl
@[simp] theorem State.setGroups_slot (s : State) (gs : List Group) (k : Fin 24) : (s.setGroups gs).slot k = s.slot k := rfl
@[simp] theorem State.setGroups_lineRoster (s : State) (gs : List Group) (k : Fin 4) : (s.setGroups gs).lineRoster k = s.lineRoster k := rfl
@[simp] theorem State.setGroups_port (s : State) (gs : List Group) (k : Fin 4) : (s.setGroups gs).port k = s.port k := rfl
@[simp] theorem State.setGroups_arbiter (s : State) (gs : List Group) (k : Fin 4) : (s.setGroups gs).arbiter k = s.arbiter k := rfl
@[simp] theorem State.setGroups_delivery (s : State) (gs : List Group) (k : Fin 24) : (s.setGroups gs).delivery k = s.delivery k := rfl
@[simp] theorem State.setGroups_marks (s : State) (gs : List Group) (k : Fin 24) : (s.setGroups gs).marks k = s.marks k := rfl
@[simp] theorem State.setGroups_sweep (s : State) (gs : List Group) (k : Fin 24) : (s.setGroups gs).sweep k = s.sweep k := rfl

/-! ### setSweep -/

@[simp] theorem State.setSweep_regs (s : State) (n : Fin 24) (v : Sweep) : (s.setSweep n v).regs = s.regs := rfl
@[simp] theorem State.setSweep_engine (s : State) (n : Fin 24) (v : Sweep) : (s.setSweep n v).engine = s.engine := rfl
@[simp] theorem State.setSweep_resetLow (s : State) (n : Fin 24) (v : Sweep) : (s.setSweep n v).resetLow = s.resetLow := rfl
@[simp] theorem State.setSweep_exch (s : State) (n : Fin 24) (v : Sweep) : (s.setSweep n v).exch = s.exch := rfl
@[simp] theorem State.setSweep_change (s : State) (n : Fin 24) (v : Sweep) : (s.setSweep n v).change = s.change := rfl
@[simp] theorem State.setSweep_editions (s : State) (n : Fin 24) (v : Sweep) : (s.setSweep n v).editions = s.editions := rfl
@[simp] theorem State.setSweep_clock (s : State) (n : Fin 24) (v : Sweep) : (s.setSweep n v).clock = s.clock := rfl
@[simp] theorem State.setSweep_roster (s : State) (n : Fin 24) (v : Sweep) : (s.setSweep n v).roster = s.roster := rfl
@[simp] theorem State.setSweep_ports (s : State) (n : Fin 24) (v : Sweep) : (s.setSweep n v).ports = s.ports := rfl
@[simp] theorem State.setSweep_profiles (s : State) (n : Fin 24) (v : Sweep) : (s.setSweep n v).profiles = s.profiles := rfl
@[simp] theorem State.setSweep_sched (s : State) (n : Fin 24) (v : Sweep) : (s.setSweep n v).sched = s.sched := rfl
@[simp] theorem State.setSweep_report (s : State) (n : Fin 24) (v : Sweep) : (s.setSweep n v).report = s.report := rfl
@[simp] theorem State.setSweep_mem (s : State) (n : Fin 24) (v : Sweep) : (s.setSweep n v).mem = s.mem := rfl
@[simp] theorem State.setSweep_pending (s : State) (n : Fin 24) (v : Sweep) : (s.setSweep n v).pending = s.pending := rfl
@[simp] theorem State.setSweep_slot (s : State) (n : Fin 24) (v : Sweep) (k : Fin 24) : (s.setSweep n v).slot k = s.slot k := rfl
@[simp] theorem State.setSweep_lineRoster (s : State) (n : Fin 24) (v : Sweep) (k : Fin 4) : (s.setSweep n v).lineRoster k = s.lineRoster k := rfl
@[simp] theorem State.setSweep_port (s : State) (n : Fin 24) (v : Sweep) (k : Fin 4) : (s.setSweep n v).port k = s.port k := rfl
@[simp] theorem State.setSweep_arbiter (s : State) (n : Fin 24) (v : Sweep) (k : Fin 4) : (s.setSweep n v).arbiter k = s.arbiter k := rfl
@[simp] theorem State.setSweep_delivery (s : State) (n : Fin 24) (v : Sweep) (k : Fin 24) : (s.setSweep n v).delivery k = s.delivery k := rfl
@[simp] theorem State.setSweep_marks (s : State) (n : Fin 24) (v : Sweep) (k : Fin 24) : (s.setSweep n v).marks k = s.marks k := rfl

/-! ### want -/

@[simp] theorem want_regs (s : State) (r : Fin 29) : (want r s).regs = s.regs := rfl
@[simp] theorem want_engine (s : State) (r : Fin 29) : (want r s).engine = s.engine := rfl
@[simp] theorem want_resetLow (s : State) (r : Fin 29) : (want r s).resetLow = s.resetLow := rfl
@[simp] theorem want_exch (s : State) (r : Fin 29) : (want r s).exch = s.exch := rfl
@[simp] theorem want_change (s : State) (r : Fin 29) : (want r s).change = s.change := rfl
@[simp] theorem want_editions (s : State) (r : Fin 29) : (want r s).editions = s.editions := rfl
@[simp] theorem want_clock (s : State) (r : Fin 29) : (want r s).clock = s.clock := rfl
@[simp] theorem want_roster (s : State) (r : Fin 29) : (want r s).roster = s.roster := rfl
@[simp] theorem want_ports (s : State) (r : Fin 29) : (want r s).ports = s.ports := rfl
@[simp] theorem want_profiles (s : State) (r : Fin 29) : (want r s).profiles = s.profiles := rfl
@[simp] theorem want_sched (s : State) (r : Fin 29) : (want r s).sched = s.sched := rfl
@[simp] theorem want_sweeps (s : State) (r : Fin 29) : (want r s).sweeps = s.sweeps := rfl
@[simp] theorem want_mem (s : State) (r : Fin 29) : (want r s).mem = s.mem := rfl
@[simp] theorem want_pending (s : State) (r : Fin 29) : (want r s).pending = s.pending := rfl
@[simp] theorem want_slot (s : State) (r : Fin 29) (k : Fin 24) : (want r s).slot k = s.slot k := rfl
@[simp] theorem want_lineRoster (s : State) (r : Fin 29) (k : Fin 4) : (want r s).lineRoster k = s.lineRoster k := rfl
@[simp] theorem want_port (s : State) (r : Fin 29) (k : Fin 4) : (want r s).port k = s.port k := rfl
@[simp] theorem want_arbiter (s : State) (r : Fin 29) (k : Fin 4) : (want r s).arbiter k = s.arbiter k := rfl
@[simp] theorem want_delivery (s : State) (r : Fin 29) (k : Fin 24) : (want r s).delivery k = s.delivery k := rfl
@[simp] theorem want_marks (s : State) (r : Fin 29) (k : Fin 24) : (want r s).marks k = s.marks k := rfl
@[simp] theorem want_sweep (s : State) (r : Fin 29) (k : Fin 24) : (want r s).sweep k = s.sweep k := rfl

/-! ### awaitRecords -/

@[simp] theorem awaitRecords_regs (s : State) (rs : List (Fin 29)) (a : WaitAct) : (awaitRecords rs a s).regs = s.regs := rfl
@[simp] theorem awaitRecords_engine (s : State) (rs : List (Fin 29)) (a : WaitAct) : (awaitRecords rs a s).engine = s.engine := rfl
@[simp] theorem awaitRecords_resetLow (s : State) (rs : List (Fin 29)) (a : WaitAct) : (awaitRecords rs a s).resetLow = s.resetLow := rfl
@[simp] theorem awaitRecords_exch (s : State) (rs : List (Fin 29)) (a : WaitAct) : (awaitRecords rs a s).exch = s.exch := rfl
@[simp] theorem awaitRecords_change (s : State) (rs : List (Fin 29)) (a : WaitAct) : (awaitRecords rs a s).change = s.change := rfl
@[simp] theorem awaitRecords_editions (s : State) (rs : List (Fin 29)) (a : WaitAct) : (awaitRecords rs a s).editions = s.editions := rfl
@[simp] theorem awaitRecords_clock (s : State) (rs : List (Fin 29)) (a : WaitAct) : (awaitRecords rs a s).clock = s.clock := rfl
@[simp] theorem awaitRecords_roster (s : State) (rs : List (Fin 29)) (a : WaitAct) : (awaitRecords rs a s).roster = s.roster := rfl
@[simp] theorem awaitRecords_ports (s : State) (rs : List (Fin 29)) (a : WaitAct) : (awaitRecords rs a s).ports = s.ports := rfl
@[simp] theorem awaitRecords_profiles (s : State) (rs : List (Fin 29)) (a : WaitAct) : (awaitRecords rs a s).profiles = s.profiles := rfl
@[simp] theorem awaitRecords_sched (s : State) (rs : List (Fin 29)) (a : WaitAct) : (awaitRecords rs a s).sched = s.sched := rfl
@[simp] theorem awaitRecords_sweeps (s : State) (rs : List (Fin 29)) (a : WaitAct) : (awaitRecords rs a s).sweeps = s.sweeps := rfl
@[simp] theorem awaitRecords_mem (s : State) (rs : List (Fin 29)) (a : WaitAct) : (awaitRecords rs a s).mem = s.mem := rfl
@[simp] theorem awaitRecords_pending (s : State) (rs : List (Fin 29)) (a : WaitAct) : (awaitRecords rs a s).pending = s.pending := rfl
@[simp] theorem awaitRecords_slot (s : State) (rs : List (Fin 29)) (a : WaitAct) (k : Fin 24) : (awaitRecords rs a s).slot k = s.slot k := rfl
@[simp] theorem awaitRecords_lineRoster (s : State) (rs : List (Fin 29)) (a : WaitAct) (k : Fin 4) : (awaitRecords rs a s).lineRoster k = s.lineRoster k := rfl
@[simp] theorem awaitRecords_port (s : State) (rs : List (Fin 29)) (a : WaitAct) (k : Fin 4) : (awaitRecords rs a s).port k = s.port k := rfl
@[simp] theorem awaitRecords_arbiter (s : State) (rs : List (Fin 29)) (a : WaitAct) (k : Fin 4) : (awaitRecords rs a s).arbiter k = s.arbiter k := rfl
@[simp] theorem awaitRecords_delivery (s : State) (rs : List (Fin 29)) (a : WaitAct) (k : Fin 24) : (awaitRecords rs a s).delivery k = s.delivery k := rfl
@[simp] theorem awaitRecords_marks (s : State) (rs : List (Fin 29)) (a : WaitAct) (k : Fin 24) : (awaitRecords rs a s).marks k = s.marks k := rfl
@[simp] theorem awaitRecords_sweep (s : State) (rs : List (Fin 29)) (a : WaitAct) (k : Fin 24) : (awaitRecords rs a s).sweep k = s.sweep k := rfl

/-! ### setNotice -/

@[simp] theorem setNotice_engine (s : State) (x : Notice) : (setNotice x s).engine = s.engine := rfl
@[simp] theorem setNotice_resetLow (s : State) (x : Notice) : (setNotice x s).resetLow = s.resetLow := rfl
@[simp] theorem setNotice_exch (s : State) (x : Notice) : (setNotice x s).exch = s.exch := rfl
@[simp] theorem setNotice_change (s : State) (x : Notice) : (setNotice x s).change = s.change := rfl
@[simp] theorem setNotice_editions (s : State) (x : Notice) : (setNotice x s).editions = s.editions := rfl
@[simp] theorem setNotice_clock (s : State) (x : Notice) : (setNotice x s).clock = s.clock := rfl
@[simp] theorem setNotice_roster (s : State) (x : Notice) : (setNotice x s).roster = s.roster := rfl
@[simp] theorem setNotice_ports (s : State) (x : Notice) : (setNotice x s).ports = s.ports := rfl
@[simp] theorem setNotice_profiles (s : State) (x : Notice) : (setNotice x s).profiles = s.profiles := rfl
@[simp] theorem setNotice_sched (s : State) (x : Notice) : (setNotice x s).sched = s.sched := rfl
@[simp] theorem setNotice_sweeps (s : State) (x : Notice) : (setNotice x s).sweeps = s.sweeps := rfl
@[simp] theorem setNotice_report (s : State) (x : Notice) : (setNotice x s).report = s.report := rfl
@[simp] theorem setNotice_mem (s : State) (x : Notice) : (setNotice x s).mem = s.mem := rfl
@[simp] theorem setNotice_pending (s : State) (x : Notice) : (setNotice x s).pending = s.pending := rfl
@[simp] theorem setNotice_slot (s : State) (x : Notice) (k : Fin 24) : (setNotice x s).slot k = s.slot k := rfl
@[simp] theorem setNotice_lineRoster (s : State) (x : Notice) (k : Fin 4) : (setNotice x s).lineRoster k = s.lineRoster k := rfl
@[simp] theorem setNotice_port (s : State) (x : Notice) (k : Fin 4) : (setNotice x s).port k = s.port k := rfl
@[simp] theorem setNotice_arbiter (s : State) (x : Notice) (k : Fin 4) : (setNotice x s).arbiter k = s.arbiter k := rfl
@[simp] theorem setNotice_delivery (s : State) (x : Notice) (k : Fin 24) : (setNotice x s).delivery k = s.delivery k := rfl
@[simp] theorem setNotice_marks (s : State) (x : Notice) (k : Fin 24) : (setNotice x s).marks k = s.marks k := rfl
@[simp] theorem setNotice_sweep (s : State) (x : Notice) (k : Fin 24) : (setNotice x s).sweep k = s.sweep k := rfl

/-! ### unlist -/

@[simp] theorem unlist_regs (s : State) (n : Fin 24) : (unlist n s).regs = s.regs := rfl
@[simp] theorem unlist_engine (s : State) (n : Fin 24) : (unlist n s).engine = s.engine := rfl
@[simp] theorem unlist_resetLow (s : State) (n : Fin 24) : (unlist n s).resetLow = s.resetLow := rfl
@[simp] theorem unlist_exch (s : State) (n : Fin 24) : (unlist n s).exch = s.exch := rfl
@[simp] theorem unlist_change (s : State) (n : Fin 24) : (unlist n s).change = s.change := rfl
@[simp] theorem unlist_editions (s : State) (n : Fin 24) : (unlist n s).editions = s.editions := rfl
@[simp] theorem unlist_clock (s : State) (n : Fin 24) : (unlist n s).clock = s.clock := rfl
@[simp] theorem unlist_roster (s : State) (n : Fin 24) : (unlist n s).roster = s.roster := rfl
@[simp] theorem unlist_profiles (s : State) (n : Fin 24) : (unlist n s).profiles = s.profiles := rfl
@[simp] theorem unlist_sched (s : State) (n : Fin 24) : (unlist n s).sched = s.sched := rfl
@[simp] theorem unlist_sweeps (s : State) (n : Fin 24) : (unlist n s).sweeps = s.sweeps := rfl
@[simp] theorem unlist_report (s : State) (n : Fin 24) : (unlist n s).report = s.report := rfl
@[simp] theorem unlist_mem (s : State) (n : Fin 24) : (unlist n s).mem = s.mem := rfl
@[simp] theorem unlist_pending (s : State) (n : Fin 24) : (unlist n s).pending = s.pending := rfl
@[simp] theorem unlist_slot (s : State) (n : Fin 24) (k : Fin 24) : (unlist n s).slot k = s.slot k := rfl
@[simp] theorem unlist_lineRoster (s : State) (n : Fin 24) (k : Fin 4) : (unlist n s).lineRoster k = s.lineRoster k := rfl
@[simp] theorem unlist_arbiter (s : State) (n : Fin 24) (k : Fin 4) : (unlist n s).arbiter k = s.arbiter k := rfl
@[simp] theorem unlist_delivery (s : State) (n : Fin 24) (k : Fin 24) : (unlist n s).delivery k = s.delivery k := rfl
@[simp] theorem unlist_marks (s : State) (n : Fin 24) (k : Fin 24) : (unlist n s).marks k = s.marks k := rfl
@[simp] theorem unlist_sweep (s : State) (n : Fin 24) (k : Fin 24) : (unlist n s).sweep k = s.sweep k := rfl

/-! ### writeSlotBytes -/

@[simp] theorem writeSlotBytes_regs (s : State) (t : Strip) (o : Nat) (bs : List Byte) : (writeSlotBytes t o bs s).regs = s.regs := rfl
@[simp] theorem writeSlotBytes_engine (s : State) (t : Strip) (o : Nat) (bs : List Byte) : (writeSlotBytes t o bs s).engine = s.engine := rfl
@[simp] theorem writeSlotBytes_resetLow (s : State) (t : Strip) (o : Nat) (bs : List Byte) : (writeSlotBytes t o bs s).resetLow = s.resetLow := rfl
@[simp] theorem writeSlotBytes_exch (s : State) (t : Strip) (o : Nat) (bs : List Byte) : (writeSlotBytes t o bs s).exch = s.exch := rfl
@[simp] theorem writeSlotBytes_change (s : State) (t : Strip) (o : Nat) (bs : List Byte) : (writeSlotBytes t o bs s).change = s.change := rfl
@[simp] theorem writeSlotBytes_editions (s : State) (t : Strip) (o : Nat) (bs : List Byte) : (writeSlotBytes t o bs s).editions = s.editions := rfl
@[simp] theorem writeSlotBytes_clock (s : State) (t : Strip) (o : Nat) (bs : List Byte) : (writeSlotBytes t o bs s).clock = s.clock := rfl
@[simp] theorem writeSlotBytes_roster (s : State) (t : Strip) (o : Nat) (bs : List Byte) : (writeSlotBytes t o bs s).roster = s.roster := rfl
@[simp] theorem writeSlotBytes_ports (s : State) (t : Strip) (o : Nat) (bs : List Byte) : (writeSlotBytes t o bs s).ports = s.ports := rfl
@[simp] theorem writeSlotBytes_profiles (s : State) (t : Strip) (o : Nat) (bs : List Byte) : (writeSlotBytes t o bs s).profiles = s.profiles := rfl
@[simp] theorem writeSlotBytes_sched (s : State) (t : Strip) (o : Nat) (bs : List Byte) : (writeSlotBytes t o bs s).sched = s.sched := rfl
@[simp] theorem writeSlotBytes_sweeps (s : State) (t : Strip) (o : Nat) (bs : List Byte) : (writeSlotBytes t o bs s).sweeps = s.sweeps := rfl
@[simp] theorem writeSlotBytes_report (s : State) (t : Strip) (o : Nat) (bs : List Byte) : (writeSlotBytes t o bs s).report = s.report := rfl
@[simp] theorem writeSlotBytes_pending (s : State) (t : Strip) (o : Nat) (bs : List Byte) : (writeSlotBytes t o bs s).pending = s.pending := rfl
@[simp] theorem writeSlotBytes_slot (s : State) (t : Strip) (o : Nat) (bs : List Byte) (k : Fin 24) : (writeSlotBytes t o bs s).slot k = s.slot k := rfl
@[simp] theorem writeSlotBytes_lineRoster (s : State) (t : Strip) (o : Nat) (bs : List Byte) (k : Fin 4) : (writeSlotBytes t o bs s).lineRoster k = s.lineRoster k := rfl
@[simp] theorem writeSlotBytes_port (s : State) (t : Strip) (o : Nat) (bs : List Byte) (k : Fin 4) : (writeSlotBytes t o bs s).port k = s.port k := rfl
@[simp] theorem writeSlotBytes_arbiter (s : State) (t : Strip) (o : Nat) (bs : List Byte) (k : Fin 4) : (writeSlotBytes t o bs s).arbiter k = s.arbiter k := rfl
@[simp] theorem writeSlotBytes_delivery (s : State) (t : Strip) (o : Nat) (bs : List Byte) (k : Fin 24) : (writeSlotBytes t o bs s).delivery k = s.delivery k := rfl
@[simp] theorem writeSlotBytes_marks (s : State) (t : Strip) (o : Nat) (bs : List Byte) (k : Fin 24) : (writeSlotBytes t o bs s).marks k = s.marks k := rfl
@[simp] theorem writeSlotBytes_sweep (s : State) (t : Strip) (o : Nat) (bs : List Byte) (k : Fin 24) : (writeSlotBytes t o bs s).sweep k = s.sweep k := rfl

/-! ### setStrip -/

@[simp] theorem State.setStrip_regs (s : State) (t : Strip) (v : StripState) : (s.setStrip t v).regs = s.regs := by cases t <;> rfl
@[simp] theorem State.setStrip_engine (s : State) (t : Strip) (v : StripState) : (s.setStrip t v).engine = s.engine := by cases t <;> rfl
@[simp] theorem State.setStrip_resetLow (s : State) (t : Strip) (v : StripState) : (s.setStrip t v).resetLow = s.resetLow := by cases t <;> rfl
@[simp] theorem State.setStrip_change (s : State) (t : Strip) (v : StripState) : (s.setStrip t v).change = s.change := by cases t <;> rfl
@[simp] theorem State.setStrip_editions (s : State) (t : Strip) (v : StripState) : (s.setStrip t v).editions = s.editions := by cases t <;> rfl
@[simp] theorem State.setStrip_clock (s : State) (t : Strip) (v : StripState) : (s.setStrip t v).clock = s.clock := by cases t <;> rfl
@[simp] theorem State.setStrip_roster (s : State) (t : Strip) (v : StripState) : (s.setStrip t v).roster = s.roster := by cases t <;> rfl
@[simp] theorem State.setStrip_ports (s : State) (t : Strip) (v : StripState) : (s.setStrip t v).ports = s.ports := by cases t <;> rfl
@[simp] theorem State.setStrip_profiles (s : State) (t : Strip) (v : StripState) : (s.setStrip t v).profiles = s.profiles := by cases t <;> rfl
@[simp] theorem State.setStrip_sched (s : State) (t : Strip) (v : StripState) : (s.setStrip t v).sched = s.sched := by cases t <;> rfl
@[simp] theorem State.setStrip_sweeps (s : State) (t : Strip) (v : StripState) : (s.setStrip t v).sweeps = s.sweeps := by cases t <;> rfl
@[simp] theorem State.setStrip_report (s : State) (t : Strip) (v : StripState) : (s.setStrip t v).report = s.report := by cases t <;> rfl
@[simp] theorem State.setStrip_mem (s : State) (t : Strip) (v : StripState) : (s.setStrip t v).mem = s.mem := by cases t <;> rfl
@[simp] theorem State.setStrip_pending (s : State) (t : Strip) (v : StripState) : (s.setStrip t v).pending = s.pending := by cases t <;> rfl
@[simp] theorem State.setStrip_slot (s : State) (t : Strip) (v : StripState) (k : Fin 24) : (s.setStrip t v).slot k = s.slot k := by cases t <;> rfl
@[simp] theorem State.setStrip_lineRoster (s : State) (t : Strip) (v : StripState) (k : Fin 4) : (s.setStrip t v).lineRoster k = s.lineRoster k := by cases t <;> rfl
@[simp] theorem State.setStrip_port (s : State) (t : Strip) (v : StripState) (k : Fin 4) : (s.setStrip t v).port k = s.port k := by cases t <;> rfl
@[simp] theorem State.setStrip_arbiter (s : State) (t : Strip) (v : StripState) (k : Fin 4) : (s.setStrip t v).arbiter k = s.arbiter k := by cases t <;> rfl
@[simp] theorem State.setStrip_delivery (s : State) (t : Strip) (v : StripState) (k : Fin 24) : (s.setStrip t v).delivery k = s.delivery k := by cases t <;> rfl
@[simp] theorem State.setStrip_marks (s : State) (t : Strip) (v : StripState) (k : Fin 24) : (s.setStrip t v).marks k = s.marks k := by cases t <;> rfl
@[simp] theorem State.setStrip_sweep (s : State) (t : Strip) (v : StripState) (k : Fin 24) : (s.setStrip t v).sweep k = s.sweep k := by cases t <;> rfl

/-! ### Each accessor after its own update -/

@[simp] theorem State.setSlot_slot (s : State) (n k : Fin 24) (v : Slot) :
    (s.setSlot n v).slot k = if n = k then v else s.slot k := by
  simp [State.setSlot, State.slot, Vector.getElem_set, Fin.ext_iff]

@[simp] theorem State.modSlot_slot (s : State) (n k : Fin 24) (f : Slot → Slot) :
    (s.modSlot n f).slot k = if n = k then f (s.slot n) else s.slot k := by
  simp [State.modSlot]

@[simp] theorem State.modLineRoster_lineRoster (s : State) (l k : Fin 4) (f : LineRoster → LineRoster) :
    (s.modLineRoster l f).lineRoster k = if l = k then f (s.lineRoster l) else s.lineRoster k := by
  simp [State.modLineRoster, State.lineRoster, Vector.getElem_set, Fin.ext_iff]

@[simp] theorem State.modPort_port (s : State) (l k : Fin 4) (f : Port → Port) :
    (s.modPort l f).port k = if l = k then f (s.port l) else s.port k := by
  simp [State.modPort, State.port, Vector.getElem_set, Fin.ext_iff]

@[simp] theorem unlist_port (s : State) (n : Fin 24) (k : Fin 4) :
    (unlist n s).port k = { s.port k with exchange := (s.port k).exchange.map fun ex =>
      { ex with members := ex.members.filter fun m => decide (m ≠ n) } } := by
  simp [unlist, State.port]

@[simp] theorem State.modArbiter_arbiter (s : State) (l k : Fin 4) (f : Arbiter → Arbiter) :
    (s.modArbiter l f).arbiter k = if l = k then f (s.arbiter l) else s.arbiter k := by
  simp [State.modArbiter, State.arbiter, Vector.getElem_set, Fin.ext_iff]

@[simp] theorem State.setDelivery_delivery (s : State) (n k : Fin 24) (d : Option Delivery) :
    (s.setDelivery n d).delivery k = if n = k then d else s.delivery k := by
  simp [State.setDelivery, State.delivery, Vector.getElem_set, Fin.ext_iff]

@[simp] theorem State.modDelivery_delivery (s : State) (n k : Fin 24) (f : Delivery → Delivery) :
    (s.modDelivery n f).delivery k = if n = k then (s.delivery n).map f else s.delivery k := by
  simp [State.modDelivery]

@[simp] theorem State.modMarks_marks (s : State) (n k : Fin 24) (f : Marks → Marks) :
    (s.modMarks n f).marks k = if n = k then f (s.marks n) else s.marks k := by
  simp [State.modMarks, State.marks, Vector.getElem_set, Fin.ext_iff]

@[simp] theorem State.setSweep_sweep (s : State) (n k : Fin 24) (v : Sweep) :
    (s.setSweep n v).sweep k = if n = k then v else s.sweep k := by
  simp [State.setSweep, State.sweep, Vector.getElem_set, Fin.ext_iff]

@[simp] theorem State.setGroups_groups (s : State) (gs : List Group) : (s.setGroups gs).sched.groups = gs := rfl

@[simp] theorem State.setStrip_strip (s : State) (t u : Strip) (v : StripState) :
    (s.setStrip t v).strip u = if t = u then v else s.strip u := by
  cases t <;> cases u <;> rfl

@[simp] theorem State.setStrip_descriptor (s : State) (t : Strip) (v : StripState) :
    (s.setStrip t v).exch.descriptor = s.exch.descriptor := by cases t <;> rfl

@[simp] theorem State.setStrip_scanTimer (s : State) (t : Strip) (v : StripState) :
    (s.setStrip t v).exch.scanTimer = s.exch.scanTimer := by cases t <;> rfl

@[simp] theorem want_wanted (s : State) (r q : Fin 29) :
    (want r s).report.wanted[q] = (decide (r = q) || s.report.wanted[q]) := by
  by_cases h : r = q
  · subst h; simp [want]
  · have : r.val ≠ q.val := fun e => h (Fin.ext e)
    simp [want, Vector.getElem_set, this, h]

@[simp] theorem want_counts (s : State) (r : Fin 29) : (want r s).report.counts = s.report.counts := rfl
@[simp] theorem want_waiting (s : State) (r : Fin 29) : (want r s).report.waiting = s.report.waiting := rfl
@[simp] theorem awaitRecords_wanted (s : State) (rs : List (Fin 29)) (a : WaitAct) :
    (awaitRecords rs a s).report.wanted = s.report.wanted := rfl
@[simp] theorem awaitRecords_counts (s : State) (rs : List (Fin 29)) (a : WaitAct) :
    (awaitRecords rs a s).report.counts = s.report.counts := rfl
@[simp] theorem awaitRecords_waiting (s : State) (rs : List (Fin 29)) (a : WaitAct) :
    (awaitRecords rs a s).report.waiting = s.report.waiting ++ [⟨rs, a⟩] := rfl

end Sys2Proof.Machine
end

