-- ==== Sys2Proof/Laws/Frames.lean ====
section
/-! SUPPORT. What the shared operations leave alone: folds over slots and lines, the ends of deliveries, the exchange
boundary, and the records a step makes due. -/

namespace Sys2Proof.Machine

/-! ## Folds -/

/-- What every step of a fold leaves alone, the fold leaves alone. -/
theorem foldl_keeps {α β γ : Type} (g : α → γ) (f : α → β → α) (h : ∀ a b, g (f a b) = g a) :
    ∀ (xs : List β) (a : α), g (xs.foldl f a) = g a
  | [], _ => rfl
  | x :: xs, a => by rw [List.foldl_cons, foldl_keeps g f h xs, h]

theorem forSlots_keeps {γ : Type} (g : State → γ) (f : Fin 24 → State → State)
    (h : ∀ n s, g (f n s) = g s) (ns : List (Fin 24)) (s : State) : g (forSlots f ns s) = g s :=
  foldl_keeps g _ (fun s n => h n s) ns s

theorem forLines_keeps {γ : Type} (g : State → γ) (f : Fin 4 → State → State)
    (h : ∀ l s, g (f l s) = g s) (ls : List (Fin 4)) (s : State) : g (forLines f ls s) = g s :=
  foldl_keeps g _ (fun s l => h l s) ls s

/-! ## The bare state -/

theorem bare_sched (s : State) (x : Sched) : ({ s with sched := x } : State).bare = s.bare := rfl

theorem bare_sweeps (s : State) (x : Vector Sweep 24) : ({ s with sweeps := x } : State).bare = s.bare := rfl

theorem bare_ports (s : State) (f : Port → Port) (h : ∀ p, (f p).core = p.core) :
    ({ s with ports := s.ports.map f } : State).bare = s.bare := by
  have : (s.ports.map f).map Port.core = s.ports.map Port.core := by
    rw [Vector.map_map]; congr 1; funext p; exact h p
  simp only [State.bare, this]

theorem bare_modPort (s : State) (l : Fin 4) (f : Port → Port) (h : (f (s.port l)).core = (s.port l).core) :
    (s.modPort l f).bare = s.bare := by
  have : (s.ports.set l (f (s.port l))).map Port.core = s.ports.map Port.core := by
    apply Vector.ext
    intro i hi
    simp only [Vector.getElem_map, Vector.getElem_set]
    split
    · next e => subst e; exact h
    · rfl
  simp only [State.bare, State.modPort, this]

@[simp] theorem setDelivery_bare (s : State) (n : Fin 24) (d : Option Delivery) : (s.setDelivery n d).bare = s.bare := rfl
@[simp] theorem modDelivery_bare (s : State) (n : Fin 24) (f : Delivery → Delivery) :
    (s.modDelivery n f).bare = s.bare := rfl
@[simp] theorem modMarks_bare (s : State) (n : Fin 24) (f : Marks → Marks) : (s.modMarks n f).bare = s.bare := rfl
@[simp] theorem modArbiter_bare (s : State) (l : Fin 4) (f : Arbiter → Arbiter) : (s.modArbiter l f).bare = s.bare := rfl
@[simp] theorem setGroups_bare (s : State) (gs : List Group) : (s.setGroups gs).bare = s.bare := rfl
@[simp] theorem setSweep_bare (s : State) (n : Fin 24) (v : Sweep) : (s.setSweep n v).bare = s.bare := rfl
@[simp] theorem endTurns_bare (s : State) (t : Target) : (endTurns t s).bare = s.bare := rfl
@[simp] theorem cutShort_bare (s : State) (n : Fin 24) : (cutShort n s).bare = s.bare := rfl
@[simp] theorem handOver_bare (s : State) (l : Fin 4) (w : Work) : (handOver l w s).bare = s.bare :=
  bare_modPort s l _ rfl

@[simp] theorem tendGroups_bare (s : State) : (tendGroups s).bare = s.bare := by
  simp only [tendGroups, setGroups_bare]
  exact foldl_keeps State.bare _ (fun s g => endTurns_bare s _) _ _

@[simp] theorem leaveGroup_bare (s : State) (n : Fin 24) : (leaveGroup n s).bare = s.bare := by
  simp [leaveGroup]

@[simp] theorem memberOpened_bare (s : State) (n : Fin 24) : (memberOpened n s).bare = s.bare := by
  simp [memberOpened]

@[simp] theorem unlist_bare (s : State) (n : Fin 24) : (unlist n s).bare = s.bare :=
  bare_ports s _ fun _ => rfl

@[simp] theorem dropDelivery_bare (s : State) (n : Fin 24) : (dropDelivery n s).bare = s.bare := by
  unfold dropDelivery; split <;> simp

@[simp] theorem endDelivery_bare (s : State) (n : Fin 24) : (endDelivery n s).bare = s.bare := by
  unfold endDelivery
  split
  · split <;> simp
  · rfl

@[simp] theorem withdraw_bare (s : State) (n : Fin 24) (p : Work → Bool) (d : Bool) :
    (withdraw n p d s).bare = s.bare := by
  unfold withdraw
  apply bare_ports
  intro q
  split
  · split
    · split <;> rfl
    · rfl
  · rfl

@[simp] theorem abandon_bare (s : State) (n : Fin 24) : (abandon n s).bare = s.bare := by simp [abandon]

@[simp] theorem abandonWhere_bare (s : State) (p : Delivery → Bool) : (abandonWhere p s).bare = s.bare := by
  unfold abandonWhere
  refine forSlots_keeps State.bare _ (fun n s => ?_) _ _
  split
  · split <;> simp
  · rfl

@[simp] theorem endGroups_bare (s : State) (c : Cls) : (endGroups c s).bare = s.bare := by
  simp only [endGroups, setGroups_bare]
  exact foldl_keeps State.bare _ (fun s g => endTurns_bare s _) _ _

@[simp] theorem dropSweep_bare (s : State) (n : Fin 24) : (dropSweep n s).bare = s.bare := rfl

@[simp] theorem insertUrgent_bare (s : State) (ps : List Nat) : (insertUrgent ps s).bare = s.bare := rfl

@[simp] theorem clearWay_bare (s : State) (c : Cls) (w : Work) : (clearWay c w s).bare = s.bare := by
  unfold clearWay
  split
  · simp
  · split <;> simp
  · rfl

@[simp] theorem newTurn_bare (s : State) (l : Fin 4) (c : Cls) (p : Option Nat) (ch : Choice) :
    (newTurn l c p ch s).bare = s.bare := by
  have lg := forSlots_keeps State.bare leaveGroup (fun n s => leaveGroup_bare s n)
  unfold newTurn
  simp only
  split
  · simp [lg]
  · split <;> simp

@[simp] theorem arbitrate_bare (s : State) (l : Fin 4) : (arbitrate l s).bare = s.bare := by
  unfold arbitrate
  split
  · split
    · simp
    · split
      · split
        · split <;> simp
        · simp
      · simp
  · rfl

@[simp] theorem boundaries_bare (s : State) : (boundaries s).bare = s.bare :=
  forLines_keeps State.bare _ (fun l s => arbitrate_bare s l) _ _

/-! ## What a boundary keeps of the rewrites due -/

theorem tendGroups_report (s : State) : (tendGroups s).report = s.report := by
  simp only [tendGroups, State.setGroups_report]
  exact foldl_keeps State.report (fun s (g : Group) => endTurns (.group g.id) s) (fun s g => rfl) _ _

theorem leaveGroup_report (s : State) (n : Fin 24) : (leaveGroup n s).report = s.report := by
  simp [leaveGroup, tendGroups_report]

theorem abandon_report (s : State) (n : Fin 24) : (abandon n s).report = s.report := by
  have dd : ∀ s : State, (dropDelivery n s).report = s.report := fun s => by
    unfold dropDelivery; split
    · simp [leaveGroup_report, endTurns, unlist]
    · rfl
  simp only [abandon, leaveGroup_report]
  unfold endDelivery
  split
  · split
    · simp [cutShort, dd, withdraw]
    · simp [dd, withdraw]
  · rfl

theorem newTurn_report (s : State) (l : Fin 4) (c : Cls) (p : Option Nat) (ch : Choice) :
    (newTurn l c p ch s).report = s.report := by
  have cw : (clearWay c ch.work s).report = s.report := by
    unfold clearWay
    split
    · exact abandon_report s _
    · split
      · rfl
      · exact leaveGroup_report s _
    · rfl
  have lg := forSlots_keeps State.report leaveGroup (fun n s => leaveGroup_report s n)
  unfold newTurn
  simp only
  split
  · simp [handOver, cw, lg]
  · split <;> simp [handOver, cw]

theorem arbitrate_report (s : State) (l : Fin 4) : (arbitrate l s).report = s.report := by
  unfold arbitrate
  split
  · split
    · simp
    · split
      · split
        · split
          · simp [handOver]
          · exact newTurn_report ..
        · exact newTurn_report ..
      · exact newTurn_report ..
  · rfl

theorem boundaries_report (s : State) : (boundaries s).report = s.report :=
  forLines_keeps State.report _ (fun l s => arbitrate_report s l) _ _

/-! ## A part with no port ready -/

theorem arbitrate_not_ready {s : State} {l : Fin 4} (h : s.portReady l = false) : arbitrate l s = s := by
  simp [arbitrate, h]

/-- With no port ready for an exchange, a boundary changes nothing. -/
theorem boundaries_not_ready {s : State} (h : ∀ l, s.portReady l = false) : boundaries s = s := by
  unfold boundaries forLines
  have : ∀ ls : List (Fin 4), ls.foldl (fun s l => arbitrate l s) s = s := by
    intro ls
    induction ls with
    | nil => rfl
    | cons l ls ih => rw [List.foldl_cons, arbitrate_not_ready (h l), ih]
  exact this _

/-- Outside RUNNING a boundary changes nothing. -/
theorem boundaries_not_running {s : State} (h : s.engine ≠ .running) : boundaries s = s :=
  boundaries_not_ready fun l => by simp [State.portReady, State.running, h]

/-! ## The records a step makes due -/

theorem settle_port_core (old new : State) (l : Fin 4) : ((settle old new).port l).core = (new.port l).core := by
  simp only [settle, State.port, Fin.getElem_fin, Vector.getElem_ofFn]
  split <;> rfl

theorem bare_eq {s t : State} (hp : ∀ l, (t.port l).core = (s.port l).core)
    (h : ({ t with ports := s.ports, sched := s.sched, sweeps := s.sweeps,
                   report := { t.report with wanted := s.report.wanted } } : State) = s) : t.bare = s.bare := by
  have hv : t.ports.map Port.core = s.ports.map Port.core := by
    apply Vector.ext
    intro i hi
    simp only [Vector.getElem_map]
    exact hp ⟨i, hi⟩
  have := congrArg State.bare h
  simp only [State.bare] at this ⊢
  rw [hv]
  exact this

theorem settle_bare (old new : State) : (settle old new).bare = new.bare :=
  bare_eq (settle_port_core old new) (by unfold settle; rfl)

theorem settle_sched (old new : State) : (settle old new).sched = new.sched := rfl
theorem settle_sweeps (old new : State) : (settle old new).sweeps = new.sweeps := rfl

theorem settle_exchange (old new : State) (l : Fin 4) :
    ((settle old new).port l).exchange = (new.port l).exchange := by
  simp only [settle, State.port, Fin.getElem_fin, Vector.getElem_ofFn]
  split <;> rfl

theorem settle_wanted (old new : State) (r : Fin 29) (h : new.report.wanted[r] = true) :
    (settle old new).report.wanted[r] = true := by
  simp only [settle, Fin.getElem_fin, Vector.getElem_ofFn, Bool.or_eq_true]
  exact Or.inl h

/-- A step that changes nothing makes nothing due. -/
theorem settle_self (s : State) : settle s s = s := by
  have hw : (Vector.ofFn fun r : Fin 29 =>
        s.report.wanted[r] ||
        (if r.val = 0 then countsChanged s s
         else if h : r.val < 5 then decide (s.lineNow ⟨r.val - 1, by omega⟩ ≠ s.lineNow ⟨r.val - 1, by omega⟩)
         else rosterChanged s s ⟨r.val - 5, by omega⟩)) = s.report.wanted := by
    apply Vector.ext
    intro i hi
    simp [countsChanged, rosterChanged]
  have hp : (Vector.ofFn fun l : Fin 4 =>
      let p := s.ports[l]
      if p.recordTimer = none ∧ s.lineLater l ≠ s.lineLater l ∧ s.lineNow l = s.lineNow l then
        { p with recordTimer := some (250 * Config.ms) }
      else p) = s.ports := by
    apply Vector.ext
    intro i hi
    simp
  unfold settle
  rw [hw, hp]

/-! ## The two frames -/

theorem bare_kept {u t : State} (h : t.bare = u.bare)
    (hw : ∀ r : Fin 29, u.report.wanted[r] = true → t.report.wanted[r] = true)
    (hq : (∀ l, u.portReady l = false) →
      t.sched = u.sched ∧ t.sweeps = u.sweeps ∧ ∀ l, (t.port l).exchange = (u.port l).exchange) : Settled u t :=
  have e : ∀ {γ : Type} (g : State → γ), g t.bare = g u.bare := fun g => congrArg g h
  {
  run := e (fun s => s.regs.run)
  xbase := e (fun s => s.regs.xbase)
  evmask := e (fun s => s.regs.evmask)
  engine := e State.engine
  resetLow := e State.resetLow
  descriptor := e (fun s => s.exch.descriptor)
  scanTimer := e (fun s => s.exch.scanTimer)
  change := e State.change
  editions := e State.editions
  clock := e State.clock
  roster := e State.roster
  profiles := e State.profiles
  pending := e State.pending
  counts := e (fun s => s.report.counts)
  waiting := e (fun s => s.report.waiting)
  wanted := hw
  ports := fun l => by
    have := e (fun s => s.ports[l])
    simpa [State.bare, State.port] using this
  quiet := hq
  events := e (fun s => s.regs.events)
  mem := e State.mem
  priority := e (fun s => s.exch.priority)
  routine := e (fun s => s.exch.routine) }

/-- What a boundary and the records due leave of a state. -/
theorem settled_boundaries (s u : State) : Settled u (settle s (boundaries u)) := by
  refine bare_kept ?_ ?_ ?_
  · rw [settle_bare, boundaries_bare]
  · intro r h
    exact settle_wanted _ _ _ (by rw [boundaries_report]; exact h)
  · intro h
    rw [boundaries_not_ready h]
    exact ⟨rfl, rfl, fun l => settle_exchange _ _ _⟩

/-- What the records due leave of a state. -/
theorem settled_settle (s u : State) : Settled u (settle s u) :=
  bare_kept (settle_bare _ _) (fun _ h => settle_wanted _ _ _ h)
    (fun _ => ⟨rfl, rfl, fun _ => settle_exchange _ _ _⟩)

theorem Settled.refl (u : State) : Settled u u := bare_kept rfl (fun _ h => h) (fun _ => ⟨rfl, rfl, fun _ => rfl⟩)

/-- A step of a part whose reset pin is high. -/
theorem recorded_next {s : State} {f : State → State} (h : s.resetLow = false) :
    recorded s f = .next (settle s (f s)) := by simp [recorded, h]

theorem scheduled_next {s : State} {f : State → State} (h : s.resetLow = false) :
    scheduled s f = .next (settle s (boundaries (f s))) := by simp [scheduled, recorded, h]

/-- A scheduled step ends in its effect, settled. -/
theorem scheduled_settled {s : State} {f : State → State} (h : s.resetLow = false) :
    ∃ t, scheduled s f = .next t ∧ Settled (f s) t := ⟨_, scheduled_next h, settled_boundaries _ _⟩

theorem recorded_settled {s : State} {f : State → State} (h : s.resetLow = false) :
    ∃ t, recorded s f = .next t ∧ Settled (f s) t := ⟨_, recorded_next h, settled_settle _ _⟩

/-- A scheduled step without an effect, outside RUNNING, leaves the state as it is. -/
theorem scheduled_nothing {s : State} {f : State → State} (h : s.engine ≠ .running) (hf : f s = s) :
    scheduled s f = .next s := by
  by_cases hr : s.resetLow
  · simp [scheduled, recorded, hr]
  · simp only [Bool.not_eq_true] at hr
    rw [scheduled_next hr, hf, boundaries_not_running h, settle_self]

end Sys2Proof.Machine
end

