-- ==== Sys2Proof/Laws/Memory.lean ====
section
/-! SUPPORT. Shared memory: every operation keeps the canonical form, a read after a write, and reads elsewhere. -/

namespace Sys2Proof.Machine

/-! ## Reading what was written -/

theorem Memory.wfFrom_weaken {lo hi : Nat} (h : lo ≤ hi) :
    ∀ {m : List Host.Cell}, Memory.wfFrom hi m = true → Memory.wfFrom lo m = true
  | [], _ => rfl
  | (a, b) :: m, w => by
    simp only [Memory.wfFrom, Bool.and_eq_true, decide_eq_true_eq] at w ⊢
    exact ⟨⟨by omega, w.1.2⟩, w.2⟩

theorem Memory.read_below {lo a : Nat} (h : a < lo) :
    ∀ {m : List Host.Cell}, Memory.wfFrom lo m = true → Memory.read m a = Memory.unlisted
  | [], _ => rfl
  | (k, b) :: m, w => by
    simp only [Memory.wfFrom, Bool.and_eq_true, decide_eq_true_eq] at w
    simp only [Memory.read]
    rw [if_neg (by omega)]
    exact Memory.read_below (lo := k + 1) (by omega) w.2

/-- A byte written elsewhere is not seen, in any list of cells. -/
theorem Memory.read_write_ne {a c : Nat} (b : Byte) (h : c ≠ a) :
    ∀ m : List Host.Cell, Memory.read (Memory.write m a b) c = Memory.read m c
  | [] => by
    simp only [Memory.write]
    split
    · rfl
    · simp [Memory.read, Ne.symm h]
  | (k, d) :: m => by
    simp only [Memory.write]
    split
    · split
      · rfl
      · simp [Memory.read, Ne.symm h]
    · split
      · next h1 =>
        subst h1
        split <;> simp [Memory.read, Ne.symm h]
      · simp only [Memory.read]
        rw [Memory.read_write_ne b h m]

/-- A byte written is read back, in a memory in its canonical form. -/
theorem Memory.read_write_from {a : Nat} (b : Byte) :
    ∀ {lo : Nat} {m : List Host.Cell}, Memory.wfFrom lo m = true →
      Memory.read (Memory.write m a b) a = b
  | _, [], _ => by
    simp only [Memory.write]
    split
    · next h => simp [Memory.read, h]
    · simp [Memory.read]
  | _, (k, d) :: m, w => by
    simp only [Memory.wfFrom, Bool.and_eq_true, decide_eq_true_eq] at w
    simp only [Memory.write]
    split
    · next h1 =>
      split
      · next h2 =>
        have : Memory.read m a = Memory.unlisted := Memory.read_below (lo := k + 1) (by omega) w.2
        simp [Memory.read, this, h2, Nat.ne_of_gt h1]
      · simp [Memory.read]
    · split
      · next h1 =>
        subst h1
        split
        · next h2 => rw [h2]; exact Memory.read_below (lo := a + 1) (by omega) w.2
        · simp [Memory.read]
      · next h1 =>
        simp only [Memory.read]
        rw [if_neg (fun h => h1 h.symm)]
        exact Memory.read_write_from b w.2

theorem Memory.read_write_self {m : List Host.Cell} (w : Memory.wf m = true) (a : Nat) (b : Byte) :
    Memory.read (Memory.write m a b) a = b := Memory.read_write_from b w

/-! ## The canonical form is kept -/

theorem Memory.write_wfFrom (a : Nat) (b : Byte) :
    ∀ {lo : Nat} {m : List Host.Cell}, lo ≤ a → Memory.wfFrom lo m = true →
      Memory.wfFrom lo (Memory.write m a b) = true
  | lo, [], h, _ => by
    simp only [Memory.write]
    split
    · rfl
    · next hb => simp [Memory.wfFrom, h, hb]
  | lo, (k, d) :: m, h, w => by
    have w0 := w
    simp only [Memory.wfFrom, Bool.and_eq_true, decide_eq_true_eq] at w
    simp only [Memory.write]
    split
    · split
      · exact w0
      · next h1 hb =>
        simp only [Memory.wfFrom, Bool.and_eq_true, decide_eq_true_eq]
        exact ⟨⟨h, hb⟩, ⟨by omega, w.1.2⟩, w.2⟩
    · split
      · next h1 =>
        subst h1
        split
        · exact Memory.wfFrom_weaken (by omega) w.2
        · next hb =>
          simp only [Memory.wfFrom, Bool.and_eq_true, decide_eq_true_eq]
          exact ⟨⟨h, hb⟩, w.2⟩
      · simp only [Memory.wfFrom, Bool.and_eq_true, decide_eq_true_eq]
        exact ⟨w.1, Memory.write_wfFrom a b (by omega) w.2⟩

/-- Storing a byte keeps the canonical form. -/
theorem Memory.write_wf {m : List Host.Cell} (w : Memory.wf m = true) (a : Nat) (b : Byte) :
    Memory.wf (Memory.write m a b) = true := Memory.write_wfFrom a b (Nat.zero_le a) w

/-- Storing bytes keeps the canonical form. -/
theorem Memory.writeBytes_wf : ∀ {m : List Host.Cell} (a : Nat) (bs : List Byte), Memory.wf m = true →
    Memory.wf (Memory.writeBytes m a bs) = true
  | _, _, [], w => w
  | _, a, b :: bs, w => Memory.writeBytes_wf (a + 1) bs (Memory.write_wf w a b)

/-- The host's stores keep the canonical form. -/
theorem Memory.storeAll_wf : ∀ {m : List Host.Cell} (xs : List (Word × Byte)), Memory.wf m = true →
    Memory.wf (Memory.storeAll m xs) = true
  | _, [], w => w
  | _, (a, b) :: xs, w => Memory.storeAll_wf xs (Memory.write_wf w a.toNat b)

/-! ## Ranges -/

/-- Bytes stored from `a` on are not seen outside their range. -/
theorem Memory.read_writeBytes_outside {c : Nat} :
    ∀ (m : List Host.Cell) (a : Nat) (bs : List Byte), (c < a ∨ a + bs.length ≤ c) →
      Memory.read (Memory.writeBytes m a bs) c = Memory.read m c
  | _, _, [], _ => rfl
  | m, a, b :: bs, h => by
    simp only [List.length_cons] at h
    simp only [Memory.writeBytes]
    rw [Memory.read_writeBytes_outside _ (a + 1) bs (by omega), Memory.read_write_ne b (by omega)]

/-- Byte `i` of what was stored from `a` on reads back. -/
theorem Memory.read_writeBytes_inside :
    ∀ {m : List Host.Cell} (a : Nat) (bs : List Byte) (i : Nat), Memory.wf m = true → i < bs.length →
      Memory.read (Memory.writeBytes m a bs) (a + i) = bs[i]?.getD 0
  | _, _, [], i, _, h => absurd h (Nat.not_lt_zero i)
  | m, a, b :: bs, 0, w, _ => by
    simp only [Memory.writeBytes, Nat.add_zero]
    rw [Memory.read_writeBytes_outside _ (a + 1) bs (by omega), Memory.read_write_self w]
    rfl
  | m, a, b :: bs, i + 1, w, h => by
    simp only [Memory.writeBytes, List.length_cons] at h ⊢
    have e : a + (i + 1) = a + 1 + i := by omega
    rw [e, Memory.read_writeBytes_inside (a + 1) bs i (Memory.write_wf w a b) (by omega)]
    simp

theorem Memory.readBytes_length : ∀ (m : List Host.Cell) (a n : Nat), (Memory.readBytes m a n).length = n
  | _, _, 0 => rfl
  | m, a, n + 1 => by simp [Memory.readBytes, Memory.readBytes_length m (a + 1) n]

theorem Memory.readBytes_congr {m m' : List Host.Cell} :
    ∀ (a n : Nat), (∀ c, a ≤ c → c < a + n → Memory.read m' c = Memory.read m c) →
      Memory.readBytes m' a n = Memory.readBytes m a n
  | _, 0, _ => rfl
  | a, n + 1, h => by
    simp only [Memory.readBytes]
    rw [h a (Nat.le_refl a) (by omega),
      Memory.readBytes_congr (a + 1) n (fun c h1 h2 => h c (by omega) (by omega))]

theorem leBytes_length : ∀ n v, (leBytes n v).length = n
  | 0, _ => rfl
  | n + 1, v => by simp [leBytes, leBytes_length n]

/-- The bytes of a number spell it. -/
theorem leNat_leBytes : ∀ (n v : Nat), v < 256 ^ n → leNat (leBytes n v) = v
  | 0, v, h => by simp at h; simp [leBytes, leNat, h]
  | n + 1, v, h => by
    simp only [leBytes, leNat]
    have h1 : v / 256 < 256 ^ n := by
      rw [Nat.div_lt_iff_lt_mul (by decide)]
      rw [Nat.pow_succ] at h
      exact h
    rw [leNat_leBytes n (v / 256) h1]
    simp only [BitVec.toNat_ofNat]
    omega

end Sys2Proof.Machine
end

