-- ==== Sys2Proof/Laws/Strips.lean ====
section
/-! SUPPORT. The request strips: what a visit and a completion can do, said once. -/

namespace Sys2Proof.Machine

/-- The state apart from shared memory, EVENTS and strip `t`. -/
def State.offStrip (t : Strip) (s : State) : State :=
  { (s.setStrip t .cold) with mem := [], regs := { s.regs with events := 0 } }

@[simp] theorem writeSlotBytes_offStrip (t u : Strip) (o : Nat) (bs : List Byte) (s : State) :
    (writeSlotBytes u o bs s).offStrip t = s.offStrip t := by cases t <;> rfl

@[simp] theorem setStrip_offStrip (t : Strip) (v : StripState) (s : State) :
    (s.setStrip t v).offStrip t = s.offStrip t := by cases t <;> rfl

@[simp] theorem setNotice_offStrip (t : Strip) (n : Notice) (s : State) : (setNotice n s).offStrip t = s.offStrip t := by
  cases t <;> rfl

@[simp] theorem raise_offStrip (t : Strip) (n : Notice) (s : State) : (raise n s).offStrip t = s.offStrip t := by
  unfold raise; split <;> simp

@[simp] theorem raise_mem (n : Notice) (s : State) : (raise n s).mem = s.mem := by unfold raise; split <;> rfl

@[simp] theorem writeCompletion_offStrip (t u : Strip) (r : Result) (k : Nat) (s : State) :
    (writeCompletion u r k s).offStrip t = s.offStrip t := by
  simp only [writeCompletion, apply_ite (State.offStrip t), writeSlotBytes_offStrip, ite_self]

@[simp] theorem finish_offStrip (t : Strip) (n : Bool) (r : Result) (s : State) :
    (finish t n r s).offStrip t = s.offStrip t := by
  unfold finish
  simp only
  split <;> simp

@[simp] theorem visitN_offStrip (t : Strip) : ∀ (k : Nat) (s : State), (visitN t k s).offStrip t = s.offStrip t
  | 0, _ => rfl
  | k + 1, s => by
    unfold visitN
    split
    · simp only
      split
      · simp
      · rw [visitN_offStrip t k]; simp
    · rfl

@[simp] theorem visit_offStrip (t : Strip) (s : State) : (visit t s).offStrip t = s.offStrip t := visitN_offStrip t _ s

@[simp] theorem completeRequest_offStrip (t : Strip) (r : Result) (s : State) :
    (completeRequest t r s).offStrip t = s.offStrip t := by
  unfold completeRequest
  split
  · split <;> simp
  · rfl

/-! ### What `offStrip` shows -/

theorem offStrip_eq {t : Strip} {s u : State} (h : s.offStrip t = u.offStrip t) :
    s.bare.offStrip t = u.bare.offStrip t ∧ s.engine = u.engine ∧ s.exch.descriptor = u.exch.descriptor ∧
    s.regs.run = u.regs.run ∧ s.regs.xbase = u.regs.xbase ∧ s.regs.evmask = u.regs.evmask ∧
    s.exch.scanTimer = u.exch.scanTimer ∧ s.strip (otherStrip t) = u.strip (otherStrip t) ∧
    s.ports = u.ports ∧ s.sched = u.sched ∧ s.sweeps = u.sweeps ∧ s.report = u.report ∧ s.change = u.change ∧
    s.editions = u.editions ∧ s.clock = u.clock ∧ s.roster = u.roster ∧ s.profiles = u.profiles ∧
    s.pending = u.pending ∧ s.resetLow = u.resetLow := by
  have e : ∀ {γ : Type} (g : State → γ), g (s.offStrip t) = g (u.offStrip t) := fun g => congrArg g h
  refine ⟨?_, ?_⟩
  · have := e State.bare
    cases t <;> exact this
  · cases t
    · exact ⟨e State.engine, e (fun s => s.exch.descriptor), e (fun s => s.regs.run), e (fun s => s.regs.xbase),
        e (fun s => s.regs.evmask), e (fun s => s.exch.scanTimer), e (fun s => s.exch.routine), e State.ports,
        e State.sched, e State.sweeps, e State.report, e State.change, e State.editions, e State.clock, e State.roster,
        e State.profiles, e State.pending, e State.resetLow⟩
    · exact ⟨e State.engine, e (fun s => s.exch.descriptor), e (fun s => s.regs.run), e (fun s => s.regs.xbase),
        e (fun s => s.regs.evmask), e (fun s => s.exch.scanTimer), e (fun s => s.exch.priority), e State.ports,
        e State.sched, e State.sweeps, e State.report, e State.change, e State.editions, e State.clock, e State.roster,
        e State.profiles, e State.pending, e State.resetLow⟩

/-! ## Memory under a visit -/

theorem outside_ne {s : State} {t : Strip} {a j p : Nat} (h : s.outsideStrip t a = true) (hp : p < s.stripCount t)
    (hj : partByte j = true) : a ≠ s.stripAddr t + 64 * p + j := by
  intro e
  subst e
  have hj' : j = 0 ∨ (4 ≤ j ∧ j ≤ 7) := by simpa [partByte] using hj
  have e1 : (s.stripAddr t + 64 * p + j - s.stripAddr t) % 64 = j := by omega
  simp only [State.outsideStrip, Bool.or_eq_true, decide_eq_true_eq, Bool.not_eq_true', e1, hj] at h
  rcases h with (h | h) | h
  · omega
  · omega
  · exact absurd h (by decide)

/-- The memory of a completed request. -/
theorem finish_mem (t : Strip) (n : Bool) (r : Result) (s : State) :
    (finish t n r s).mem =
      Memory.writeBytes (Memory.writeBytes (Memory.writeBytes (Memory.writeBytes s.mem
        (s.slotAddr t + 4) [r.outcome]) (s.slotAddr t + 5) [if r.clamp then 1 else 0])
        (s.slotAddr t + 6) (leBytes 2 r.detail)) (s.slotAddr t + 0) [3] := by
  have ha : ∀ (o : Nat) (bs : List Byte) (s : State), (writeSlotBytes t o bs s).slotAddr t = s.slotAddr t := by
    intro o bs s; cases t <;> rfl
  unfold finish writeCompletion
  simp only [Nat.lt_add_one, Nat.ofNat_pos, if_true, Nat.one_lt_ofNat, Nat.reduceLT]
  split <;> simp [writeSlotBytes, State.slotAddr, State.stripAddr, State.strip, State.desc]

theorem finish_strip (t : Strip) (n : Bool) (r : Result) (s : State) :
    (finish t n r s).strip t = ⟨((s.strip t).position + 1) % s.stripCount t, .stopped⟩ := by
  have hr : ∀ (s : State), (raise .done s).strip t = s.strip t := by
    intro s; unfold raise; split <;> cases t <;> rfl
  unfold finish writeCompletion
  simp only [Nat.lt_add_one, Nat.ofNat_pos, if_true, Nat.one_lt_ofNat, Nat.reduceLT]
  split <;> simp [hr] <;> cases t <;> rfl

theorem finish_elsewhere {t : Strip} {n : Bool} {r : Result} {s : State} {a : Nat}
    (h0 : a ≠ s.slotAddr t) (h4 : a < s.slotAddr t + 4 ∨ s.slotAddr t + 8 ≤ a) :
    Memory.read (finish t n r s).mem a = Memory.read s.mem a := by
  rw [finish_mem]
  rw [Memory.read_writeBytes_outside _ _ _ (by simp; omega), Memory.read_writeBytes_outside _ _ _ (by simp [leBytes]; omega),
    Memory.read_writeBytes_outside _ _ _ (by simp; omega), Memory.read_writeBytes_outside _ _ _ (by simp; omega)]

theorem outside_finish {t : Strip} {n : Bool} {r : Result} {s : State} {a : Nat}
    (h : s.outsideStrip t a = true) (hp : (s.strip t).position < s.stripCount t) :
    Memory.read (finish t n r s).mem a = Memory.read s.mem a := by
  have e : ∀ j, partByte j = true → a ≠ s.slotAddr t + j := fun j hj => by
    have := outside_ne h hp hj
    simpa [State.slotAddr] using this
  have h0 := e 0 rfl
  have h4 := e 4 rfl
  have h5 := e 5 rfl
  have h6 := e 6 rfl
  have h7 := e 7 rfl
  exact finish_elsewhere (by omega) (by omega)

theorem stripAddr_of_desc {s u : State} (h : s.exch.descriptor = u.exch.descriptor) (t : Strip) :
    s.stripAddr t = u.stripAddr t ∧ s.stripCount t = u.stripCount t := by
  cases t <;> simp [State.stripAddr, State.stripCount, State.desc, h]

/-- What a visit of a strip can do to memory: nothing outside the part's bytes of the strip, and nothing in a slot not
marked POSTED; the position stays below the slot count. -/
theorem visitN_mem (t : Strip) : ∀ (k : Nat) (s : State), (s.strip t).position < s.stripCount t →
    ((visitN t k s).strip t).position < s.stripCount t ∧
    (∀ a, s.outsideStrip t a = true → Memory.read (visitN t k s).mem a = Memory.read s.mem a) ∧
    (∀ j i, j < s.stripCount t → i < 64 → Memory.read s.mem (s.stripAddr t + 64 * j) ≠ 1 →
      Memory.read (visitN t k s).mem (s.stripAddr t + 64 * j + i) = Memory.read s.mem (s.stripAddr t + 64 * j + i)) := by
  intro k
  induction k with
  | zero => intro s h; exact ⟨h, fun _ _ => rfl, fun _ _ _ _ _ => rfl⟩
  | succ k ih =>
    intro s h
    unfold visitN
    split
    · next hc =>
      simp only [Bool.and_eq_true, decide_eq_true_eq] at hc
      obtain ⟨⟨-, -⟩, hmark⟩ := hc
      have hmark' : Memory.read s.mem (s.stripAddr t + 64 * (s.strip t).position) = 1 := hmark
      -- the state with TAKEN written
      have hw : ∀ a, a ≠ s.slotAddr t → Memory.read (writeSlotBytes t 0 [2] s).mem a = Memory.read s.mem a := by
        intro a ha
        simp only [writeSlotBytes, Nat.add_zero]
        exact Memory.read_writeBytes_outside _ _ _ (by simp; omega)
      have hs1 : (writeSlotBytes t 0 [2] s).strip t = s.strip t := by cases t <;> rfl
      have hd1 : (writeSlotBytes t 0 [2] s).stripAddr t = s.stripAddr t ∧
          (writeSlotBytes t 0 [2] s).stripCount t = s.stripCount t := by cases t <;> exact ⟨rfl, rfl⟩
      have hsa : (writeSlotBytes t 0 [2] s).slotAddr t = s.slotAddr t := by cases t <;> rfl
      have hmine : ∀ j i, j < s.stripCount t → i < 64 → Memory.read s.mem (s.stripAddr t + 64 * j) ≠ 1 →
          j ≠ (s.strip t).position := fun j i _ _ h1 e => h1 (e ▸ hmark')
      simp only
      split
      · refine ⟨?_, ?_, ?_⟩
        · rw [State.setStrip_strip, if_pos rfl, hs1]
          exact h
        · intro a ha
          rw [State.setStrip_mem]
          apply hw
          have := outside_ne ha h (j := 0) rfl
          simpa [State.slotAddr] using this
        · intro j i hj hi h1
          rw [State.setStrip_mem]
          apply hw
          have := hmine j i hj hi h1
          simp only [State.slotAddr]
          omega
      · next hk =>
        generalize hreq : (readRequest (writeSlotBytes t 0 [2] s) t) = req at *
        have hf := finish_strip t req.notify (.plain Outcome.badKind) (writeSlotBytes t 0 [2] s)
        have hfd : (finish t req.notify (.plain Outcome.badKind) (writeSlotBytes t 0 [2] s)).exch.descriptor =
            s.exch.descriptor := (offStrip_eq (t := t) (by simp)).2.2.1
        have hfa := stripAddr_of_desc hfd t
        have hpos : ((finish t req.notify (.plain Outcome.badKind) (writeSlotBytes t 0 [2] s)).strip t).position <
            (finish t req.notify (.plain Outcome.badKind) (writeSlotBytes t 0 [2] s)).stripCount t := by
          rw [hf, hfa.2, hd1.2]
          exact Nat.mod_lt _ (by omega)
        obtain ⟨i1, i2, i3⟩ := ih _ hpos
        rw [hfa.2] at i1
        have hout : ∀ a, s.outsideStrip t a = true →
            (finish t req.notify (.plain Outcome.badKind) (writeSlotBytes t 0 [2] s)).outsideStrip t a = true := by
          intro a ha
          simpa only [State.outsideStrip, hfa.1, hfa.2] using ha
        refine ⟨i1, ?_, ?_⟩
        · intro a ha
          rw [i2 a (hout a ha), outside_finish (by simpa only [State.outsideStrip, hd1.1, hd1.2] using ha)
            (by rw [hs1, hd1.2]; exact h)]
          apply hw
          have := outside_ne ha h (j := 0) rfl
          simpa [State.slotAddr] using this
        · intro j i hj hi h1
          have hne := hmine j i hj hi h1
          have hread : ∀ i, i < 64 → Memory.read (finish t req.notify (.plain Outcome.badKind)
              (writeSlotBytes t 0 [2] s)).mem (s.stripAddr t + 64 * j + i) =
              Memory.read s.mem (s.stripAddr t + 64 * j + i) := by
            intro i hi
            rw [finish_elsewhere (by rw [hsa]; simp only [State.slotAddr]; omega)
              (by rw [hsa]; simp only [State.slotAddr]; omega)]
            apply hw
            simp only [State.slotAddr]
            omega
          have h1' : Memory.read (finish t req.notify (.plain Outcome.badKind)
              (writeSlotBytes t 0 [2] s)).mem (s.stripAddr t + 64 * j) ≠ 1 := by
            have := hread 0 (by omega)
            rw [Nat.add_zero] at this
            rw [this]; exact h1
          have := i3 j i (by rw [hfa.2]; exact hj) hi (by rw [hfa.1]; exact h1')
          rw [hfa.1] at this
          rw [this, hread i hi]
    · exact ⟨h, fun _ _ => rfl, fun _ _ _ _ _ => rfl⟩

/-! ## Notices under a visit -/

theorem setNotice_bit (n : Notice) (s : State) (i : Nat) :
    (setNotice n s).regs.events.getLsbD i = (s.regs.events.getLsbD i || decide (i = n.bit)) := by
  have hb : n.bit < 8 := by cases n <;> decide
  simp only [setNotice, BitVec.getLsbD_or, BitVec.getLsbD_shiftLeft]
  congr 1
  by_cases h : i = n.bit
  · subst h; simp [hb]
  · by_cases h2 : i < n.bit
    · simp [h2, h]
    · have : i - n.bit ≠ 0 := by omega
      by_cases h8 : i < 8
      · simp [h, h2, h8, BitVec.getLsbD_one, this]
      · simp [h, h8]

theorem raise_bit (n : Notice) (s : State) (i : Nat) (h : s.isFaulted = false) :
    (raise n s).regs.events.getLsbD i = (s.regs.events.getLsbD i || decide (i = n.bit)) := by
  simp [raise, h, setNotice_bit]

theorem raise_bit_other (n : Notice) (s : State) (i : Nat) (h : i ≠ n.bit) :
    (raise n s).regs.events.getLsbD i = s.regs.events.getLsbD i := by
  unfold raise
  split
  · rfl
  · simp [setNotice_bit, h]

theorem raise_bit_mono (n : Notice) (s : State) (i : Nat) (h : s.regs.events.getLsbD i = true) :
    (raise n s).regs.events.getLsbD i = true := by
  unfold raise
  split
  · exact h
  · simp [setNotice_bit, h]

theorem finish_events (t : Strip) (n : Bool) (r : Result) (s : State) :
    (finish t n r s).regs.events = if n then (raise .done s).regs.events else s.regs.events := by
  have hr : ∀ s u : State, s.regs = u.regs → s.engine = u.engine → (raise .done s).regs = (raise .done u).regs := by
    intro s u h1 h2
    unfold raise State.isFaulted
    rw [h2]
    split <;> simp [setNotice, h1]
  have hw : ∀ s : State, (writeCompletion t r 4 s).regs = s.regs := fun s => by simp [writeCompletion]
  have he : ∀ s : State, (writeCompletion t r 4 s).engine = s.engine := fun s => by simp [writeCompletion]
  unfold finish
  simp only
  split
  · rw [hr _ s (by simp [hw]) (by simp [he])]
  · simp [hw]

/-- A visit changes no notice but DONE, and clears none. -/
theorem visitN_events (t : Strip) : ∀ (k : Nat) (s : State) (i : Nat),
    (1 ≤ i → (visitN t k s).regs.events.getLsbD i = s.regs.events.getLsbD i) ∧
    (s.regs.events.getLsbD i = true → (visitN t k s).regs.events.getLsbD i = true) := by
  intro k
  induction k with
  | zero => intro s i; exact ⟨fun _ => rfl, fun h => h⟩
  | succ k ih =>
    intro s i
    unfold visitN
    split
    · simp only
      split
      · simp
      · obtain ⟨a, b⟩ := ih (finish t (readRequest (writeSlotBytes t 0 [2] s) t).notify (.plain Outcome.badKind)
          (writeSlotBytes t 0 [2] s)) i
        constructor
        · intro h
          rw [a h, finish_events]
          split
          · rw [raise_bit_other _ _ _ (by simp only [Notice.bit]; omega)]; rfl
          · rfl
        · intro h
          apply b
          rw [finish_events]
          split
          · exact raise_bit_mono _ _ _ h
          · exact h
    · exact ⟨fun _ => rfl, fun h => h⟩

/-! ## A completion -/

/-- All that a completion can do: the slot's bytes, the notices, and nothing outside the strip. -/
theorem completed_completeRequest {t : Strip} {r : Result} {u : State} {req : Request} {h f : Bool}
    (hs : (u.strip t).scan = .holding req h f) (hf : u.isFaulted = false)
    (hp : (u.strip t).position < u.stripCount t) (hw : Memory.wf u.mem = true) :
    Completed t r u (completeRequest t r u) := by
  have hfd : (finish t req.notify r u).exch.descriptor = u.exch.descriptor := (offStrip_eq (t := t) (by simp)).2.2.1
  have hfa := stripAddr_of_desc hfd t
  have hfs := finish_strip t req.notify r u
  have hpos : ((finish t req.notify r u).strip t).position < (finish t req.notify r u).stripCount t := by
    rw [hfs, hfa.2]
    exact Nat.mod_lt _ (by omega)
  have e : completeRequest t r u = visitN t 257 (finish t req.notify r u) := by
    simp [completeRequest, hs, hf, visit]
  obtain ⟨-, v2, v3⟩ := visitN_mem t 257 _ hpos
  rw [hfa.1, hfa.2] at v3
  have hev := fun i => visitN_events t 257 (finish t req.notify r u) i
  -- the bytes written
  let A := u.slotAddr t
  have w1 := Memory.writeBytes_wf (A + 4) [r.outcome] hw
  have w2 := Memory.writeBytes_wf (A + 5) [if r.clamp then 1 else 0] w1
  have w3 := Memory.writeBytes_wf (A + 6) (leBytes 2 r.detail) w2
  have b0 : Memory.read (finish t req.notify r u).mem (A + 0) = 3 := by
    rw [finish_mem]
    exact Memory.read_writeBytes_inside (A + 0) [3] 0 w3 (by simp)
  have b4 : Memory.read (finish t req.notify r u).mem (A + 4) = r.outcome := by
    rw [finish_mem]
    rw [Memory.read_writeBytes_outside _ _ _ (by simp; omega), Memory.read_writeBytes_outside _ _ _ (by simp; omega),
      Memory.read_writeBytes_outside _ _ _ (by simp; omega)]
    exact Memory.read_writeBytes_inside (A + 4) [r.outcome] 0 hw (by simp)
  have b5 : Memory.read (finish t req.notify r u).mem (A + 5) = if r.clamp then 1 else 0 := by
    rw [finish_mem]
    rw [Memory.read_writeBytes_outside _ _ _ (by simp; omega), Memory.read_writeBytes_outside _ _ _ (by simp; omega)]
    exact Memory.read_writeBytes_inside (A + 5) [if r.clamp then 1 else 0] 0 w1 (by simp)
  have b6 : Memory.read (finish t req.notify r u).mem (A + 6) = BitVec.ofNat 8 r.detail := by
    rw [finish_mem]
    rw [Memory.read_writeBytes_outside _ _ _ (by simp; omega)]
    exact Memory.read_writeBytes_inside (A + 6) (leBytes 2 r.detail) 0 w2 (by simp [leBytes])
  have b7 : Memory.read (finish t req.notify r u).mem (A + 7) = BitVec.ofNat 8 (r.detail / 256) := by
    rw [finish_mem]
    rw [Memory.read_writeBytes_outside _ _ _ (by simp; omega)]
    exact Memory.read_writeBytes_inside (A + 6) (leBytes 2 r.detail) 1 w2 (by simp [leBytes])
  have hm : Memory.read (finish t req.notify r u).mem (u.stripAddr t + 64 * (u.strip t).position) ≠ 1 := by
    have b0' : Memory.read (finish t req.notify r u).mem (u.stripAddr t + 64 * (u.strip t).position) = 3 := b0
    rw [b0']; decide
  have keep : ∀ i, i < 64 → Memory.read (completeRequest t r u).mem (A + i) =
      Memory.read (finish t req.notify r u).mem (A + i) := fun i hi => by
    rw [e]
    exact v3 _ i hp hi hm
  exact {
    mark := by have := keep 0 (by omega); rw [Nat.add_zero] at this; rw [this]; exact b0
    outcome := by rw [keep 4 (by omega)]; exact b4
    clamp := by rw [keep 5 (by omega)]; exact b5
    detailLow := by rw [keep 6 (by omega)]; exact b6
    detailHigh := by rw [keep 7 (by omega)]; exact b7
    elsewhere := fun a ha => by
      rw [e, v2 a (by simpa only [State.outsideStrip, hfa.1, hfa.2] using ha)]
      exact outside_finish ha hp
    other := (offStrip_eq (t := t) (by simp)).2.2.2.2.2.2.2.1
    notices := fun i hi => by
      rw [e, (hev i).1 hi, finish_events]
      split
      · exact raise_bit_other _ _ _ (by simp only [Notice.bit]; omega)
      · rfl
    done := fun req' h' f' hs' hn => by
      rw [hs] at hs'
      cases hs'
      rw [e]
      apply (hev 0).2
      rw [finish_events, if_pos hn, raise_bit _ _ _ hf]
      simp [Notice.bit] }

/-- A completion keeps everything but its strip, memory and EVENTS. -/
theorem kept_completeRequest (t : Strip) (r : Result) (u : State) : Kept u (completeRequest t r u) := by
  have o := offStrip_eq (t := t) (s := completeRequest t r u) (u := u) (by simp)
  obtain ⟨-, o1, o2, o3, o4, o5, o6, -, o8, o9, o10, o11, o12, o13, o14, o15, o16, o17, o18⟩ := o
  exact { run := o3, xbase := o4, evmask := o5, engine := o1, resetLow := o18, descriptor := o2, scanTimer := o6,
          change := o12, editions := o13, clock := o14, roster := o15, profiles := o16, pending := o17,
          counts := by rw [o11], waiting := by rw [o11], wanted := fun r h => by rw [o11]; exact h,
          ports := fun l => by simp only [State.port, o8],
          quiet := fun _ => ⟨o9, o10, fun l => by simp only [State.port, o8]⟩ }

theorem Kept.refl (u : State) : Kept u u := (Settled.refl u).toKept

/-- What keeps a state and then settles keeps it. -/
theorem Kept.settled {u v t : State} (a : Kept u v) (b : Settled v t)
    (hr : (∀ l, u.portReady l = false) → ∀ l, v.portReady l = false) : Kept u t where
  run := b.run.trans a.run
  xbase := b.xbase.trans a.xbase
  evmask := b.evmask.trans a.evmask
  engine := b.engine.trans a.engine
  resetLow := b.resetLow.trans a.resetLow
  descriptor := b.descriptor.trans a.descriptor
  scanTimer := b.scanTimer.trans a.scanTimer
  change := b.change.trans a.change
  editions := b.editions.trans a.editions
  clock := b.clock.trans a.clock
  roster := b.roster.trans a.roster
  profiles := b.profiles.trans a.profiles
  pending := b.pending.trans a.pending
  counts := b.counts.trans a.counts
  waiting := b.waiting.trans a.waiting
  wanted := fun r h => b.wanted r (a.wanted r h)
  ports := fun l => (b.ports l).trans (a.ports l)
  quiet := fun h =>
    have x := a.quiet h
    have y := b.quiet (hr h)
    ⟨y.1.trans x.1, y.2.1.trans x.2.1, fun l => (y.2.2 l).trans (x.2.2 l)⟩

/-- A completed request stays completed when the step settles. -/
theorem Completed.settled {t : Strip} {r : Result} {u v w : State} (a : Completed t r u v) (b : Settled v w) :
    Completed t r u w where
  mark := by rw [b.mem]; exact a.mark
  outcome := by rw [b.mem]; exact a.outcome
  clamp := by rw [b.mem]; exact a.clamp
  detailLow := by rw [b.mem]; exact a.detailLow
  detailHigh := by rw [b.mem]; exact a.detailHigh
  elsewhere := fun x h => by rw [b.mem]; exact a.elsewhere x h
  other := by
    rw [← a.other]
    cases t
    · exact b.routine
    · exact b.priority
  notices := fun i h => by rw [b.events]; exact a.notices i h
  done := fun q h f hs hn => by rw [b.events]; exact a.done q h f hs hn

theorem portReady_congr {u v : State} (he : v.engine = u.engine) (hp : v.ports = u.ports) (l : Fin 4) :
    v.portReady l = u.portReady l := by
  cases u
  cases v
  cases he
  cases hp
  rfl

/-- A request that completes at the end of a step: its slot, and everything else as before the completion. -/
theorem completes_settled {s : State} {t : Strip} {r : Result} {u : State} {req : Request} {h f : Bool}
    (hs : (u.strip t).scan = .holding req h f) (hf : u.isFaulted = false)
    (hp : (u.strip t).position < u.stripCount t) (hw : Memory.wf u.mem = true) :
    Completed t r u (settle s (boundaries (completeRequest t r u))) ∧
    Kept u (settle s (boundaries (completeRequest t r u))) := by
  have b := settled_boundaries s (completeRequest t r u)
  refine ⟨(completed_completeRequest hs hf hp hw).settled b, (kept_completeRequest t r u).settled b ?_⟩
  intro hr l
  have o := offStrip_eq (t := t) (s := completeRequest t r u) (u := u) (by simp)
  rw [portReady_congr o.2.1 o.2.2.2.2.2.2.2.2.1]
  exact hr l

end Sys2Proof.Machine
end

