-- ==== Sys2Proof/Laws/Fixed.lean ====
section
/-! SUPPORT. What every operation of the roster, the verify unit, the scheduler and the line ports leaves alone: the
registers but EVENTS, the engine, the exchange interface, the change engine, the editions but the TIME marks, the clock, the
profiles, shared memory and the waiting commands. -/

namespace Sys2Proof.Machine

/-- The state apart from the roster, the ports, the scheduler, the sweeps, the report writer, EVENTS and the TIME marks. -/
def State.fixed (s : State) : State :=
  { s with
    roster := .cold, ports := Vector.replicate 4 .cold, sched := .cold, sweeps := Vector.replicate 24 .cold
    report := .cold, regs := { s.regs with events := 0 }
    editions := { s.editions with timeDue := Vector.replicate 4 false } }

theorem fixed_of_bare {s u : State} (h : s.bare = u.bare) : s.fixed = u.fixed := by
  have e : s.bare.fixed = u.bare.fixed := by rw [h]
  exact e

/-- What `fixed` shows. -/
theorem of_fixed {s u : State} (h : s.fixed = u.fixed) :
    s.mem = u.mem ∧ s.engine = u.engine ∧ s.resetLow = u.resetLow ∧ s.pending = u.pending ∧ s.exch = u.exch ∧
    s.change = u.change ∧ s.clock = u.clock ∧ s.profiles = u.profiles ∧ s.regs.run = u.regs.run ∧
    s.regs.xbase = u.regs.xbase ∧ s.regs.evmask = u.regs.evmask ∧ s.editions.active = u.editions.active ∧
    s.editions.pending = u.editions.pending ∧ s.editions.load = u.editions.load := by
  have e : ∀ {γ : Type} (g : State → γ), g s.fixed = g u.fixed := fun g => congrArg g h
  exact ⟨e (·.mem), e (·.engine), e (·.resetLow), e (·.pending), e (·.exch), e (·.change), e (·.clock), e (·.profiles),
    e (·.regs.run), e (·.regs.xbase), e (·.regs.evmask), e (·.editions.active), e (·.editions.pending),
    e (·.editions.load)⟩

@[simp] theorem modSlot_fixed (s : State) (n : Fin 24) (f : Slot → Slot) : (s.modSlot n f).fixed = s.fixed := rfl
@[simp] theorem setSlot_fixed (s : State) (n : Fin 24) (v : Slot) : (s.setSlot n v).fixed = s.fixed := rfl
@[simp] theorem modLineRoster_fixed (s : State) (l : Fin 4) (f : LineRoster → LineRoster) : (s.modLineRoster l f).fixed = s.fixed := rfl
@[simp] theorem modPort_fixed (s : State) (l : Fin 4) (f : Port → Port) : (s.modPort l f).fixed = s.fixed := rfl
@[simp] theorem modArbiter_fixed (s : State) (l : Fin 4) (f : Arbiter → Arbiter) : (s.modArbiter l f).fixed = s.fixed := rfl
@[simp] theorem setDelivery_fixed (s : State) (n : Fin 24) (d : Option Delivery) : (s.setDelivery n d).fixed = s.fixed := rfl
@[simp] theorem modDelivery_fixed (s : State) (n : Fin 24) (f : Delivery → Delivery) : (s.modDelivery n f).fixed = s.fixed := rfl
@[simp] theorem modMarks_fixed (s : State) (n : Fin 24) (f : Marks → Marks) : (s.modMarks n f).fixed = s.fixed := rfl
@[simp] theorem setGroups_fixed (s : State) (gs : List Group) : (s.setGroups gs).fixed = s.fixed := rfl
@[simp] theorem modGroup_fixed (s : State) (i : Nat) (f : Group → Group) : (s.modGroup i f).fixed = s.fixed := rfl
@[simp] theorem setSweep_fixed (s : State) (n : Fin 24) (v : Sweep) : (s.setSweep n v).fixed = s.fixed := rfl
@[simp] theorem want_fixed (s : State) (r : Fin 29) : (want r s).fixed = s.fixed := rfl
@[simp] theorem awaitRecords_fixed (s : State) (rs : List (Fin 29)) (a : WaitAct) : (awaitRecords rs a s).fixed = s.fixed := rfl
@[simp] theorem setNotice_fixed (s : State) (n : Notice) : (setNotice n s).fixed = s.fixed := rfl
@[simp] theorem endTurns_fixed (s : State) (t : Target) : (endTurns t s).fixed = s.fixed := rfl
@[simp] theorem cutShort_fixed (s : State) (n : Fin 24) : (cutShort n s).fixed = s.fixed := rfl
@[simp] theorem dropSweep_fixed (s : State) (n : Fin 24) : (dropSweep n s).fixed = s.fixed := rfl
@[simp] theorem insertUrgent_fixed (s : State) (ps : List Nat) : (insertUrgent ps s).fixed = s.fixed := rfl
@[simp] theorem tendGroups_fixed (s : State) : (tendGroups s).fixed = s.fixed :=
  fixed_of_bare (tendGroups_bare s)
@[simp] theorem leaveGroup_fixed (s : State) (n : Fin 24) : (leaveGroup n s).fixed = s.fixed :=
  fixed_of_bare (leaveGroup_bare s n)
@[simp] theorem memberOpened_fixed (s : State) (n : Fin 24) : (memberOpened n s).fixed = s.fixed :=
  fixed_of_bare (memberOpened_bare s n)
@[simp] theorem unlist_fixed (s : State) (n : Fin 24) : (unlist n s).fixed = s.fixed := rfl
@[simp] theorem dropDelivery_fixed (s : State) (n : Fin 24) : (dropDelivery n s).fixed = s.fixed :=
  fixed_of_bare (dropDelivery_bare s n)
@[simp] theorem endDelivery_fixed (s : State) (n : Fin 24) : (endDelivery n s).fixed = s.fixed :=
  fixed_of_bare (endDelivery_bare s n)
@[simp] theorem withdraw_fixed (s : State) (n : Fin 24) (p : Work → Bool) (d : Bool) : (withdraw n p d s).fixed = s.fixed := rfl
@[simp] theorem abandon_fixed (s : State) (n : Fin 24) : (abandon n s).fixed = s.fixed :=
  fixed_of_bare (abandon_bare s n)
@[simp] theorem abandonWhere_fixed (s : State) (p : Delivery → Bool) : (abandonWhere p s).fixed = s.fixed :=
  fixed_of_bare (abandonWhere_bare s p)
@[simp] theorem endGroups_fixed (s : State) (c : Cls) : (endGroups c s).fixed = s.fixed :=
  fixed_of_bare (endGroups_bare s c)
@[simp] theorem boundaries_fixed (s : State) : (boundaries s).fixed = s.fixed :=
  fixed_of_bare (boundaries_bare s)
@[simp] theorem settle_fixed (s : State) (o : State) : (settle o s).fixed = s.fixed := by
  unfold settle
  rfl
@[simp] theorem raise_fixed (s : State) (n : Notice) : (raise n s).fixed = s.fixed := by
  unfold raise
  try simp only
  repeat' split
  all_goals simp [apply_ite State.fixed]
@[simp] theorem wantAll_fixed (s : State) (rs : List (Fin 29)) : (wantAll rs s).fixed = s.fixed := by
  unfold wantAll
  exact foldl_keeps State.fixed _ (fun s r => want_fixed s r) _ _
@[simp] theorem raiseAfter_fixed (s : State) (n : Notice) (rs : List (Fin 29)) : (raiseAfter n rs s).fixed = s.fixed := by
  unfold raiseAfter
  try simp only
  repeat' split
  all_goals simp [apply_ite State.fixed]
@[simp] theorem raiseForSlot_fixed (s : State) (n : Notice) (k : Fin 24) : (raiseForSlot n k s).fixed = s.fixed := by
  unfold raiseForSlot
  try simp only
  repeat' split
  all_goals simp [apply_ite State.fixed]
@[simp] theorem refreshServed_fixed (s : State) (n : Fin 24) : (refreshServed n s).fixed = s.fixed := by
  unfold refreshServed
  try simp only
  repeat' split
  all_goals simp [apply_ite State.fixed]
@[simp] theorem refreshIncapable_fixed (s : State) (n : Fin 24) : (refreshIncapable n s).fixed = s.fixed := by
  unfold refreshIncapable
  try simp only
  repeat' split
  all_goals simp [apply_ite State.fixed]
@[simp] theorem reevaluate_fixed (s : State) (n : Fin 24) : (reevaluate n s).fixed = s.fixed := by
  unfold reevaluate
  try simp only
  repeat' split
  all_goals simp [apply_ite State.fixed]
@[simp] theorem reevaluateAll_fixed (s : State) : (reevaluateAll s).fixed = s.fixed := by
  unfold reevaluateAll
  exact forSlots_keeps State.fixed _ (fun n s => reevaluate_fixed s n) _ _
@[simp] theorem identified_fixed (s : State) (n : Fin 24) : (identified n s).fixed = s.fixed := by
  unfold identified
  try simp only
  repeat' split
  all_goals simp [apply_ite State.fixed]
@[simp] theorem setKeepalive_fixed (s : State) (n : Fin 24) : (setKeepalive n s).fixed = s.fixed := by
  unfold setKeepalive
  try simp only
  repeat' split
  all_goals simp [apply_ite State.fixed]
@[simp] theorem pollNow_fixed (s : State) (n : Fin 24) : (pollNow n s).fixed = s.fixed := by
  unfold pollNow
  try simp only
  repeat' split
  all_goals simp [apply_ite State.fixed]
@[simp] theorem toSilent_fixed (s : State) (n : Fin 24) : (toSilent n s).fixed = s.fixed := by
  unfold toSilent
  try simp only
  repeat' split
  all_goals simp [apply_ite State.fixed]
@[simp] theorem quarantine_fixed (s : State) (n : Fin 24) (r : Reason) : (quarantine n r s).fixed = s.fixed := by
  unfold quarantine
  try simp only
  repeat' split
  all_goals simp [apply_ite State.fixed]
@[simp] theorem toIdentifying_fixed (s : State) (n : Fin 24) (st : Status) : (toIdentifying n st s).fixed = s.fixed := by
  unfold toIdentifying
  try simp only
  repeat' split
  all_goals simp [apply_ite State.fixed]
@[simp] theorem rosterEvent_fixed (s : State) (n : Fin 24) : (rosterEvent n s).fixed = s.fixed := by
  unfold rosterEvent
  try simp only
  repeat' split
  all_goals simp [apply_ite State.fixed]
@[simp] theorem rosterNote_fixed (s : State) (n : Fin 24) : (rosterNote n s).fixed = s.fixed := by
  unfold rosterNote
  try simp only
  repeat' split
  all_goals simp [apply_ite State.fixed]
@[simp] theorem backOff_fixed (s : State) (n : Fin 24) (t : Time) : (backOff n t s).fixed = s.fixed := by
  unfold backOff
  try simp only
  repeat' split
  all_goals simp [apply_ite State.fixed]
@[simp] theorem count_fixed (s : State) (n : Fin 24) (f : Counters → Counters) : (count n f s).fixed = s.fixed := by
  unfold count
  try simp only
  repeat' split
  all_goals simp [apply_ite State.fixed]
@[simp] theorem countFailure_fixed (s : State) (n : Fin 24) : (countFailure n s).fixed = s.fixed := by
  unfold countFailure
  try simp only
  repeat' split
  all_goals simp [apply_ite State.fixed]
@[simp] theorem deliveryFailure_fixed (s : State) (n : Fin 24) : (deliveryFailure n s).fixed = s.fixed := by
  unfold deliveryFailure
  try simp only
  repeat' split
  all_goals simp [apply_ite State.fixed]
@[simp] theorem missed_fixed (s : State) (n : Fin 24) : (missed n s).fixed = s.fixed := by
  unfold missed
  try simp only
  repeat' split
  all_goals simp [apply_ite State.fixed]
@[simp] theorem recordStatus_fixed (s : State) (n : Fin 24) (st : Status) : (recordStatus n st s).fixed = s.fixed := by
  unfold recordStatus
  try simp only
  repeat' split
  all_goals simp [apply_ite State.fixed]
@[simp] theorem forceReload_fixed (s : State) (n : Fin 24) : (forceReload n s).fixed = s.fixed := by
  unfold forceReload
  try simp only
  repeat' split
  all_goals simp [apply_ite State.fixed]
@[simp] theorem pin_fixed (s : State) (n : Fin 24) (b : Fin 4 × Nat) (e : BitVec 64) (f : Bool) : (pin n b e f s).fixed = s.fixed := by
  unfold pin
  try simp only
  repeat' split
  all_goals simp [apply_ite State.fixed]
@[simp] theorem free_fixed (s : State) (n : Fin 24) : (free n s).fixed = s.fixed := by
  have h : ∀ u : State, ({ u with roster := { u.roster with full := false } } : State).fixed = u.fixed := fun _ => rfl
  unfold free
  rw [h]
  simp
@[simp] theorem releaseQuarantine_fixed (s : State) (n : Fin 24) : (releaseQuarantine n s).fixed = s.fixed := by
  unfold releaseQuarantine
  try simp only
  repeat' split
  all_goals simp [apply_ite State.fixed]
@[simp] theorem resync_fixed (s : State) (n : Fin 24) : (resync n s).fixed = s.fixed := by
  unfold resync
  try simp only
  repeat' split
  all_goals simp [apply_ite State.fixed]
@[simp] theorem compareReport_fixed (s : State) (n : Fin 24) (h : HeldReport) : (compareReport n h s).fixed = s.fixed := by
  unfold compareReport
  try simp only
  repeat' split
  all_goals simp [apply_ite State.fixed]
@[simp] theorem compareHeld_fixed (s : State) : (compareHeld s).fixed = s.fixed := by
  unfold compareHeld
  refine forSlots_keeps State.fixed _ (fun n s => ?_) _ _
  split <;> simp
@[simp] theorem clearRepair_fixed (s : State) (n : Fin 24) : (clearRepair n s).fixed = s.fixed := by
  unfold clearRepair
  try simp only
  repeat' split
  all_goals simp [apply_ite State.fixed]
@[simp] theorem setRepair_fixed (s : State) (n : Fin 24) : (setRepair n s).fixed = s.fixed := by
  unfold setRepair
  try simp only
  repeat' split
  all_goals simp [apply_ite State.fixed]
@[simp] theorem countMismatch_fixed (s : State) (n : Fin 24) : (countMismatch n s).fixed = s.fixed := by
  unfold countMismatch
  try simp only
  repeat' split
  all_goals simp [apply_ite State.fixed]
@[simp] theorem compareStatus_fixed (s : State) (n : Fin 24) (st : Status) : (compareStatus n st s).fixed = s.fixed := by
  unfold compareStatus
  try simp only
  repeat' split
  all_goals simp [apply_ite State.fixed]
@[simp] theorem clearRepairs_fixed (s : State) : (clearRepairs s).fixed = s.fixed := by
  unfold clearRepairs
  exact forSlots_keeps State.fixed _ (fun n s => clearRepair_fixed s n) _ _
@[simp] theorem repairMismatch_fixed (s : State) (n : Fin 24) : (repairMismatch n s).fixed = s.fixed := by
  unfold repairMismatch
  try simp only
  repeat' split
  all_goals simp [apply_ite State.fixed]
@[simp] theorem restartSweep_fixed (s : State) (n : Fin 24) : (restartSweep n s).fixed = s.fixed := by
  unfold restartSweep
  try simp only
  repeat' split
  all_goals simp [apply_ite State.fixed]
@[simp] theorem judgeCommit_fixed (s : State) (n : Fin 24) (d : Delivery) (v : Verdict) : (judgeCommit n d v s).fixed = s.fixed := by
  unfold judgeCommit
  try simp only
  repeat' split
  all_goals simp [apply_ite State.fixed]
@[simp] theorem judgeRefused_fixed (s : State) (n : Fin 24) (d : Delivery) : (judgeRefused n d s).fixed = s.fixed := by
  unfold judgeRefused
  try simp only
  repeat' split
  all_goals simp [apply_ite State.fixed]
@[simp] theorem lowerH_fixed (s : State) : (lowerH s).fixed = s.fixed := by
  unfold lowerH
  refine forSlots_keeps State.fixed _ (fun n s => ?_) _ _
  simp only
  split <;> simp
@[simp] theorem switchEffects_fixed (s : State) : (switchEffects s).fixed = s.fixed := by
  unfold switchEffects
  simp only
  rw [reevaluateAll_fixed, forSlots_keeps State.fixed _ (fun n s => refreshIncapable_fixed s n)]
  simp
@[simp] theorem editionsChanged_fixed (s : State) : (editionsChanged s).fixed = s.fixed := by
  unfold editionsChanged
  rw [reevaluateAll_fixed, forSlots_keeps State.fixed _ (fun n s => refreshIncapable_fixed s n)]
@[simp] theorem stageToInstall_fixed (s : State) : (stageToInstall s).fixed = s.fixed := rfl
@[simp] theorem flagUnconfirmed_fixed (s : State) (e : EditionRef) : (flagUnconfirmed e s).fixed = s.fixed := by
  unfold flagUnconfirmed
  refine forSlots_keeps State.fixed _ (fun n s => ?_) _ _
  simp only
  repeat' split
  all_goals simp
@[simp] theorem markTime_fixed (s : State) : (markTime s).fixed = s.fixed := rfl
@[simp] theorem beginVisit_fixed (s : State) (l : Fin 4) (a : Nat) : (beginVisit l a s).fixed = s.fixed := by
  unfold beginVisit
  try simp only
  repeat' split
  all_goals simp [apply_ite State.fixed]
@[simp] theorem countLine_fixed (s : State) (l : Fin 4) (d : Side) (f : LineCounters → LineCounters) : (countLine l d f s).fixed = s.fixed := by
  unfold countLine
  try simp only
  repeat' split
  all_goals simp [apply_ite State.fixed]
@[simp] theorem drive_fixed (s : State) (l : Fin 4) (ex : Exchange) : (drive l ex s).fixed = s.fixed := by
  unfold drive
  try simp only
  repeat' split
  all_goals simp [apply_ite State.fixed]
@[simp] theorem nextTag_fixed (s : State) (l : Fin 4) : ((nextTag l s).2).fixed = s.fixed := rfl
@[simp] theorem startExchange_fixed (s : State) (l : Fin 4) (w : Work) (f : RequestFrame) : (startExchange l w f s).fixed = s.fixed := by
  unfold startExchange
  simp only [drive_fixed]
  exact nextTag_fixed s l
@[simp] theorem takeBack_fixed (s : State) (l : Fin 4) (w : Work) : (takeBack l w s).fixed = s.fixed := by
  unfold takeBack
  try simp only
  repeat' split
  all_goals simp [apply_ite State.fixed]
@[simp] theorem overExchange_fixed (s : State) (l : Fin 4) (ex : Exchange) : (overExchange l ex s).fixed = s.fixed := by
  unfold overExchange
  try simp only
  repeat' split
  all_goals simp [apply_ite State.fixed]
@[simp] theorem toGap_fixed (s : State) (l : Fin 4) : (toGap l s).fixed = s.fixed := by
  unfold toGap
  try simp only
  repeat' split
  all_goals simp [apply_ite State.fixed]
@[simp] theorem toFreshGap_fixed (s : State) (l : Fin 4) : (toFreshGap l s).fixed = s.fixed := by
  unfold toFreshGap
  try simp only
  repeat' split
  all_goals simp [apply_ite State.fixed]
@[simp] theorem countPage_fixed (s : State) (n : Fin 24) (r : PageRead) : (countPage n r s).fixed = s.fixed := by
  unfold countPage
  try simp only
  repeat' split
  all_goals simp [apply_ite State.fixed]
@[simp] theorem countMember_fixed (s : State) (r : PageRead) (n : Fin 24) : (countMember r n s).fixed = s.fixed := by
  unfold countMember
  try simp only
  repeat' split
  all_goals simp [apply_ite State.fixed]
@[simp] theorem countGroup_fixed (s : State) (i : Nat) (ex : Exchange) : (countGroup i ex s).fixed = s.fixed := by
  unfold countGroup
  split
  · rfl
  · simp only [modGroup_fixed]; exact forSlots_keeps State.fixed _ (fun n s => countMember_fixed s _ n) _ _
@[simp] theorem countSent_fixed (s : State) (ex : Exchange) : (countSent ex s).fixed = s.fixed := by
  unfold countSent
  try simp only
  repeat' split
  all_goals simp [apply_ite State.fixed]
@[simp] theorem broadcastEnds_fixed (s : State) (l : Fin 4) : (broadcastEnds l s).fixed = s.fixed := by
  unfold broadcastEnds
  simp only
  rw [forSlots_keeps State.fixed _ (fun n s => by split <;> simp)]
  simp
@[simp] theorem broadcastOver_fixed (s : State) (l : Fin 4) (ex : Exchange) : (broadcastOver l ex s).fixed = s.fixed := by
  unfold broadcastOver
  try simp only
  repeat' split
  all_goals simp [apply_ite State.fixed]
@[simp] theorem noReplyEnds_fixed (s : State) (l : Fin 4) (ex : Exchange) : (noReplyEnds l ex s).fixed = s.fixed := by
  unfold noReplyEnds
  try simp only
  repeat' split
  all_goals simp [apply_ite State.fixed]
@[simp] theorem nextAttempt_fixed (s : State) (l : Fin 4) (ex : Exchange) : (nextAttempt l ex s).fixed = s.fixed := by
  unfold nextAttempt
  simp only [drive_fixed]
  exact nextTag_fixed s l
@[simp] theorem secondCopy_fixed (s : State) (l : Fin 4) (ex : Exchange) : (secondCopy l ex s).fixed = s.fixed := by
  unfold secondCopy
  try simp only
  repeat' split
  all_goals simp [apply_ite State.fixed]
@[simp] theorem toIdle_fixed (s : State) (l : Fin 4) : (toIdle l s).fixed = s.fixed := by
  unfold toIdle
  try simp only
  repeat' split
  all_goals simp [apply_ite State.fixed]
@[simp] theorem endQuietly_fixed (s : State) (l : Fin 4) (ex : Exchange) : (endQuietly l ex s).fixed = s.fixed := by
  unfold endQuietly
  try simp only
  repeat' split
  all_goals simp [apply_ite State.fixed]
@[simp] theorem afterFirstCopy_fixed (s : State) (l : Fin 4) (ex : Exchange) : (afterFirstCopy l ex s).fixed = s.fixed := by
  unfold afterFirstCopy
  try simp only
  repeat' split
  all_goals simp [apply_ite State.fixed]
@[simp] theorem garbledAt_fixed (s : State) (l : Fin 4) (a : Nat) (n : Fin 24) : (garbledAt l a n s).fixed = s.fixed := by
  unfold garbledAt
  try simp only
  repeat' split
  all_goals simp [apply_ite State.fixed]
@[simp] theorem endGarbleRun_fixed (s : State) (n : Fin 24) : (endGarbleRun n s).fixed = s.fixed := by
  unfold endGarbleRun
  try simp only
  repeat' split
  all_goals simp [apply_ite State.fixed]
@[simp] theorem decideSuspects_fixed (s : State) (l : Fin 4) (a : Nat) (g : Bool) : (decideSuspects l a g s).fixed = s.fixed := by
  unfold decideSuspects
  refine forSlots_keeps State.fixed _ (fun n s => ?_) _ _
  simp only
  split <;> simp
@[simp] theorem setGarbles_fixed (s : State) (l : Fin 4) (a k : Nat) : (setGarbles l a k s).fixed = s.fixed := by
  unfold setGarbles
  try simp only
  repeat' split
  all_goals simp [apply_ite State.fixed]
@[simp] theorem garbledVisit_fixed (s : State) (l : Fin 4) (a : Nat) : (garbledVisit l a s).fixed = s.fixed := by
  unfold garbledVisit
  try simp only
  repeat' split
  all_goals simp [apply_ite State.fixed]
@[simp] theorem missDelivery_fixed (s : State) (ex : Exchange) (n : Fin 24) : (missDelivery ex n s).fixed = s.fixed := by
  unfold missDelivery
  try simp only
  repeat' split
  all_goals simp [apply_ite State.fixed]
@[simp] theorem miss_fixed (s : State) (l : Fin 4) (ex : Exchange) : (miss l ex s).fixed = s.fixed := by
  unfold miss
  try simp only
  repeat' split
  all_goals simp [apply_ite State.fixed]
@[simp] theorem failAttempt_fixed (s : State) (l : Fin 4) (ex : Exchange) : (failAttempt l ex s).fixed = s.fixed := by
  unfold failAttempt
  try simp only
  repeat' split
  all_goals simp [apply_ite State.fixed]
@[simp] theorem garbledReply_fixed (s : State) (l : Fin 4) (ex : Exchange) : (garbledReply l ex s).fixed = s.fixed := by
  unfold garbledReply onSlot
  simp only [failAttempt_fixed]
  split
  · simp
  · split <;> simp
@[simp] theorem goodReply_fixed (s : State) (l : Fin 4) (ex : Exchange) (r : Reply) : (goodReply l ex r s).fixed = s.fixed := by
  unfold goodReply
  try simp only
  repeat' split
  all_goals simp [apply_ite State.fixed]
@[simp] theorem staleAt_fixed (s : State) (l : Fin 4) (bs : List Byte) : (staleAt l bs s).fixed = s.fixed := by
  unfold staleAt
  try simp only
  repeat' split
  all_goals simp [apply_ite State.fixed]
@[simp] theorem afterStale_fixed (s : State) (l : Fin 4) (o : From) : (afterStale l o s).fixed = s.fixed := by
  unfold afterStale
  try simp only
  repeat' split
  all_goals simp [apply_ite State.fixed]
@[simp] theorem receiveFrame_fixed (s : State) (l : Fin 4) (o : From) (bs : List Byte) (e : FrameEnd) : (receiveFrame l o bs e s).fixed = s.fixed := by
  unfold receiveFrame
  try simp only
  repeat' split
  all_goals simp [apply_ite State.fixed]
@[simp] theorem reachPrimary_fixed (s : State) (l : Fin 4) : (reachPrimary l s).fixed = s.fixed := by
  unfold reachPrimary
  refine forSlots_keeps State.fixed _ (fun n s => ?_) _ _
  split <;> simp
@[simp] theorem changeLoop_fixed (s : State) (l : Fin 4) (b : Bool) : (changeLoop l b s).fixed = s.fixed := by
  unfold changeLoop
  try simp only
  repeat' split
  all_goals simp [apply_ite State.fixed]
@[simp] theorem echo_fixed (s : State) (l : Fin 4) (b : Bool) : (echo l b s).fixed = s.fixed := by
  unfold echo
  try simp only
  repeat' split
  all_goals simp [apply_ite State.fixed]
@[simp] theorem takeHeldData_fixed (s : State) (n : Fin 24) (st : Status) : (takeHeldData n st s).fixed = s.fixed := by
  unfold takeHeldData
  try simp only
  repeat' split
  all_goals simp [apply_ite State.fixed]
@[simp] theorem statusMarks_fixed (s : State) (w : Work) (n : Fin 24) : (statusMarks w n s).fixed = s.fixed := by
  unfold statusMarks
  try simp only
  repeat' split
  all_goals simp [apply_ite State.fixed]
@[simp] theorem keptAside_fixed (s : State) (n : Fin 24) (st : Status) : (keptAside n st s).fixed = s.fixed := by
  unfold keptAside
  try simp only
  repeat' split
  all_goals simp [apply_ite State.fixed]
@[simp] theorem takeStatus_fixed (s : State) (ex : Exchange) (c : List Byte) (n : Fin 24) : (takeStatus ex c n s).fixed = s.fixed := by
  unfold takeStatus
  try simp only
  repeat' split
  all_goals simp [apply_ite State.fixed]
@[simp] theorem takeCapability_fixed (s : State) (n : Fin 24) (c : Capability) : (takeCapability n c s).fixed = s.fixed := by
  unfold takeCapability
  try simp only
  repeat' split
  all_goals simp [apply_ite State.fixed]
@[simp] theorem recordKept_fixed (s : State) (n : Fin 24) (v : BitVec 64) : (recordKept n v s).fixed = s.fixed := by
  unfold recordKept
  try simp only
  repeat' split
  all_goals simp [apply_ite State.fixed]
@[simp] theorem acceptIdent_fixed (s : State) (n : Fin 24) (v : BitVec 64) (c : Capability) : (acceptIdent n v c s).fixed = s.fixed := by
  unfold acceptIdent
  try simp only
  repeat' split
  all_goals simp [apply_ite State.fixed]
@[simp] theorem replaceValidator_fixed (s : State) (n : Fin 24) (v : BitVec 64) (c : Capability) : (replaceValidator n v c s).fixed = s.fixed := by
  unfold replaceValidator
  try simp only
  repeat' split
  all_goals simp [apply_ite State.fixed]
@[simp] theorem judgeSerial_fixed (s : State) (n : Fin 24) (v : BitVec 64) (c : Capability) : (judgeSerial n v c s).fixed = s.fixed := by
  unfold judgeSerial
  try simp only
  repeat' split
  all_goals simp [apply_ite State.fixed]
@[simp] theorem takeIdent_fixed (s : State) (ex : Exchange) (c : List Byte) (n : Fin 24) : (takeIdent ex c n s).fixed = s.fixed := by
  unfold takeIdent
  try simp only
  repeat' split
  all_goals simp [apply_ite State.fixed]
@[simp] theorem bindFound_fixed (s : State) (n : Fin 24) (b : Fin 4 × Nat) (v : BitVec 64) (c : Capability) (d : Side) : (bindFound n b v c d s).fixed = s.fixed := by
  unfold bindFound
  try simp only
  repeat' split
  all_goals simp [apply_ite State.fixed]
@[simp] theorem rebindFound_fixed (s : State) (n : Fin 24) (b : Fin 4 × Nat) (c : Capability) (d : Side) : (rebindFound n b c d s).fixed = s.fixed := by
  unfold rebindFound
  try simp only
  repeat' split
  all_goals simp [apply_ite State.fixed]
@[simp] theorem markDuplicate_fixed (s : State) (n : Fin 24) : (markDuplicate n s).fixed = s.fixed := by
  unfold markDuplicate
  try simp only
  repeat' split
  all_goals simp [apply_ite State.fixed]
@[simp] theorem rosterFull_fixed (s : State) (l : Fin 4) : (rosterFull l s).fixed = s.fixed := by
  have h : ({ s with roster := { s.roster with full := true } } : State).fixed = s.fixed := rfl
  unfold rosterFull
  simp only
  split
  · exact h
  · split <;> simp [h]
@[simp] theorem discovered_fixed (s : State) (l : Fin 4) (ex : Exchange) (c : List Byte) : (discovered l ex c s).fixed = s.fixed := by
  unfold discovered
  simp only
  repeat' split
  all_goals first | rfl | (simp; done) | exact forSlots_keeps State.fixed _ (fun n s => markDuplicate_fixed s n) _ _
@[simp] theorem recordAccept_fixed (s : State) (n : Fin 24) (d : Delivery) (m : BitVec 64) : (recordAccept n d m s).fixed = s.fixed := by
  unfold recordAccept
  try simp only
  repeat' split
  all_goals simp [apply_ite State.fixed]
@[simp] theorem takeAccept_fixed (s : State) (ex : Exchange) (c : List Byte) (n : Fin 24) : (takeAccept ex c n s).fixed = s.fixed := by
  unfold takeAccept
  try simp only
  repeat' split
  all_goals simp [apply_ite State.fixed]
@[simp] theorem refused_fixed (s : State) (w : Work) (r : Nat) (n : Fin 24) : (refused w r n s).fixed = s.fixed := by
  unfold refused
  try simp only
  repeat' split
  all_goals simp [apply_ite State.fixed]
@[simp] theorem takeRefuse_fixed (s : State) (ex : Exchange) (c : List Byte) (n : Fin 24) : (takeRefuse ex c n s).fixed = s.fixed := by
  unfold takeRefuse
  try simp only
  repeat' split
  all_goals simp [apply_ite State.fixed]
@[simp] theorem countRefusal_fixed (s : State) (l : Fin 4) : (countRefusal l s).fixed = s.fixed := by
  unfold countRefusal onSlot
  repeat' split
  all_goals simp
@[simp] theorem repairSent_fixed (s : State) (n : Fin 24) (p : Nat) : (repairSent n p s).fixed = s.fixed := by
  unfold repairSent
  try simp only
  repeat' split
  all_goals simp [apply_ite State.fixed]
@[simp] theorem takePageAck_fixed (s : State) (ex : Exchange) (c : List Byte) (n : Fin 24) : (takePageAck ex c n s).fixed = s.fixed := by
  unfold takePageAck
  try simp only
  repeat' split
  all_goals simp [apply_ite State.fixed]
@[simp] theorem committed_fixed (s : State) (keep : Bool) (n : Fin 24) : (committed keep n s).fixed = s.fixed := by
  unfold committed
  try simp only
  repeat' split
  all_goals simp [apply_ite State.fixed]
@[simp] theorem commitBlocklist_fixed (s : State) (n : Fin 24) (d : Delivery) (v : Verdict) : (commitBlocklist n d v s).fixed = s.fixed := by
  unfold commitBlocklist
  try simp only
  repeat' split
  all_goals simp [apply_ite State.fixed]
@[simp] theorem commitEdition_fixed (s : State) (n : Fin 24) (d : Delivery) : (commitEdition n d s).fixed = s.fixed := by
  unfold commitEdition
  try simp only
  repeat' split
  all_goals simp [apply_ite State.fixed]
@[simp] theorem closeTally_fixed (s : State) (n : Fin 24) (d : Delivery) : (closeTally n d s).fixed = s.fixed := by
  unfold closeTally
  try simp only
  repeat' split
  all_goals simp [apply_ite State.fixed]
@[simp] theorem takeCloseAck_fixed (s : State) (ex : Exchange) (c : List Byte) (n : Fin 24) : (takeCloseAck ex c n s).fixed = s.fixed := by
  unfold takeCloseAck
  try simp only
  repeat' split
  all_goals simp [apply_ite State.fixed]
@[simp] theorem takeCheckReport_fixed (s : State) (ex : Exchange) (c : List Byte) (n : Fin 24) : (takeCheckReport ex c n s).fixed = s.fixed := by
  unfold takeCheckReport
  try simp only
  repeat' split
  all_goals simp [apply_ite State.fixed]
@[simp] theorem busyWork_fixed (s : State) (w : Work) (n : Fin 24) : (busyWork w n s).fixed = s.fixed := by
  unfold busyWork
  try simp only
  repeat' split
  all_goals simp [apply_ite State.fixed]
@[simp] theorem busyDue_fixed (s : State) (w : Work) (n : Fin 24) : (busyDue w n s).fixed = s.fixed := by
  unfold busyDue
  try simp only
  repeat' split
  all_goals simp [apply_ite State.fixed]
@[simp] theorem countBusy_fixed (s : State) (n : Fin 24) : (countBusy n s).fixed = s.fixed := by
  unfold countBusy
  try simp only
  repeat' split
  all_goals simp [apply_ite State.fixed]
@[simp] theorem takeBusy_fixed (s : State) (l : Fin 4) : (takeBusy l s).fixed = s.fixed := by
  unfold takeBusy
  try simp only
  repeat' split
  all_goals simp [apply_ite State.fixed]
@[simp] theorem dissolve_fixed (s : State) (g : Group) : (dissolve g s).fixed = s.fixed := by
  unfold dissolve
  simp only [setGroups_fixed, endTurns_fixed]
  exact forSlots_keeps State.fixed _ (fun n s => modDelivery_fixed s n _) _ _
@[simp] theorem dissolveLine_fixed (s : State) (l : Fin 4) : (dissolveLine l s).fixed = s.fixed := by
  unfold dissolveLine
  exact foldl_keeps State.fixed _ (fun s g => dissolve_fixed s g) _ _
@[simp] theorem refreshLine_fixed (s : State) (l : Fin 4) : (refreshLine l s).fixed = s.fixed := by
  unfold refreshLine
  exact forSlots_keeps State.fixed _ (fun n s => refreshServed_fixed s n) _ _
@[simp] theorem rateChanged_fixed (s : State) (r : Fin 7) (l : Fin 4) : (rateChanged r l s).fixed = s.fixed := by
  unfold rateChanged
  try simp only
  repeat' split
  all_goals simp [apply_ite State.fixed]
@[simp] theorem startPair_fixed (s : State) (l : Fin 4) : (startPair l s).fixed = s.fixed := by
  have h : ∀ (a b : Fin 4) (u : State), (passArbiter a b u).fixed = u.fixed := fun _ _ _ => rfl
  unfold startPair; simp [h]
@[simp] theorem splitOdd_fixed (s : State) (l : Fin 4) : (splitOdd l s).fixed = s.fixed := by
  unfold splitOdd
  try simp only
  repeat' split
  all_goals simp [apply_ite State.fixed]
@[simp] theorem leaveOff_fixed (s : State) (l : Fin 4) : (leaveOff l s).fixed = s.fixed := by
  unfold leaveOff
  try simp only
  repeat' split
  all_goals simp [apply_ite State.fixed]
@[simp] theorem applyPort_fixed (s : State) (l : Fin 4) : (applyPort l s).fixed = s.fixed := by
  unfold applyPort
  try simp only
  repeat' split
  all_goals simp [apply_ite State.fixed]
@[simp] theorem applyModes_fixed (s : State) (l : Fin 4) : (applyModes l s).fixed = s.fixed := by
  unfold applyModes
  simp only
  split
  · rw [startPair_fixed, forLines_keeps State.fixed _ (fun l s => applyPort_fixed s l)]
  · exact forLines_keeps State.fixed _ (fun l s => applyPort_fixed s l) _ _
@[simp] theorem recordLine_fixed (s : State) (m : Nat) (i : Fin 4) (l : Fin 4) : (recordLine m i l s).fixed = s.fixed := by
  unfold recordLine
  try simp only
  repeat' split
  all_goals simp [apply_ite State.fixed]
@[simp] theorem silencePort_fixed (s : State) (l : Fin 4) : (silencePort l s).fixed = s.fixed := by
  unfold silencePort
  try simp only
  repeat' split
  all_goals simp [apply_ite State.fixed]
@[simp] theorem lineOffSlot_fixed (s : State) (n : Fin 24) : (lineOffSlot n s).fixed = s.fixed := by
  unfold lineOffSlot
  try simp only
  repeat' split
  all_goals simp [apply_ite State.fixed]
/-- What the end of a line's reading can do: the even port of a loop that takes a frame from it goes back to where the frame found
it, or nothing happens. -/
theorem dropReception_cases (l : Fin 4) (s : State) :
    (∃ o, (s.port (partner l)).xstate = .receiving o ∧ s.looped (partner l) = true ∧
      (s.port (partner l)).rxSide = .secondary ∧ dropReception l s = afterStale (partner l) o s) ∨
    ((∀ o, (s.port (partner l)).xstate = .receiving o →
      s.looped (partner l) = false ∨ (s.port (partner l)).rxSide ≠ .secondary) ∧ dropReception l s = s) := by
  unfold dropReception
  simp only
  split
  · next o h =>
    by_cases c : s.looped (partner l) = true ∧ (s.port (partner l)).rxSide = .secondary
    · exact Or.inl ⟨o, h, c.1, c.2, by simp [c]⟩
    · refine Or.inr ⟨fun _ _ => ?_, by rw [if_neg]; simpa using c⟩
      by_cases a : s.looped (partner l) = true
      · exact Or.inr fun b => c ⟨a, b⟩
      · exact Or.inl (by simpa using a)
  · next h => exact Or.inr ⟨fun o ho => absurd ho (h o), rfl⟩
@[simp] theorem dropReception_fixed (s : State) (l : Fin 4) : (dropReception l s).fixed = s.fixed := by
  obtain ⟨o, -, -, -, h⟩ | ⟨-, h⟩ := dropReception_cases l s <;> rw [h]
  exact afterStale_fixed s _ o
@[simp] theorem goOff_fixed (s : State) (ns : List (Fin 24)) (l : Fin 4) : (goOff ns l s).fixed = s.fixed := by
  have h : ∀ (u : State) (v : Vector Bool 4), ({ u with editions := { u.editions with timeDue := v } } : State).fixed = u.fixed := fun _ _ => rfl
  have hf : ∀ u : State, (forSlots lineOffSlot ns u).fixed = u.fixed := fun u => forSlots_keeps State.fixed _ (fun n s => lineOffSlot_fixed s n) _ _
  have hg : ∀ (gs : List Group) (u : State), (gs.foldl (fun s g => endTurns (.group g.id) s) u).fixed = u.fixed := fun gs u => foldl_keeps State.fixed _ (fun s g => endTurns_fixed s _) _ _
  unfold goOff
  simp only
  rw [modPort_fixed, apply_ite State.fixed, splitOdd_fixed, ite_self]
  refine (h _ _).trans ?_
  rw [modArbiter_fixed, setGroups_fixed, hg, hf, silencePort_fixed, dropReception_fixed]
@[simp] theorem takeBackUnstarted_fixed (s : State) (l : Fin 4) : (takeBackUnstarted l s).fixed = s.fixed := by
  unfold takeBackUnstarted
  try simp only
  repeat' split
  all_goals simp [apply_ite State.fixed]
@[simp] theorem rebindPair_fixed (s : State) (l : Fin 4) : (rebindPair l s).fixed = s.fixed := by
  unfold rebindPair
  simp only
  rw [reachPrimary_fixed, modPort_fixed, forSlots_keeps State.fixed _ (fun n s => modSlot_fixed s n _)]
@[simp] theorem acceptLine_fixed (s : State) (l : Fin 4) (m : Nat) (i : Fin 4) : (acceptLine l m i s).fixed = s.fixed := by
  have h1 : ∀ (ls : List (Fin 4)) (u : State), (forLines (recordLine m i) ls u).fixed = u.fixed := fun ls u => forLines_keeps State.fixed _ (fun l s => recordLine_fixed s m i l) _ _
  have h2 : ∀ (f : Fin 4 → Fin 7) (ls : List (Fin 4)) (u : State), (forLines (fun k s => rateChanged (f k) k s) ls u).fixed = u.fixed := fun f ls u => forLines_keeps State.fixed _ (fun l s => rateChanged_fixed s _ l) _ _
  have h3 : ∀ (ns : List (Fin 24)) (ls : List (Fin 4)) (u : State), (forLines (goOff ns) ls u).fixed = u.fixed := fun ns ls u => forLines_keeps State.fixed _ (fun l s => goOff_fixed s ns l) _ _
  have h4 : ∀ (ls : List (Fin 4)) (u : State), (forLines (fun k s => if s.modeWaits k then takeBackUnstarted k s else s) ls u).fixed = u.fixed := fun ls u => forLines_keeps State.fixed _ (fun l s => by split <;> simp) _ _
  unfold acceptLine
  simp only
  split
  · rw [h3, h2]
    split <;> split <;> simp [h1]
  · rw [apply_ite State.fixed, applyModes_fixed, ite_self, h4, h2]
    split <;> split <;> simp [h1]

end Sys2Proof.Machine
end

