-- ==== Sys2Proof/Laws/Spine.lean ====
section
/-! SUPPORT. What no job, request or record changes: the engine state, the reset pin, the waiting commands, RUN, XBASE,
EVMASK and the descriptor copy; and that every operation keeps the canonical form of shared memory. -/

namespace Sys2Proof.Machine

/-- The fields that only the engine's own commands change. -/
structure Spine where
  engine : Engine
  resetLow : Bool
  pending : List Instr
  run : Bool
  xbase : Word
  evmask : Byte
  descriptor : Option Descriptor

/-- The spine of a state. -/
def State.spine (s : State) : Spine :=
  ⟨s.engine, s.resetLow, s.pending, s.regs.run, s.regs.xbase, s.regs.evmask, s.exch.descriptor⟩

theorem spine_of_fixed {s u : State} (h : s.fixed = u.fixed) : s.spine = u.spine := by
  obtain ⟨-, h1, h2, h3, h4, -, -, -, h5, h6, h7, -⟩ := of_fixed h
  simp only [State.spine, h1, h2, h3, h4, h5, h6, h7]

theorem spine_of_offStrip {t : Strip} {s u : State} (h : s.offStrip t = u.offStrip t) : s.spine = u.spine := by
  obtain ⟨-, h1, h2, h3, h4, h5, -, -, -, -, -, -, -, -, -, -, -, h6, h7⟩ := offStrip_eq h
  simp only [State.spine, h1, h2, h3, h4, h5, h6, h7]

end Sys2Proof.Machine
end

