-- ==== Sys2Proof/Laws/Unmoved.lean ====
section
/-! SUPPORT. The same, component by component: shared memory, the engine state, the exchange interface and the change
engine under each operation that leaves them alone, and the spine under all of them. -/

namespace Sys2Proof.Machine

@[simp] theorem modSlot_spine (s : State) (n : Fin 24) (f : Slot → Slot) : (s.modSlot n f).spine = s.spine :=
  spine_of_fixed (modSlot_fixed s n f)
@[simp] theorem setSlot_spine (s : State) (n : Fin 24) (v : Slot) : (s.setSlot n v).spine = s.spine :=
  spine_of_fixed (setSlot_fixed s n v)
@[simp] theorem modLineRoster_spine (s : State) (l : Fin 4) (f : LineRoster → LineRoster) : (s.modLineRoster l f).spine = s.spine :=
  spine_of_fixed (modLineRoster_fixed s l f)
@[simp] theorem modPort_spine (s : State) (l : Fin 4) (f : Port → Port) : (s.modPort l f).spine = s.spine :=
  spine_of_fixed (modPort_fixed s l f)
@[simp] theorem modArbiter_spine (s : State) (l : Fin 4) (f : Arbiter → Arbiter) : (s.modArbiter l f).spine = s.spine :=
  spine_of_fixed (modArbiter_fixed s l f)
@[simp] theorem setDelivery_spine (s : State) (n : Fin 24) (d : Option Delivery) : (s.setDelivery n d).spine = s.spine :=
  spine_of_fixed (setDelivery_fixed s n d)
@[simp] theorem modDelivery_spine (s : State) (n : Fin 24) (f : Delivery → Delivery) : (s.modDelivery n f).spine = s.spine :=
  spine_of_fixed (modDelivery_fixed s n f)
@[simp] theorem modMarks_spine (s : State) (n : Fin 24) (f : Marks → Marks) : (s.modMarks n f).spine = s.spine :=
  spine_of_fixed (modMarks_fixed s n f)
@[simp] theorem setGroups_spine (s : State) (gs : List Group) : (s.setGroups gs).spine = s.spine :=
  spine_of_fixed (setGroups_fixed s gs)
@[simp] theorem modGroup_spine (s : State) (i : Nat) (f : Group → Group) : (s.modGroup i f).spine = s.spine :=
  spine_of_fixed (modGroup_fixed s i f)
@[simp] theorem modGroup_mem (s : State) (i : Nat) (f : Group → Group) : (s.modGroup i f).mem = s.mem :=
  (of_fixed (modGroup_fixed s i f)).1
@[simp] theorem modGroup_engine (s : State) (i : Nat) (f : Group → Group) : (s.modGroup i f).engine = s.engine :=
  (of_fixed (modGroup_fixed s i f)).2.1
@[simp] theorem modGroup_exch (s : State) (i : Nat) (f : Group → Group) : (s.modGroup i f).exch = s.exch :=
  (of_fixed (modGroup_fixed s i f)).2.2.2.2.1
@[simp] theorem modGroup_change (s : State) (i : Nat) (f : Group → Group) : (s.modGroup i f).change = s.change :=
  (of_fixed (modGroup_fixed s i f)).2.2.2.2.2.1
@[simp] theorem setSweep_spine (s : State) (n : Fin 24) (v : Sweep) : (s.setSweep n v).spine = s.spine :=
  spine_of_fixed (setSweep_fixed s n v)
@[simp] theorem want_spine (s : State) (r : Fin 29) : (want r s).spine = s.spine :=
  spine_of_fixed (want_fixed s r)
@[simp] theorem awaitRecords_spine (s : State) (rs : List (Fin 29)) (a : WaitAct) : (awaitRecords rs a s).spine = s.spine :=
  spine_of_fixed (awaitRecords_fixed s rs a)
@[simp] theorem setNotice_spine (s : State) (n : Notice) : (setNotice n s).spine = s.spine :=
  spine_of_fixed (setNotice_fixed s n)
@[simp] theorem endTurns_spine (s : State) (t : Target) : (endTurns t s).spine = s.spine :=
  spine_of_fixed (endTurns_fixed s t)
@[simp] theorem endTurns_mem (s : State) (t : Target) : (endTurns t s).mem = s.mem :=
  (of_fixed (endTurns_fixed s t)).1
@[simp] theorem endTurns_engine (s : State) (t : Target) : (endTurns t s).engine = s.engine :=
  (of_fixed (endTurns_fixed s t)).2.1
@[simp] theorem endTurns_exch (s : State) (t : Target) : (endTurns t s).exch = s.exch :=
  (of_fixed (endTurns_fixed s t)).2.2.2.2.1
@[simp] theorem endTurns_change (s : State) (t : Target) : (endTurns t s).change = s.change :=
  (of_fixed (endTurns_fixed s t)).2.2.2.2.2.1
@[simp] theorem cutShort_spine (s : State) (n : Fin 24) : (cutShort n s).spine = s.spine :=
  spine_of_fixed (cutShort_fixed s n)
@[simp] theorem cutShort_mem (s : State) (n : Fin 24) : (cutShort n s).mem = s.mem :=
  (of_fixed (cutShort_fixed s n)).1
@[simp] theorem cutShort_engine (s : State) (n : Fin 24) : (cutShort n s).engine = s.engine :=
  (of_fixed (cutShort_fixed s n)).2.1
@[simp] theorem cutShort_exch (s : State) (n : Fin 24) : (cutShort n s).exch = s.exch :=
  (of_fixed (cutShort_fixed s n)).2.2.2.2.1
@[simp] theorem cutShort_change (s : State) (n : Fin 24) : (cutShort n s).change = s.change :=
  (of_fixed (cutShort_fixed s n)).2.2.2.2.2.1
@[simp] theorem dropSweep_spine (s : State) (n : Fin 24) : (dropSweep n s).spine = s.spine :=
  spine_of_fixed (dropSweep_fixed s n)
@[simp] theorem dropSweep_mem (s : State) (n : Fin 24) : (dropSweep n s).mem = s.mem :=
  (of_fixed (dropSweep_fixed s n)).1
@[simp] theorem dropSweep_engine (s : State) (n : Fin 24) : (dropSweep n s).engine = s.engine :=
  (of_fixed (dropSweep_fixed s n)).2.1
@[simp] theorem dropSweep_exch (s : State) (n : Fin 24) : (dropSweep n s).exch = s.exch :=
  (of_fixed (dropSweep_fixed s n)).2.2.2.2.1
@[simp] theorem dropSweep_change (s : State) (n : Fin 24) : (dropSweep n s).change = s.change :=
  (of_fixed (dropSweep_fixed s n)).2.2.2.2.2.1
@[simp] theorem insertUrgent_spine (s : State) (ps : List Nat) : (insertUrgent ps s).spine = s.spine :=
  spine_of_fixed (insertUrgent_fixed s ps)
@[simp] theorem insertUrgent_mem (s : State) (ps : List Nat) : (insertUrgent ps s).mem = s.mem :=
  (of_fixed (insertUrgent_fixed s ps)).1
@[simp] theorem insertUrgent_engine (s : State) (ps : List Nat) : (insertUrgent ps s).engine = s.engine :=
  (of_fixed (insertUrgent_fixed s ps)).2.1
@[simp] theorem insertUrgent_exch (s : State) (ps : List Nat) : (insertUrgent ps s).exch = s.exch :=
  (of_fixed (insertUrgent_fixed s ps)).2.2.2.2.1
@[simp] theorem insertUrgent_change (s : State) (ps : List Nat) : (insertUrgent ps s).change = s.change :=
  (of_fixed (insertUrgent_fixed s ps)).2.2.2.2.2.1
@[simp] theorem tendGroups_spine (s : State) : (tendGroups s).spine = s.spine :=
  spine_of_fixed (tendGroups_fixed s)
@[simp] theorem tendGroups_mem (s : State) : (tendGroups s).mem = s.mem :=
  (of_fixed (tendGroups_fixed s)).1
@[simp] theorem tendGroups_engine (s : State) : (tendGroups s).engine = s.engine :=
  (of_fixed (tendGroups_fixed s)).2.1
@[simp] theorem tendGroups_exch (s : State) : (tendGroups s).exch = s.exch :=
  (of_fixed (tendGroups_fixed s)).2.2.2.2.1
@[simp] theorem tendGroups_change (s : State) : (tendGroups s).change = s.change :=
  (of_fixed (tendGroups_fixed s)).2.2.2.2.2.1
@[simp] theorem leaveGroup_spine (s : State) (n : Fin 24) : (leaveGroup n s).spine = s.spine :=
  spine_of_fixed (leaveGroup_fixed s n)
@[simp] theorem leaveGroup_mem (s : State) (n : Fin 24) : (leaveGroup n s).mem = s.mem :=
  (of_fixed (leaveGroup_fixed s n)).1
@[simp] theorem leaveGroup_engine (s : State) (n : Fin 24) : (leaveGroup n s).engine = s.engine :=
  (of_fixed (leaveGroup_fixed s n)).2.1
@[simp] theorem leaveGroup_exch (s : State) (n : Fin 24) : (leaveGroup n s).exch = s.exch :=
  (of_fixed (leaveGroup_fixed s n)).2.2.2.2.1
@[simp] theorem leaveGroup_change (s : State) (n : Fin 24) : (leaveGroup n s).change = s.change :=
  (of_fixed (leaveGroup_fixed s n)).2.2.2.2.2.1
@[simp] theorem memberOpened_spine (s : State) (n : Fin 24) : (memberOpened n s).spine = s.spine :=
  spine_of_fixed (memberOpened_fixed s n)
@[simp] theorem memberOpened_mem (s : State) (n : Fin 24) : (memberOpened n s).mem = s.mem :=
  (of_fixed (memberOpened_fixed s n)).1
@[simp] theorem memberOpened_engine (s : State) (n : Fin 24) : (memberOpened n s).engine = s.engine :=
  (of_fixed (memberOpened_fixed s n)).2.1
@[simp] theorem memberOpened_exch (s : State) (n : Fin 24) : (memberOpened n s).exch = s.exch :=
  (of_fixed (memberOpened_fixed s n)).2.2.2.2.1
@[simp] theorem memberOpened_change (s : State) (n : Fin 24) : (memberOpened n s).change = s.change :=
  (of_fixed (memberOpened_fixed s n)).2.2.2.2.2.1
@[simp] theorem unlist_spine (s : State) (n : Fin 24) : (unlist n s).spine = s.spine :=
  spine_of_fixed (unlist_fixed s n)
@[simp] theorem dropDelivery_spine (s : State) (n : Fin 24) : (dropDelivery n s).spine = s.spine :=
  spine_of_fixed (dropDelivery_fixed s n)
@[simp] theorem dropDelivery_mem (s : State) (n : Fin 24) : (dropDelivery n s).mem = s.mem :=
  (of_fixed (dropDelivery_fixed s n)).1
@[simp] theorem dropDelivery_engine (s : State) (n : Fin 24) : (dropDelivery n s).engine = s.engine :=
  (of_fixed (dropDelivery_fixed s n)).2.1
@[simp] theorem dropDelivery_exch (s : State) (n : Fin 24) : (dropDelivery n s).exch = s.exch :=
  (of_fixed (dropDelivery_fixed s n)).2.2.2.2.1
@[simp] theorem dropDelivery_change (s : State) (n : Fin 24) : (dropDelivery n s).change = s.change :=
  (of_fixed (dropDelivery_fixed s n)).2.2.2.2.2.1
@[simp] theorem endDelivery_spine (s : State) (n : Fin 24) : (endDelivery n s).spine = s.spine :=
  spine_of_fixed (endDelivery_fixed s n)
@[simp] theorem endDelivery_mem (s : State) (n : Fin 24) : (endDelivery n s).mem = s.mem :=
  (of_fixed (endDelivery_fixed s n)).1
@[simp] theorem endDelivery_engine (s : State) (n : Fin 24) : (endDelivery n s).engine = s.engine :=
  (of_fixed (endDelivery_fixed s n)).2.1
@[simp] theorem endDelivery_exch (s : State) (n : Fin 24) : (endDelivery n s).exch = s.exch :=
  (of_fixed (endDelivery_fixed s n)).2.2.2.2.1
@[simp] theorem endDelivery_change (s : State) (n : Fin 24) : (endDelivery n s).change = s.change :=
  (of_fixed (endDelivery_fixed s n)).2.2.2.2.2.1
@[simp] theorem withdraw_spine (s : State) (n : Fin 24) (p : Work → Bool) (d : Bool) : (withdraw n p d s).spine = s.spine :=
  spine_of_fixed (withdraw_fixed s n p d)
@[simp] theorem withdraw_mem (s : State) (n : Fin 24) (p : Work → Bool) (d : Bool) : (withdraw n p d s).mem = s.mem :=
  (of_fixed (withdraw_fixed s n p d)).1
@[simp] theorem withdraw_engine (s : State) (n : Fin 24) (p : Work → Bool) (d : Bool) : (withdraw n p d s).engine = s.engine :=
  (of_fixed (withdraw_fixed s n p d)).2.1
@[simp] theorem withdraw_exch (s : State) (n : Fin 24) (p : Work → Bool) (d : Bool) : (withdraw n p d s).exch = s.exch :=
  (of_fixed (withdraw_fixed s n p d)).2.2.2.2.1
@[simp] theorem withdraw_change (s : State) (n : Fin 24) (p : Work → Bool) (d : Bool) : (withdraw n p d s).change = s.change :=
  (of_fixed (withdraw_fixed s n p d)).2.2.2.2.2.1
@[simp] theorem abandon_spine (s : State) (n : Fin 24) : (abandon n s).spine = s.spine :=
  spine_of_fixed (abandon_fixed s n)
@[simp] theorem abandon_mem (s : State) (n : Fin 24) : (abandon n s).mem = s.mem :=
  (of_fixed (abandon_fixed s n)).1
@[simp] theorem abandon_engine (s : State) (n : Fin 24) : (abandon n s).engine = s.engine :=
  (of_fixed (abandon_fixed s n)).2.1
@[simp] theorem abandon_exch (s : State) (n : Fin 24) : (abandon n s).exch = s.exch :=
  (of_fixed (abandon_fixed s n)).2.2.2.2.1
@[simp] theorem abandon_change (s : State) (n : Fin 24) : (abandon n s).change = s.change :=
  (of_fixed (abandon_fixed s n)).2.2.2.2.2.1
@[simp] theorem abandonWhere_spine (s : State) (p : Delivery → Bool) : (abandonWhere p s).spine = s.spine :=
  spine_of_fixed (abandonWhere_fixed s p)
@[simp] theorem abandonWhere_mem (s : State) (p : Delivery → Bool) : (abandonWhere p s).mem = s.mem :=
  (of_fixed (abandonWhere_fixed s p)).1
@[simp] theorem abandonWhere_engine (s : State) (p : Delivery → Bool) : (abandonWhere p s).engine = s.engine :=
  (of_fixed (abandonWhere_fixed s p)).2.1
@[simp] theorem abandonWhere_exch (s : State) (p : Delivery → Bool) : (abandonWhere p s).exch = s.exch :=
  (of_fixed (abandonWhere_fixed s p)).2.2.2.2.1
@[simp] theorem abandonWhere_change (s : State) (p : Delivery → Bool) : (abandonWhere p s).change = s.change :=
  (of_fixed (abandonWhere_fixed s p)).2.2.2.2.2.1
@[simp] theorem endGroups_spine (s : State) (c : Cls) : (endGroups c s).spine = s.spine :=
  spine_of_fixed (endGroups_fixed s c)
@[simp] theorem endGroups_mem (s : State) (c : Cls) : (endGroups c s).mem = s.mem :=
  (of_fixed (endGroups_fixed s c)).1
@[simp] theorem endGroups_engine (s : State) (c : Cls) : (endGroups c s).engine = s.engine :=
  (of_fixed (endGroups_fixed s c)).2.1
@[simp] theorem endGroups_exch (s : State) (c : Cls) : (endGroups c s).exch = s.exch :=
  (of_fixed (endGroups_fixed s c)).2.2.2.2.1
@[simp] theorem endGroups_change (s : State) (c : Cls) : (endGroups c s).change = s.change :=
  (of_fixed (endGroups_fixed s c)).2.2.2.2.2.1
@[simp] theorem boundaries_spine (s : State) : (boundaries s).spine = s.spine :=
  spine_of_fixed (boundaries_fixed s)
@[simp] theorem boundaries_mem (s : State) : (boundaries s).mem = s.mem :=
  (of_fixed (boundaries_fixed s)).1
@[simp] theorem boundaries_engine (s : State) : (boundaries s).engine = s.engine :=
  (of_fixed (boundaries_fixed s)).2.1
@[simp] theorem boundaries_exch (s : State) : (boundaries s).exch = s.exch :=
  (of_fixed (boundaries_fixed s)).2.2.2.2.1
@[simp] theorem boundaries_change (s : State) : (boundaries s).change = s.change :=
  (of_fixed (boundaries_fixed s)).2.2.2.2.2.1
@[simp] theorem settle_spine (s : State) (o : State) : (settle o s).spine = s.spine :=
  spine_of_fixed (settle_fixed s o)
@[simp] theorem raise_spine (s : State) (n : Notice) : (raise n s).spine = s.spine :=
  spine_of_fixed (raise_fixed s n)
@[simp] theorem raise_engine (s : State) (n : Notice) : (raise n s).engine = s.engine :=
  (of_fixed (raise_fixed s n)).2.1
@[simp] theorem raise_exch (s : State) (n : Notice) : (raise n s).exch = s.exch :=
  (of_fixed (raise_fixed s n)).2.2.2.2.1
@[simp] theorem raise_change (s : State) (n : Notice) : (raise n s).change = s.change :=
  (of_fixed (raise_fixed s n)).2.2.2.2.2.1
@[simp] theorem wantAll_spine (s : State) (rs : List (Fin 29)) : (wantAll rs s).spine = s.spine :=
  spine_of_fixed (wantAll_fixed s rs)
@[simp] theorem wantAll_mem (s : State) (rs : List (Fin 29)) : (wantAll rs s).mem = s.mem :=
  (of_fixed (wantAll_fixed s rs)).1
@[simp] theorem wantAll_engine (s : State) (rs : List (Fin 29)) : (wantAll rs s).engine = s.engine :=
  (of_fixed (wantAll_fixed s rs)).2.1
@[simp] theorem wantAll_exch (s : State) (rs : List (Fin 29)) : (wantAll rs s).exch = s.exch :=
  (of_fixed (wantAll_fixed s rs)).2.2.2.2.1
@[simp] theorem wantAll_change (s : State) (rs : List (Fin 29)) : (wantAll rs s).change = s.change :=
  (of_fixed (wantAll_fixed s rs)).2.2.2.2.2.1
@[simp] theorem raiseAfter_spine (s : State) (n : Notice) (rs : List (Fin 29)) : (raiseAfter n rs s).spine = s.spine :=
  spine_of_fixed (raiseAfter_fixed s n rs)
@[simp] theorem raiseAfter_mem (s : State) (n : Notice) (rs : List (Fin 29)) : (raiseAfter n rs s).mem = s.mem :=
  (of_fixed (raiseAfter_fixed s n rs)).1
@[simp] theorem raiseAfter_engine (s : State) (n : Notice) (rs : List (Fin 29)) : (raiseAfter n rs s).engine = s.engine :=
  (of_fixed (raiseAfter_fixed s n rs)).2.1
@[simp] theorem raiseAfter_exch (s : State) (n : Notice) (rs : List (Fin 29)) : (raiseAfter n rs s).exch = s.exch :=
  (of_fixed (raiseAfter_fixed s n rs)).2.2.2.2.1
@[simp] theorem raiseAfter_change (s : State) (n : Notice) (rs : List (Fin 29)) : (raiseAfter n rs s).change = s.change :=
  (of_fixed (raiseAfter_fixed s n rs)).2.2.2.2.2.1
@[simp] theorem raiseForSlot_spine (s : State) (n : Notice) (k : Fin 24) : (raiseForSlot n k s).spine = s.spine :=
  spine_of_fixed (raiseForSlot_fixed s n k)
@[simp] theorem raiseForSlot_mem (s : State) (n : Notice) (k : Fin 24) : (raiseForSlot n k s).mem = s.mem :=
  (of_fixed (raiseForSlot_fixed s n k)).1
@[simp] theorem raiseForSlot_engine (s : State) (n : Notice) (k : Fin 24) : (raiseForSlot n k s).engine = s.engine :=
  (of_fixed (raiseForSlot_fixed s n k)).2.1
@[simp] theorem raiseForSlot_exch (s : State) (n : Notice) (k : Fin 24) : (raiseForSlot n k s).exch = s.exch :=
  (of_fixed (raiseForSlot_fixed s n k)).2.2.2.2.1
@[simp] theorem raiseForSlot_change (s : State) (n : Notice) (k : Fin 24) : (raiseForSlot n k s).change = s.change :=
  (of_fixed (raiseForSlot_fixed s n k)).2.2.2.2.2.1
@[simp] theorem refreshServed_spine (s : State) (n : Fin 24) : (refreshServed n s).spine = s.spine :=
  spine_of_fixed (refreshServed_fixed s n)
@[simp] theorem refreshServed_mem (s : State) (n : Fin 24) : (refreshServed n s).mem = s.mem :=
  (of_fixed (refreshServed_fixed s n)).1
@[simp] theorem refreshServed_engine (s : State) (n : Fin 24) : (refreshServed n s).engine = s.engine :=
  (of_fixed (refreshServed_fixed s n)).2.1
@[simp] theorem refreshServed_exch (s : State) (n : Fin 24) : (refreshServed n s).exch = s.exch :=
  (of_fixed (refreshServed_fixed s n)).2.2.2.2.1
@[simp] theorem refreshServed_change (s : State) (n : Fin 24) : (refreshServed n s).change = s.change :=
  (of_fixed (refreshServed_fixed s n)).2.2.2.2.2.1
@[simp] theorem refreshIncapable_spine (s : State) (n : Fin 24) : (refreshIncapable n s).spine = s.spine :=
  spine_of_fixed (refreshIncapable_fixed s n)
@[simp] theorem refreshIncapable_mem (s : State) (n : Fin 24) : (refreshIncapable n s).mem = s.mem :=
  (of_fixed (refreshIncapable_fixed s n)).1
@[simp] theorem refreshIncapable_engine (s : State) (n : Fin 24) : (refreshIncapable n s).engine = s.engine :=
  (of_fixed (refreshIncapable_fixed s n)).2.1
@[simp] theorem refreshIncapable_exch (s : State) (n : Fin 24) : (refreshIncapable n s).exch = s.exch :=
  (of_fixed (refreshIncapable_fixed s n)).2.2.2.2.1
@[simp] theorem refreshIncapable_change (s : State) (n : Fin 24) : (refreshIncapable n s).change = s.change :=
  (of_fixed (refreshIncapable_fixed s n)).2.2.2.2.2.1
@[simp] theorem reevaluate_spine (s : State) (n : Fin 24) : (reevaluate n s).spine = s.spine :=
  spine_of_fixed (reevaluate_fixed s n)
@[simp] theorem reevaluate_mem (s : State) (n : Fin 24) : (reevaluate n s).mem = s.mem :=
  (of_fixed (reevaluate_fixed s n)).1
@[simp] theorem reevaluate_engine (s : State) (n : Fin 24) : (reevaluate n s).engine = s.engine :=
  (of_fixed (reevaluate_fixed s n)).2.1
@[simp] theorem reevaluate_exch (s : State) (n : Fin 24) : (reevaluate n s).exch = s.exch :=
  (of_fixed (reevaluate_fixed s n)).2.2.2.2.1
@[simp] theorem reevaluate_change (s : State) (n : Fin 24) : (reevaluate n s).change = s.change :=
  (of_fixed (reevaluate_fixed s n)).2.2.2.2.2.1
@[simp] theorem reevaluateAll_spine (s : State) : (reevaluateAll s).spine = s.spine :=
  spine_of_fixed (reevaluateAll_fixed s)
@[simp] theorem reevaluateAll_mem (s : State) : (reevaluateAll s).mem = s.mem :=
  (of_fixed (reevaluateAll_fixed s)).1
@[simp] theorem reevaluateAll_engine (s : State) : (reevaluateAll s).engine = s.engine :=
  (of_fixed (reevaluateAll_fixed s)).2.1
@[simp] theorem reevaluateAll_exch (s : State) : (reevaluateAll s).exch = s.exch :=
  (of_fixed (reevaluateAll_fixed s)).2.2.2.2.1
@[simp] theorem reevaluateAll_change (s : State) : (reevaluateAll s).change = s.change :=
  (of_fixed (reevaluateAll_fixed s)).2.2.2.2.2.1
@[simp] theorem identified_spine (s : State) (n : Fin 24) : (identified n s).spine = s.spine :=
  spine_of_fixed (identified_fixed s n)
@[simp] theorem identified_mem (s : State) (n : Fin 24) : (identified n s).mem = s.mem :=
  (of_fixed (identified_fixed s n)).1
@[simp] theorem identified_engine (s : State) (n : Fin 24) : (identified n s).engine = s.engine :=
  (of_fixed (identified_fixed s n)).2.1
@[simp] theorem identified_exch (s : State) (n : Fin 24) : (identified n s).exch = s.exch :=
  (of_fixed (identified_fixed s n)).2.2.2.2.1
@[simp] theorem identified_change (s : State) (n : Fin 24) : (identified n s).change = s.change :=
  (of_fixed (identified_fixed s n)).2.2.2.2.2.1
@[simp] theorem setKeepalive_spine (s : State) (n : Fin 24) : (setKeepalive n s).spine = s.spine :=
  spine_of_fixed (setKeepalive_fixed s n)
@[simp] theorem setKeepalive_mem (s : State) (n : Fin 24) : (setKeepalive n s).mem = s.mem :=
  (of_fixed (setKeepalive_fixed s n)).1
@[simp] theorem setKeepalive_engine (s : State) (n : Fin 24) : (setKeepalive n s).engine = s.engine :=
  (of_fixed (setKeepalive_fixed s n)).2.1
@[simp] theorem setKeepalive_exch (s : State) (n : Fin 24) : (setKeepalive n s).exch = s.exch :=
  (of_fixed (setKeepalive_fixed s n)).2.2.2.2.1
@[simp] theorem setKeepalive_change (s : State) (n : Fin 24) : (setKeepalive n s).change = s.change :=
  (of_fixed (setKeepalive_fixed s n)).2.2.2.2.2.1
@[simp] theorem pollNow_spine (s : State) (n : Fin 24) : (pollNow n s).spine = s.spine :=
  spine_of_fixed (pollNow_fixed s n)
@[simp] theorem pollNow_mem (s : State) (n : Fin 24) : (pollNow n s).mem = s.mem :=
  (of_fixed (pollNow_fixed s n)).1
@[simp] theorem pollNow_engine (s : State) (n : Fin 24) : (pollNow n s).engine = s.engine :=
  (of_fixed (pollNow_fixed s n)).2.1
@[simp] theorem pollNow_exch (s : State) (n : Fin 24) : (pollNow n s).exch = s.exch :=
  (of_fixed (pollNow_fixed s n)).2.2.2.2.1
@[simp] theorem pollNow_change (s : State) (n : Fin 24) : (pollNow n s).change = s.change :=
  (of_fixed (pollNow_fixed s n)).2.2.2.2.2.1
@[simp] theorem toSilent_spine (s : State) (n : Fin 24) : (toSilent n s).spine = s.spine :=
  spine_of_fixed (toSilent_fixed s n)
@[simp] theorem toSilent_mem (s : State) (n : Fin 24) : (toSilent n s).mem = s.mem :=
  (of_fixed (toSilent_fixed s n)).1
@[simp] theorem toSilent_engine (s : State) (n : Fin 24) : (toSilent n s).engine = s.engine :=
  (of_fixed (toSilent_fixed s n)).2.1
@[simp] theorem toSilent_exch (s : State) (n : Fin 24) : (toSilent n s).exch = s.exch :=
  (of_fixed (toSilent_fixed s n)).2.2.2.2.1
@[simp] theorem toSilent_change (s : State) (n : Fin 24) : (toSilent n s).change = s.change :=
  (of_fixed (toSilent_fixed s n)).2.2.2.2.2.1
@[simp] theorem quarantine_spine (s : State) (n : Fin 24) (r : Reason) : (quarantine n r s).spine = s.spine :=
  spine_of_fixed (quarantine_fixed s n r)
@[simp] theorem quarantine_mem (s : State) (n : Fin 24) (r : Reason) : (quarantine n r s).mem = s.mem :=
  (of_fixed (quarantine_fixed s n r)).1
@[simp] theorem quarantine_engine (s : State) (n : Fin 24) (r : Reason) : (quarantine n r s).engine = s.engine :=
  (of_fixed (quarantine_fixed s n r)).2.1
@[simp] theorem quarantine_exch (s : State) (n : Fin 24) (r : Reason) : (quarantine n r s).exch = s.exch :=
  (of_fixed (quarantine_fixed s n r)).2.2.2.2.1
@[simp] theorem quarantine_change (s : State) (n : Fin 24) (r : Reason) : (quarantine n r s).change = s.change :=
  (of_fixed (quarantine_fixed s n r)).2.2.2.2.2.1
@[simp] theorem toIdentifying_spine (s : State) (n : Fin 24) (st : Status) : (toIdentifying n st s).spine = s.spine :=
  spine_of_fixed (toIdentifying_fixed s n st)
@[simp] theorem toIdentifying_mem (s : State) (n : Fin 24) (st : Status) : (toIdentifying n st s).mem = s.mem :=
  (of_fixed (toIdentifying_fixed s n st)).1
@[simp] theorem toIdentifying_engine (s : State) (n : Fin 24) (st : Status) : (toIdentifying n st s).engine = s.engine :=
  (of_fixed (toIdentifying_fixed s n st)).2.1
@[simp] theorem toIdentifying_exch (s : State) (n : Fin 24) (st : Status) : (toIdentifying n st s).exch = s.exch :=
  (of_fixed (toIdentifying_fixed s n st)).2.2.2.2.1
@[simp] theorem toIdentifying_change (s : State) (n : Fin 24) (st : Status) : (toIdentifying n st s).change = s.change :=
  (of_fixed (toIdentifying_fixed s n st)).2.2.2.2.2.1
@[simp] theorem rosterEvent_spine (s : State) (n : Fin 24) : (rosterEvent n s).spine = s.spine :=
  spine_of_fixed (rosterEvent_fixed s n)
@[simp] theorem rosterEvent_mem (s : State) (n : Fin 24) : (rosterEvent n s).mem = s.mem :=
  (of_fixed (rosterEvent_fixed s n)).1
@[simp] theorem rosterEvent_engine (s : State) (n : Fin 24) : (rosterEvent n s).engine = s.engine :=
  (of_fixed (rosterEvent_fixed s n)).2.1
@[simp] theorem rosterEvent_exch (s : State) (n : Fin 24) : (rosterEvent n s).exch = s.exch :=
  (of_fixed (rosterEvent_fixed s n)).2.2.2.2.1
@[simp] theorem rosterEvent_change (s : State) (n : Fin 24) : (rosterEvent n s).change = s.change :=
  (of_fixed (rosterEvent_fixed s n)).2.2.2.2.2.1
@[simp] theorem rosterNote_spine (s : State) (n : Fin 24) : (rosterNote n s).spine = s.spine :=
  spine_of_fixed (rosterNote_fixed s n)
@[simp] theorem rosterNote_mem (s : State) (n : Fin 24) : (rosterNote n s).mem = s.mem :=
  (of_fixed (rosterNote_fixed s n)).1
@[simp] theorem rosterNote_engine (s : State) (n : Fin 24) : (rosterNote n s).engine = s.engine :=
  (of_fixed (rosterNote_fixed s n)).2.1
@[simp] theorem rosterNote_exch (s : State) (n : Fin 24) : (rosterNote n s).exch = s.exch :=
  (of_fixed (rosterNote_fixed s n)).2.2.2.2.1
@[simp] theorem rosterNote_change (s : State) (n : Fin 24) : (rosterNote n s).change = s.change :=
  (of_fixed (rosterNote_fixed s n)).2.2.2.2.2.1
@[simp] theorem backOff_spine (s : State) (n : Fin 24) (t : Time) : (backOff n t s).spine = s.spine :=
  spine_of_fixed (backOff_fixed s n t)
@[simp] theorem backOff_mem (s : State) (n : Fin 24) (t : Time) : (backOff n t s).mem = s.mem :=
  (of_fixed (backOff_fixed s n t)).1
@[simp] theorem backOff_engine (s : State) (n : Fin 24) (t : Time) : (backOff n t s).engine = s.engine :=
  (of_fixed (backOff_fixed s n t)).2.1
@[simp] theorem backOff_exch (s : State) (n : Fin 24) (t : Time) : (backOff n t s).exch = s.exch :=
  (of_fixed (backOff_fixed s n t)).2.2.2.2.1
@[simp] theorem backOff_change (s : State) (n : Fin 24) (t : Time) : (backOff n t s).change = s.change :=
  (of_fixed (backOff_fixed s n t)).2.2.2.2.2.1
@[simp] theorem count_spine (s : State) (n : Fin 24) (f : Counters → Counters) : (count n f s).spine = s.spine :=
  spine_of_fixed (count_fixed s n f)
@[simp] theorem count_mem (s : State) (n : Fin 24) (f : Counters → Counters) : (count n f s).mem = s.mem :=
  (of_fixed (count_fixed s n f)).1
@[simp] theorem count_engine (s : State) (n : Fin 24) (f : Counters → Counters) : (count n f s).engine = s.engine :=
  (of_fixed (count_fixed s n f)).2.1
@[simp] theorem count_exch (s : State) (n : Fin 24) (f : Counters → Counters) : (count n f s).exch = s.exch :=
  (of_fixed (count_fixed s n f)).2.2.2.2.1
@[simp] theorem count_change (s : State) (n : Fin 24) (f : Counters → Counters) : (count n f s).change = s.change :=
  (of_fixed (count_fixed s n f)).2.2.2.2.2.1
@[simp] theorem countFailure_spine (s : State) (n : Fin 24) : (countFailure n s).spine = s.spine :=
  spine_of_fixed (countFailure_fixed s n)
@[simp] theorem countFailure_mem (s : State) (n : Fin 24) : (countFailure n s).mem = s.mem :=
  (of_fixed (countFailure_fixed s n)).1
@[simp] theorem countFailure_engine (s : State) (n : Fin 24) : (countFailure n s).engine = s.engine :=
  (of_fixed (countFailure_fixed s n)).2.1
@[simp] theorem countFailure_exch (s : State) (n : Fin 24) : (countFailure n s).exch = s.exch :=
  (of_fixed (countFailure_fixed s n)).2.2.2.2.1
@[simp] theorem countFailure_change (s : State) (n : Fin 24) : (countFailure n s).change = s.change :=
  (of_fixed (countFailure_fixed s n)).2.2.2.2.2.1
@[simp] theorem deliveryFailure_spine (s : State) (n : Fin 24) : (deliveryFailure n s).spine = s.spine :=
  spine_of_fixed (deliveryFailure_fixed s n)
@[simp] theorem deliveryFailure_mem (s : State) (n : Fin 24) : (deliveryFailure n s).mem = s.mem :=
  (of_fixed (deliveryFailure_fixed s n)).1
@[simp] theorem deliveryFailure_engine (s : State) (n : Fin 24) : (deliveryFailure n s).engine = s.engine :=
  (of_fixed (deliveryFailure_fixed s n)).2.1
@[simp] theorem deliveryFailure_exch (s : State) (n : Fin 24) : (deliveryFailure n s).exch = s.exch :=
  (of_fixed (deliveryFailure_fixed s n)).2.2.2.2.1
@[simp] theorem deliveryFailure_change (s : State) (n : Fin 24) : (deliveryFailure n s).change = s.change :=
  (of_fixed (deliveryFailure_fixed s n)).2.2.2.2.2.1
@[simp] theorem missed_spine (s : State) (n : Fin 24) : (missed n s).spine = s.spine :=
  spine_of_fixed (missed_fixed s n)
@[simp] theorem missed_mem (s : State) (n : Fin 24) : (missed n s).mem = s.mem :=
  (of_fixed (missed_fixed s n)).1
@[simp] theorem missed_engine (s : State) (n : Fin 24) : (missed n s).engine = s.engine :=
  (of_fixed (missed_fixed s n)).2.1
@[simp] theorem missed_exch (s : State) (n : Fin 24) : (missed n s).exch = s.exch :=
  (of_fixed (missed_fixed s n)).2.2.2.2.1
@[simp] theorem missed_change (s : State) (n : Fin 24) : (missed n s).change = s.change :=
  (of_fixed (missed_fixed s n)).2.2.2.2.2.1
@[simp] theorem recordStatus_spine (s : State) (n : Fin 24) (st : Status) : (recordStatus n st s).spine = s.spine :=
  spine_of_fixed (recordStatus_fixed s n st)
@[simp] theorem recordStatus_mem (s : State) (n : Fin 24) (st : Status) : (recordStatus n st s).mem = s.mem :=
  (of_fixed (recordStatus_fixed s n st)).1
@[simp] theorem recordStatus_engine (s : State) (n : Fin 24) (st : Status) : (recordStatus n st s).engine = s.engine :=
  (of_fixed (recordStatus_fixed s n st)).2.1
@[simp] theorem recordStatus_exch (s : State) (n : Fin 24) (st : Status) : (recordStatus n st s).exch = s.exch :=
  (of_fixed (recordStatus_fixed s n st)).2.2.2.2.1
@[simp] theorem recordStatus_change (s : State) (n : Fin 24) (st : Status) : (recordStatus n st s).change = s.change :=
  (of_fixed (recordStatus_fixed s n st)).2.2.2.2.2.1
@[simp] theorem forceReload_spine (s : State) (n : Fin 24) : (forceReload n s).spine = s.spine :=
  spine_of_fixed (forceReload_fixed s n)
@[simp] theorem forceReload_mem (s : State) (n : Fin 24) : (forceReload n s).mem = s.mem :=
  (of_fixed (forceReload_fixed s n)).1
@[simp] theorem forceReload_engine (s : State) (n : Fin 24) : (forceReload n s).engine = s.engine :=
  (of_fixed (forceReload_fixed s n)).2.1
@[simp] theorem forceReload_exch (s : State) (n : Fin 24) : (forceReload n s).exch = s.exch :=
  (of_fixed (forceReload_fixed s n)).2.2.2.2.1
@[simp] theorem forceReload_change (s : State) (n : Fin 24) : (forceReload n s).change = s.change :=
  (of_fixed (forceReload_fixed s n)).2.2.2.2.2.1
@[simp] theorem pin_spine (s : State) (n : Fin 24) (b : Fin 4 × Nat) (e : BitVec 64) (f : Bool) : (pin n b e f s).spine = s.spine :=
  spine_of_fixed (pin_fixed s n b e f)
@[simp] theorem pin_mem (s : State) (n : Fin 24) (b : Fin 4 × Nat) (e : BitVec 64) (f : Bool) : (pin n b e f s).mem = s.mem :=
  (of_fixed (pin_fixed s n b e f)).1
@[simp] theorem pin_engine (s : State) (n : Fin 24) (b : Fin 4 × Nat) (e : BitVec 64) (f : Bool) : (pin n b e f s).engine = s.engine :=
  (of_fixed (pin_fixed s n b e f)).2.1
@[simp] theorem pin_exch (s : State) (n : Fin 24) (b : Fin 4 × Nat) (e : BitVec 64) (f : Bool) : (pin n b e f s).exch = s.exch :=
  (of_fixed (pin_fixed s n b e f)).2.2.2.2.1
@[simp] theorem pin_change (s : State) (n : Fin 24) (b : Fin 4 × Nat) (e : BitVec 64) (f : Bool) : (pin n b e f s).change = s.change :=
  (of_fixed (pin_fixed s n b e f)).2.2.2.2.2.1
@[simp] theorem free_spine (s : State) (n : Fin 24) : (free n s).spine = s.spine :=
  spine_of_fixed (free_fixed s n)
@[simp] theorem free_mem (s : State) (n : Fin 24) : (free n s).mem = s.mem :=
  (of_fixed (free_fixed s n)).1
@[simp] theorem free_engine (s : State) (n : Fin 24) : (free n s).engine = s.engine :=
  (of_fixed (free_fixed s n)).2.1
@[simp] theorem free_exch (s : State) (n : Fin 24) : (free n s).exch = s.exch :=
  (of_fixed (free_fixed s n)).2.2.2.2.1
@[simp] theorem free_change (s : State) (n : Fin 24) : (free n s).change = s.change :=
  (of_fixed (free_fixed s n)).2.2.2.2.2.1
@[simp] theorem releaseQuarantine_spine (s : State) (n : Fin 24) : (releaseQuarantine n s).spine = s.spine :=
  spine_of_fixed (releaseQuarantine_fixed s n)
@[simp] theorem releaseQuarantine_mem (s : State) (n : Fin 24) : (releaseQuarantine n s).mem = s.mem :=
  (of_fixed (releaseQuarantine_fixed s n)).1
@[simp] theorem releaseQuarantine_engine (s : State) (n : Fin 24) : (releaseQuarantine n s).engine = s.engine :=
  (of_fixed (releaseQuarantine_fixed s n)).2.1
@[simp] theorem releaseQuarantine_exch (s : State) (n : Fin 24) : (releaseQuarantine n s).exch = s.exch :=
  (of_fixed (releaseQuarantine_fixed s n)).2.2.2.2.1
@[simp] theorem releaseQuarantine_change (s : State) (n : Fin 24) : (releaseQuarantine n s).change = s.change :=
  (of_fixed (releaseQuarantine_fixed s n)).2.2.2.2.2.1
@[simp] theorem resync_spine (s : State) (n : Fin 24) : (resync n s).spine = s.spine :=
  spine_of_fixed (resync_fixed s n)
@[simp] theorem resync_mem (s : State) (n : Fin 24) : (resync n s).mem = s.mem :=
  (of_fixed (resync_fixed s n)).1
@[simp] theorem resync_engine (s : State) (n : Fin 24) : (resync n s).engine = s.engine :=
  (of_fixed (resync_fixed s n)).2.1
@[simp] theorem resync_exch (s : State) (n : Fin 24) : (resync n s).exch = s.exch :=
  (of_fixed (resync_fixed s n)).2.2.2.2.1
@[simp] theorem resync_change (s : State) (n : Fin 24) : (resync n s).change = s.change :=
  (of_fixed (resync_fixed s n)).2.2.2.2.2.1
@[simp] theorem compareReport_spine (s : State) (n : Fin 24) (h : HeldReport) : (compareReport n h s).spine = s.spine :=
  spine_of_fixed (compareReport_fixed s n h)
@[simp] theorem compareReport_mem (s : State) (n : Fin 24) (h : HeldReport) : (compareReport n h s).mem = s.mem :=
  (of_fixed (compareReport_fixed s n h)).1
@[simp] theorem compareReport_engine (s : State) (n : Fin 24) (h : HeldReport) : (compareReport n h s).engine = s.engine :=
  (of_fixed (compareReport_fixed s n h)).2.1
@[simp] theorem compareReport_exch (s : State) (n : Fin 24) (h : HeldReport) : (compareReport n h s).exch = s.exch :=
  (of_fixed (compareReport_fixed s n h)).2.2.2.2.1
@[simp] theorem compareReport_change (s : State) (n : Fin 24) (h : HeldReport) : (compareReport n h s).change = s.change :=
  (of_fixed (compareReport_fixed s n h)).2.2.2.2.2.1
@[simp] theorem compareHeld_spine (s : State) : (compareHeld s).spine = s.spine :=
  spine_of_fixed (compareHeld_fixed s)
@[simp] theorem compareHeld_mem (s : State) : (compareHeld s).mem = s.mem :=
  (of_fixed (compareHeld_fixed s)).1
@[simp] theorem compareHeld_engine (s : State) : (compareHeld s).engine = s.engine :=
  (of_fixed (compareHeld_fixed s)).2.1
@[simp] theorem compareHeld_exch (s : State) : (compareHeld s).exch = s.exch :=
  (of_fixed (compareHeld_fixed s)).2.2.2.2.1
@[simp] theorem compareHeld_change (s : State) : (compareHeld s).change = s.change :=
  (of_fixed (compareHeld_fixed s)).2.2.2.2.2.1
@[simp] theorem clearRepair_spine (s : State) (n : Fin 24) : (clearRepair n s).spine = s.spine :=
  spine_of_fixed (clearRepair_fixed s n)
@[simp] theorem clearRepair_mem (s : State) (n : Fin 24) : (clearRepair n s).mem = s.mem :=
  (of_fixed (clearRepair_fixed s n)).1
@[simp] theorem clearRepair_engine (s : State) (n : Fin 24) : (clearRepair n s).engine = s.engine :=
  (of_fixed (clearRepair_fixed s n)).2.1
@[simp] theorem clearRepair_exch (s : State) (n : Fin 24) : (clearRepair n s).exch = s.exch :=
  (of_fixed (clearRepair_fixed s n)).2.2.2.2.1
@[simp] theorem clearRepair_change (s : State) (n : Fin 24) : (clearRepair n s).change = s.change :=
  (of_fixed (clearRepair_fixed s n)).2.2.2.2.2.1
@[simp] theorem setRepair_spine (s : State) (n : Fin 24) : (setRepair n s).spine = s.spine :=
  spine_of_fixed (setRepair_fixed s n)
@[simp] theorem setRepair_mem (s : State) (n : Fin 24) : (setRepair n s).mem = s.mem :=
  (of_fixed (setRepair_fixed s n)).1
@[simp] theorem setRepair_engine (s : State) (n : Fin 24) : (setRepair n s).engine = s.engine :=
  (of_fixed (setRepair_fixed s n)).2.1
@[simp] theorem setRepair_exch (s : State) (n : Fin 24) : (setRepair n s).exch = s.exch :=
  (of_fixed (setRepair_fixed s n)).2.2.2.2.1
@[simp] theorem setRepair_change (s : State) (n : Fin 24) : (setRepair n s).change = s.change :=
  (of_fixed (setRepair_fixed s n)).2.2.2.2.2.1
@[simp] theorem countMismatch_spine (s : State) (n : Fin 24) : (countMismatch n s).spine = s.spine :=
  spine_of_fixed (countMismatch_fixed s n)
@[simp] theorem countMismatch_mem (s : State) (n : Fin 24) : (countMismatch n s).mem = s.mem :=
  (of_fixed (countMismatch_fixed s n)).1
@[simp] theorem countMismatch_engine (s : State) (n : Fin 24) : (countMismatch n s).engine = s.engine :=
  (of_fixed (countMismatch_fixed s n)).2.1
@[simp] theorem countMismatch_exch (s : State) (n : Fin 24) : (countMismatch n s).exch = s.exch :=
  (of_fixed (countMismatch_fixed s n)).2.2.2.2.1
@[simp] theorem countMismatch_change (s : State) (n : Fin 24) : (countMismatch n s).change = s.change :=
  (of_fixed (countMismatch_fixed s n)).2.2.2.2.2.1
@[simp] theorem compareStatus_spine (s : State) (n : Fin 24) (st : Status) : (compareStatus n st s).spine = s.spine :=
  spine_of_fixed (compareStatus_fixed s n st)
@[simp] theorem compareStatus_mem (s : State) (n : Fin 24) (st : Status) : (compareStatus n st s).mem = s.mem :=
  (of_fixed (compareStatus_fixed s n st)).1
@[simp] theorem compareStatus_engine (s : State) (n : Fin 24) (st : Status) : (compareStatus n st s).engine = s.engine :=
  (of_fixed (compareStatus_fixed s n st)).2.1
@[simp] theorem compareStatus_exch (s : State) (n : Fin 24) (st : Status) : (compareStatus n st s).exch = s.exch :=
  (of_fixed (compareStatus_fixed s n st)).2.2.2.2.1
@[simp] theorem compareStatus_change (s : State) (n : Fin 24) (st : Status) : (compareStatus n st s).change = s.change :=
  (of_fixed (compareStatus_fixed s n st)).2.2.2.2.2.1
@[simp] theorem clearRepairs_spine (s : State) : (clearRepairs s).spine = s.spine :=
  spine_of_fixed (clearRepairs_fixed s)
@[simp] theorem clearRepairs_mem (s : State) : (clearRepairs s).mem = s.mem :=
  (of_fixed (clearRepairs_fixed s)).1
@[simp] theorem clearRepairs_engine (s : State) : (clearRepairs s).engine = s.engine :=
  (of_fixed (clearRepairs_fixed s)).2.1
@[simp] theorem clearRepairs_exch (s : State) : (clearRepairs s).exch = s.exch :=
  (of_fixed (clearRepairs_fixed s)).2.2.2.2.1
@[simp] theorem clearRepairs_change (s : State) : (clearRepairs s).change = s.change :=
  (of_fixed (clearRepairs_fixed s)).2.2.2.2.2.1
@[simp] theorem repairMismatch_spine (s : State) (n : Fin 24) : (repairMismatch n s).spine = s.spine :=
  spine_of_fixed (repairMismatch_fixed s n)
@[simp] theorem repairMismatch_mem (s : State) (n : Fin 24) : (repairMismatch n s).mem = s.mem :=
  (of_fixed (repairMismatch_fixed s n)).1
@[simp] theorem repairMismatch_engine (s : State) (n : Fin 24) : (repairMismatch n s).engine = s.engine :=
  (of_fixed (repairMismatch_fixed s n)).2.1
@[simp] theorem repairMismatch_exch (s : State) (n : Fin 24) : (repairMismatch n s).exch = s.exch :=
  (of_fixed (repairMismatch_fixed s n)).2.2.2.2.1
@[simp] theorem repairMismatch_change (s : State) (n : Fin 24) : (repairMismatch n s).change = s.change :=
  (of_fixed (repairMismatch_fixed s n)).2.2.2.2.2.1
@[simp] theorem restartSweep_spine (s : State) (n : Fin 24) : (restartSweep n s).spine = s.spine :=
  spine_of_fixed (restartSweep_fixed s n)
@[simp] theorem restartSweep_mem (s : State) (n : Fin 24) : (restartSweep n s).mem = s.mem :=
  (of_fixed (restartSweep_fixed s n)).1
@[simp] theorem restartSweep_engine (s : State) (n : Fin 24) : (restartSweep n s).engine = s.engine :=
  (of_fixed (restartSweep_fixed s n)).2.1
@[simp] theorem restartSweep_exch (s : State) (n : Fin 24) : (restartSweep n s).exch = s.exch :=
  (of_fixed (restartSweep_fixed s n)).2.2.2.2.1
@[simp] theorem restartSweep_change (s : State) (n : Fin 24) : (restartSweep n s).change = s.change :=
  (of_fixed (restartSweep_fixed s n)).2.2.2.2.2.1
@[simp] theorem judgeCommit_spine (s : State) (n : Fin 24) (d : Delivery) (v : Verdict) : (judgeCommit n d v s).spine = s.spine :=
  spine_of_fixed (judgeCommit_fixed s n d v)
@[simp] theorem judgeCommit_mem (s : State) (n : Fin 24) (d : Delivery) (v : Verdict) : (judgeCommit n d v s).mem = s.mem :=
  (of_fixed (judgeCommit_fixed s n d v)).1
@[simp] theorem judgeCommit_engine (s : State) (n : Fin 24) (d : Delivery) (v : Verdict) : (judgeCommit n d v s).engine = s.engine :=
  (of_fixed (judgeCommit_fixed s n d v)).2.1
@[simp] theorem judgeCommit_exch (s : State) (n : Fin 24) (d : Delivery) (v : Verdict) : (judgeCommit n d v s).exch = s.exch :=
  (of_fixed (judgeCommit_fixed s n d v)).2.2.2.2.1
@[simp] theorem judgeCommit_change (s : State) (n : Fin 24) (d : Delivery) (v : Verdict) : (judgeCommit n d v s).change = s.change :=
  (of_fixed (judgeCommit_fixed s n d v)).2.2.2.2.2.1
@[simp] theorem judgeRefused_spine (s : State) (n : Fin 24) (d : Delivery) : (judgeRefused n d s).spine = s.spine :=
  spine_of_fixed (judgeRefused_fixed s n d)
@[simp] theorem judgeRefused_mem (s : State) (n : Fin 24) (d : Delivery) : (judgeRefused n d s).mem = s.mem :=
  (of_fixed (judgeRefused_fixed s n d)).1
@[simp] theorem judgeRefused_engine (s : State) (n : Fin 24) (d : Delivery) : (judgeRefused n d s).engine = s.engine :=
  (of_fixed (judgeRefused_fixed s n d)).2.1
@[simp] theorem judgeRefused_exch (s : State) (n : Fin 24) (d : Delivery) : (judgeRefused n d s).exch = s.exch :=
  (of_fixed (judgeRefused_fixed s n d)).2.2.2.2.1
@[simp] theorem judgeRefused_change (s : State) (n : Fin 24) (d : Delivery) : (judgeRefused n d s).change = s.change :=
  (of_fixed (judgeRefused_fixed s n d)).2.2.2.2.2.1
@[simp] theorem lowerH_spine (s : State) : (lowerH s).spine = s.spine :=
  spine_of_fixed (lowerH_fixed s)
@[simp] theorem lowerH_mem (s : State) : (lowerH s).mem = s.mem :=
  (of_fixed (lowerH_fixed s)).1
@[simp] theorem lowerH_engine (s : State) : (lowerH s).engine = s.engine :=
  (of_fixed (lowerH_fixed s)).2.1
@[simp] theorem lowerH_exch (s : State) : (lowerH s).exch = s.exch :=
  (of_fixed (lowerH_fixed s)).2.2.2.2.1
@[simp] theorem lowerH_change (s : State) : (lowerH s).change = s.change :=
  (of_fixed (lowerH_fixed s)).2.2.2.2.2.1
@[simp] theorem switchEffects_spine (s : State) : (switchEffects s).spine = s.spine :=
  spine_of_fixed (switchEffects_fixed s)
@[simp] theorem switchEffects_mem (s : State) : (switchEffects s).mem = s.mem :=
  (of_fixed (switchEffects_fixed s)).1
@[simp] theorem switchEffects_engine (s : State) : (switchEffects s).engine = s.engine :=
  (of_fixed (switchEffects_fixed s)).2.1
@[simp] theorem switchEffects_exch (s : State) : (switchEffects s).exch = s.exch :=
  (of_fixed (switchEffects_fixed s)).2.2.2.2.1
@[simp] theorem switchEffects_change (s : State) : (switchEffects s).change = s.change :=
  (of_fixed (switchEffects_fixed s)).2.2.2.2.2.1
@[simp] theorem editionsChanged_spine (s : State) : (editionsChanged s).spine = s.spine :=
  spine_of_fixed (editionsChanged_fixed s)
@[simp] theorem editionsChanged_mem (s : State) : (editionsChanged s).mem = s.mem :=
  (of_fixed (editionsChanged_fixed s)).1
@[simp] theorem editionsChanged_engine (s : State) : (editionsChanged s).engine = s.engine :=
  (of_fixed (editionsChanged_fixed s)).2.1
@[simp] theorem editionsChanged_exch (s : State) : (editionsChanged s).exch = s.exch :=
  (of_fixed (editionsChanged_fixed s)).2.2.2.2.1
@[simp] theorem editionsChanged_change (s : State) : (editionsChanged s).change = s.change :=
  (of_fixed (editionsChanged_fixed s)).2.2.2.2.2.1
@[simp] theorem stageToInstall_spine (s : State) : (stageToInstall s).spine = s.spine :=
  spine_of_fixed (stageToInstall_fixed s)
@[simp] theorem stageToInstall_mem (s : State) : (stageToInstall s).mem = s.mem :=
  (of_fixed (stageToInstall_fixed s)).1
@[simp] theorem stageToInstall_engine (s : State) : (stageToInstall s).engine = s.engine :=
  (of_fixed (stageToInstall_fixed s)).2.1
@[simp] theorem stageToInstall_exch (s : State) : (stageToInstall s).exch = s.exch :=
  (of_fixed (stageToInstall_fixed s)).2.2.2.2.1
@[simp] theorem stageToInstall_change (s : State) : (stageToInstall s).change = s.change :=
  (of_fixed (stageToInstall_fixed s)).2.2.2.2.2.1
@[simp] theorem flagUnconfirmed_spine (s : State) (e : EditionRef) : (flagUnconfirmed e s).spine = s.spine :=
  spine_of_fixed (flagUnconfirmed_fixed s e)
@[simp] theorem flagUnconfirmed_mem (s : State) (e : EditionRef) : (flagUnconfirmed e s).mem = s.mem :=
  (of_fixed (flagUnconfirmed_fixed s e)).1
@[simp] theorem flagUnconfirmed_engine (s : State) (e : EditionRef) : (flagUnconfirmed e s).engine = s.engine :=
  (of_fixed (flagUnconfirmed_fixed s e)).2.1
@[simp] theorem flagUnconfirmed_exch (s : State) (e : EditionRef) : (flagUnconfirmed e s).exch = s.exch :=
  (of_fixed (flagUnconfirmed_fixed s e)).2.2.2.2.1
@[simp] theorem flagUnconfirmed_change (s : State) (e : EditionRef) : (flagUnconfirmed e s).change = s.change :=
  (of_fixed (flagUnconfirmed_fixed s e)).2.2.2.2.2.1
@[simp] theorem markTime_spine (s : State) : (markTime s).spine = s.spine :=
  spine_of_fixed (markTime_fixed s)
@[simp] theorem markTime_mem (s : State) : (markTime s).mem = s.mem :=
  (of_fixed (markTime_fixed s)).1
@[simp] theorem markTime_engine (s : State) : (markTime s).engine = s.engine :=
  (of_fixed (markTime_fixed s)).2.1
@[simp] theorem markTime_exch (s : State) : (markTime s).exch = s.exch :=
  (of_fixed (markTime_fixed s)).2.2.2.2.1
@[simp] theorem markTime_change (s : State) : (markTime s).change = s.change :=
  (of_fixed (markTime_fixed s)).2.2.2.2.2.1
@[simp] theorem beginVisit_spine (s : State) (l : Fin 4) (a : Nat) : (beginVisit l a s).spine = s.spine :=
  spine_of_fixed (beginVisit_fixed s l a)
@[simp] theorem beginVisit_mem (s : State) (l : Fin 4) (a : Nat) : (beginVisit l a s).mem = s.mem :=
  (of_fixed (beginVisit_fixed s l a)).1
@[simp] theorem beginVisit_engine (s : State) (l : Fin 4) (a : Nat) : (beginVisit l a s).engine = s.engine :=
  (of_fixed (beginVisit_fixed s l a)).2.1
@[simp] theorem beginVisit_exch (s : State) (l : Fin 4) (a : Nat) : (beginVisit l a s).exch = s.exch :=
  (of_fixed (beginVisit_fixed s l a)).2.2.2.2.1
@[simp] theorem beginVisit_change (s : State) (l : Fin 4) (a : Nat) : (beginVisit l a s).change = s.change :=
  (of_fixed (beginVisit_fixed s l a)).2.2.2.2.2.1
@[simp] theorem countLine_spine (s : State) (l : Fin 4) (d : Side) (f : LineCounters → LineCounters) : (countLine l d f s).spine = s.spine :=
  spine_of_fixed (countLine_fixed s l d f)
@[simp] theorem countLine_mem (s : State) (l : Fin 4) (d : Side) (f : LineCounters → LineCounters) : (countLine l d f s).mem = s.mem :=
  (of_fixed (countLine_fixed s l d f)).1
@[simp] theorem countLine_engine (s : State) (l : Fin 4) (d : Side) (f : LineCounters → LineCounters) : (countLine l d f s).engine = s.engine :=
  (of_fixed (countLine_fixed s l d f)).2.1
@[simp] theorem countLine_exch (s : State) (l : Fin 4) (d : Side) (f : LineCounters → LineCounters) : (countLine l d f s).exch = s.exch :=
  (of_fixed (countLine_fixed s l d f)).2.2.2.2.1
@[simp] theorem countLine_change (s : State) (l : Fin 4) (d : Side) (f : LineCounters → LineCounters) : (countLine l d f s).change = s.change :=
  (of_fixed (countLine_fixed s l d f)).2.2.2.2.2.1
@[simp] theorem drive_spine (s : State) (l : Fin 4) (ex : Exchange) : (drive l ex s).spine = s.spine :=
  spine_of_fixed (drive_fixed s l ex)
@[simp] theorem drive_mem (s : State) (l : Fin 4) (ex : Exchange) : (drive l ex s).mem = s.mem :=
  (of_fixed (drive_fixed s l ex)).1
@[simp] theorem drive_engine (s : State) (l : Fin 4) (ex : Exchange) : (drive l ex s).engine = s.engine :=
  (of_fixed (drive_fixed s l ex)).2.1
@[simp] theorem drive_exch (s : State) (l : Fin 4) (ex : Exchange) : (drive l ex s).exch = s.exch :=
  (of_fixed (drive_fixed s l ex)).2.2.2.2.1
@[simp] theorem drive_change (s : State) (l : Fin 4) (ex : Exchange) : (drive l ex s).change = s.change :=
  (of_fixed (drive_fixed s l ex)).2.2.2.2.2.1
@[simp] theorem nextTag_spine (s : State) (l : Fin 4) : ((nextTag l s).2).spine = s.spine :=
  spine_of_fixed (nextTag_fixed s l)
@[simp] theorem nextTag_mem (s : State) (l : Fin 4) : ((nextTag l s).2).mem = s.mem :=
  (of_fixed (nextTag_fixed s l)).1
@[simp] theorem nextTag_engine (s : State) (l : Fin 4) : ((nextTag l s).2).engine = s.engine :=
  (of_fixed (nextTag_fixed s l)).2.1
@[simp] theorem nextTag_exch (s : State) (l : Fin 4) : ((nextTag l s).2).exch = s.exch :=
  (of_fixed (nextTag_fixed s l)).2.2.2.2.1
@[simp] theorem nextTag_change (s : State) (l : Fin 4) : ((nextTag l s).2).change = s.change :=
  (of_fixed (nextTag_fixed s l)).2.2.2.2.2.1
@[simp] theorem startExchange_spine (s : State) (l : Fin 4) (w : Work) (f : RequestFrame) : (startExchange l w f s).spine = s.spine :=
  spine_of_fixed (startExchange_fixed s l w f)
@[simp] theorem startExchange_mem (s : State) (l : Fin 4) (w : Work) (f : RequestFrame) : (startExchange l w f s).mem = s.mem :=
  (of_fixed (startExchange_fixed s l w f)).1
@[simp] theorem startExchange_engine (s : State) (l : Fin 4) (w : Work) (f : RequestFrame) : (startExchange l w f s).engine = s.engine :=
  (of_fixed (startExchange_fixed s l w f)).2.1
@[simp] theorem startExchange_exch (s : State) (l : Fin 4) (w : Work) (f : RequestFrame) : (startExchange l w f s).exch = s.exch :=
  (of_fixed (startExchange_fixed s l w f)).2.2.2.2.1
@[simp] theorem startExchange_change (s : State) (l : Fin 4) (w : Work) (f : RequestFrame) : (startExchange l w f s).change = s.change :=
  (of_fixed (startExchange_fixed s l w f)).2.2.2.2.2.1
@[simp] theorem takeBack_spine (s : State) (l : Fin 4) (w : Work) : (takeBack l w s).spine = s.spine :=
  spine_of_fixed (takeBack_fixed s l w)
@[simp] theorem takeBack_mem (s : State) (l : Fin 4) (w : Work) : (takeBack l w s).mem = s.mem :=
  (of_fixed (takeBack_fixed s l w)).1
@[simp] theorem takeBack_engine (s : State) (l : Fin 4) (w : Work) : (takeBack l w s).engine = s.engine :=
  (of_fixed (takeBack_fixed s l w)).2.1
@[simp] theorem takeBack_exch (s : State) (l : Fin 4) (w : Work) : (takeBack l w s).exch = s.exch :=
  (of_fixed (takeBack_fixed s l w)).2.2.2.2.1
@[simp] theorem takeBack_change (s : State) (l : Fin 4) (w : Work) : (takeBack l w s).change = s.change :=
  (of_fixed (takeBack_fixed s l w)).2.2.2.2.2.1
@[simp] theorem overExchange_spine (s : State) (l : Fin 4) (ex : Exchange) : (overExchange l ex s).spine = s.spine :=
  spine_of_fixed (overExchange_fixed s l ex)
@[simp] theorem overExchange_mem (s : State) (l : Fin 4) (ex : Exchange) : (overExchange l ex s).mem = s.mem :=
  (of_fixed (overExchange_fixed s l ex)).1
@[simp] theorem overExchange_engine (s : State) (l : Fin 4) (ex : Exchange) : (overExchange l ex s).engine = s.engine :=
  (of_fixed (overExchange_fixed s l ex)).2.1
@[simp] theorem overExchange_exch (s : State) (l : Fin 4) (ex : Exchange) : (overExchange l ex s).exch = s.exch :=
  (of_fixed (overExchange_fixed s l ex)).2.2.2.2.1
@[simp] theorem overExchange_change (s : State) (l : Fin 4) (ex : Exchange) : (overExchange l ex s).change = s.change :=
  (of_fixed (overExchange_fixed s l ex)).2.2.2.2.2.1
@[simp] theorem toGap_spine (s : State) (l : Fin 4) : (toGap l s).spine = s.spine :=
  spine_of_fixed (toGap_fixed s l)
@[simp] theorem toGap_mem (s : State) (l : Fin 4) : (toGap l s).mem = s.mem :=
  (of_fixed (toGap_fixed s l)).1
@[simp] theorem toGap_engine (s : State) (l : Fin 4) : (toGap l s).engine = s.engine :=
  (of_fixed (toGap_fixed s l)).2.1
@[simp] theorem toGap_exch (s : State) (l : Fin 4) : (toGap l s).exch = s.exch :=
  (of_fixed (toGap_fixed s l)).2.2.2.2.1
@[simp] theorem toGap_change (s : State) (l : Fin 4) : (toGap l s).change = s.change :=
  (of_fixed (toGap_fixed s l)).2.2.2.2.2.1
@[simp] theorem toFreshGap_spine (s : State) (l : Fin 4) : (toFreshGap l s).spine = s.spine :=
  spine_of_fixed (toFreshGap_fixed s l)
@[simp] theorem toFreshGap_mem (s : State) (l : Fin 4) : (toFreshGap l s).mem = s.mem :=
  (of_fixed (toFreshGap_fixed s l)).1
@[simp] theorem toFreshGap_engine (s : State) (l : Fin 4) : (toFreshGap l s).engine = s.engine :=
  (of_fixed (toFreshGap_fixed s l)).2.1
@[simp] theorem toFreshGap_exch (s : State) (l : Fin 4) : (toFreshGap l s).exch = s.exch :=
  (of_fixed (toFreshGap_fixed s l)).2.2.2.2.1
@[simp] theorem toFreshGap_change (s : State) (l : Fin 4) : (toFreshGap l s).change = s.change :=
  (of_fixed (toFreshGap_fixed s l)).2.2.2.2.2.1
@[simp] theorem countPage_spine (s : State) (n : Fin 24) (r : PageRead) : (countPage n r s).spine = s.spine :=
  spine_of_fixed (countPage_fixed s n r)
@[simp] theorem countPage_mem (s : State) (n : Fin 24) (r : PageRead) : (countPage n r s).mem = s.mem :=
  (of_fixed (countPage_fixed s n r)).1
@[simp] theorem countPage_engine (s : State) (n : Fin 24) (r : PageRead) : (countPage n r s).engine = s.engine :=
  (of_fixed (countPage_fixed s n r)).2.1
@[simp] theorem countPage_exch (s : State) (n : Fin 24) (r : PageRead) : (countPage n r s).exch = s.exch :=
  (of_fixed (countPage_fixed s n r)).2.2.2.2.1
@[simp] theorem countPage_change (s : State) (n : Fin 24) (r : PageRead) : (countPage n r s).change = s.change :=
  (of_fixed (countPage_fixed s n r)).2.2.2.2.2.1
@[simp] theorem countMember_spine (s : State) (r : PageRead) (n : Fin 24) : (countMember r n s).spine = s.spine :=
  spine_of_fixed (countMember_fixed s r n)
@[simp] theorem countMember_mem (s : State) (r : PageRead) (n : Fin 24) : (countMember r n s).mem = s.mem :=
  (of_fixed (countMember_fixed s r n)).1
@[simp] theorem countMember_engine (s : State) (r : PageRead) (n : Fin 24) : (countMember r n s).engine = s.engine :=
  (of_fixed (countMember_fixed s r n)).2.1
@[simp] theorem countMember_exch (s : State) (r : PageRead) (n : Fin 24) : (countMember r n s).exch = s.exch :=
  (of_fixed (countMember_fixed s r n)).2.2.2.2.1
@[simp] theorem countMember_change (s : State) (r : PageRead) (n : Fin 24) : (countMember r n s).change = s.change :=
  (of_fixed (countMember_fixed s r n)).2.2.2.2.2.1
@[simp] theorem countGroup_spine (s : State) (i : Nat) (ex : Exchange) : (countGroup i ex s).spine = s.spine :=
  spine_of_fixed (countGroup_fixed s i ex)
@[simp] theorem countGroup_mem (s : State) (i : Nat) (ex : Exchange) : (countGroup i ex s).mem = s.mem :=
  (of_fixed (countGroup_fixed s i ex)).1
@[simp] theorem countGroup_engine (s : State) (i : Nat) (ex : Exchange) : (countGroup i ex s).engine = s.engine :=
  (of_fixed (countGroup_fixed s i ex)).2.1
@[simp] theorem countGroup_exch (s : State) (i : Nat) (ex : Exchange) : (countGroup i ex s).exch = s.exch :=
  (of_fixed (countGroup_fixed s i ex)).2.2.2.2.1
@[simp] theorem countGroup_change (s : State) (i : Nat) (ex : Exchange) : (countGroup i ex s).change = s.change :=
  (of_fixed (countGroup_fixed s i ex)).2.2.2.2.2.1
@[simp] theorem countSent_spine (s : State) (ex : Exchange) : (countSent ex s).spine = s.spine :=
  spine_of_fixed (countSent_fixed s ex)
@[simp] theorem countSent_mem (s : State) (ex : Exchange) : (countSent ex s).mem = s.mem :=
  (of_fixed (countSent_fixed s ex)).1
@[simp] theorem countSent_engine (s : State) (ex : Exchange) : (countSent ex s).engine = s.engine :=
  (of_fixed (countSent_fixed s ex)).2.1
@[simp] theorem countSent_exch (s : State) (ex : Exchange) : (countSent ex s).exch = s.exch :=
  (of_fixed (countSent_fixed s ex)).2.2.2.2.1
@[simp] theorem countSent_change (s : State) (ex : Exchange) : (countSent ex s).change = s.change :=
  (of_fixed (countSent_fixed s ex)).2.2.2.2.2.1
@[simp] theorem broadcastEnds_spine (s : State) (l : Fin 4) : (broadcastEnds l s).spine = s.spine :=
  spine_of_fixed (broadcastEnds_fixed s l)
@[simp] theorem broadcastEnds_mem (s : State) (l : Fin 4) : (broadcastEnds l s).mem = s.mem :=
  (of_fixed (broadcastEnds_fixed s l)).1
@[simp] theorem broadcastEnds_engine (s : State) (l : Fin 4) : (broadcastEnds l s).engine = s.engine :=
  (of_fixed (broadcastEnds_fixed s l)).2.1
@[simp] theorem broadcastEnds_exch (s : State) (l : Fin 4) : (broadcastEnds l s).exch = s.exch :=
  (of_fixed (broadcastEnds_fixed s l)).2.2.2.2.1
@[simp] theorem broadcastEnds_change (s : State) (l : Fin 4) : (broadcastEnds l s).change = s.change :=
  (of_fixed (broadcastEnds_fixed s l)).2.2.2.2.2.1
@[simp] theorem broadcastOver_spine (s : State) (l : Fin 4) (ex : Exchange) : (broadcastOver l ex s).spine = s.spine :=
  spine_of_fixed (broadcastOver_fixed s l ex)
@[simp] theorem broadcastOver_mem (s : State) (l : Fin 4) (ex : Exchange) : (broadcastOver l ex s).mem = s.mem :=
  (of_fixed (broadcastOver_fixed s l ex)).1
@[simp] theorem broadcastOver_engine (s : State) (l : Fin 4) (ex : Exchange) : (broadcastOver l ex s).engine = s.engine :=
  (of_fixed (broadcastOver_fixed s l ex)).2.1
@[simp] theorem broadcastOver_exch (s : State) (l : Fin 4) (ex : Exchange) : (broadcastOver l ex s).exch = s.exch :=
  (of_fixed (broadcastOver_fixed s l ex)).2.2.2.2.1
@[simp] theorem broadcastOver_change (s : State) (l : Fin 4) (ex : Exchange) : (broadcastOver l ex s).change = s.change :=
  (of_fixed (broadcastOver_fixed s l ex)).2.2.2.2.2.1
@[simp] theorem noReplyEnds_spine (s : State) (l : Fin 4) (ex : Exchange) : (noReplyEnds l ex s).spine = s.spine :=
  spine_of_fixed (noReplyEnds_fixed s l ex)
@[simp] theorem noReplyEnds_mem (s : State) (l : Fin 4) (ex : Exchange) : (noReplyEnds l ex s).mem = s.mem :=
  (of_fixed (noReplyEnds_fixed s l ex)).1
@[simp] theorem noReplyEnds_engine (s : State) (l : Fin 4) (ex : Exchange) : (noReplyEnds l ex s).engine = s.engine :=
  (of_fixed (noReplyEnds_fixed s l ex)).2.1
@[simp] theorem noReplyEnds_exch (s : State) (l : Fin 4) (ex : Exchange) : (noReplyEnds l ex s).exch = s.exch :=
  (of_fixed (noReplyEnds_fixed s l ex)).2.2.2.2.1
@[simp] theorem noReplyEnds_change (s : State) (l : Fin 4) (ex : Exchange) : (noReplyEnds l ex s).change = s.change :=
  (of_fixed (noReplyEnds_fixed s l ex)).2.2.2.2.2.1
@[simp] theorem nextAttempt_spine (s : State) (l : Fin 4) (ex : Exchange) : (nextAttempt l ex s).spine = s.spine :=
  spine_of_fixed (nextAttempt_fixed s l ex)
@[simp] theorem nextAttempt_mem (s : State) (l : Fin 4) (ex : Exchange) : (nextAttempt l ex s).mem = s.mem :=
  (of_fixed (nextAttempt_fixed s l ex)).1
@[simp] theorem nextAttempt_engine (s : State) (l : Fin 4) (ex : Exchange) : (nextAttempt l ex s).engine = s.engine :=
  (of_fixed (nextAttempt_fixed s l ex)).2.1
@[simp] theorem nextAttempt_exch (s : State) (l : Fin 4) (ex : Exchange) : (nextAttempt l ex s).exch = s.exch :=
  (of_fixed (nextAttempt_fixed s l ex)).2.2.2.2.1
@[simp] theorem nextAttempt_change (s : State) (l : Fin 4) (ex : Exchange) : (nextAttempt l ex s).change = s.change :=
  (of_fixed (nextAttempt_fixed s l ex)).2.2.2.2.2.1
@[simp] theorem secondCopy_spine (s : State) (l : Fin 4) (ex : Exchange) : (secondCopy l ex s).spine = s.spine :=
  spine_of_fixed (secondCopy_fixed s l ex)
@[simp] theorem secondCopy_mem (s : State) (l : Fin 4) (ex : Exchange) : (secondCopy l ex s).mem = s.mem :=
  (of_fixed (secondCopy_fixed s l ex)).1
@[simp] theorem secondCopy_engine (s : State) (l : Fin 4) (ex : Exchange) : (secondCopy l ex s).engine = s.engine :=
  (of_fixed (secondCopy_fixed s l ex)).2.1
@[simp] theorem secondCopy_exch (s : State) (l : Fin 4) (ex : Exchange) : (secondCopy l ex s).exch = s.exch :=
  (of_fixed (secondCopy_fixed s l ex)).2.2.2.2.1
@[simp] theorem secondCopy_change (s : State) (l : Fin 4) (ex : Exchange) : (secondCopy l ex s).change = s.change :=
  (of_fixed (secondCopy_fixed s l ex)).2.2.2.2.2.1
@[simp] theorem toIdle_spine (s : State) (l : Fin 4) : (toIdle l s).spine = s.spine :=
  spine_of_fixed (toIdle_fixed s l)
@[simp] theorem toIdle_mem (s : State) (l : Fin 4) : (toIdle l s).mem = s.mem :=
  (of_fixed (toIdle_fixed s l)).1
@[simp] theorem toIdle_engine (s : State) (l : Fin 4) : (toIdle l s).engine = s.engine :=
  (of_fixed (toIdle_fixed s l)).2.1
@[simp] theorem toIdle_exch (s : State) (l : Fin 4) : (toIdle l s).exch = s.exch :=
  (of_fixed (toIdle_fixed s l)).2.2.2.2.1
@[simp] theorem toIdle_change (s : State) (l : Fin 4) : (toIdle l s).change = s.change :=
  (of_fixed (toIdle_fixed s l)).2.2.2.2.2.1
@[simp] theorem endQuietly_spine (s : State) (l : Fin 4) (ex : Exchange) : (endQuietly l ex s).spine = s.spine :=
  spine_of_fixed (endQuietly_fixed s l ex)
@[simp] theorem endQuietly_mem (s : State) (l : Fin 4) (ex : Exchange) : (endQuietly l ex s).mem = s.mem :=
  (of_fixed (endQuietly_fixed s l ex)).1
@[simp] theorem endQuietly_engine (s : State) (l : Fin 4) (ex : Exchange) : (endQuietly l ex s).engine = s.engine :=
  (of_fixed (endQuietly_fixed s l ex)).2.1
@[simp] theorem endQuietly_exch (s : State) (l : Fin 4) (ex : Exchange) : (endQuietly l ex s).exch = s.exch :=
  (of_fixed (endQuietly_fixed s l ex)).2.2.2.2.1
@[simp] theorem endQuietly_change (s : State) (l : Fin 4) (ex : Exchange) : (endQuietly l ex s).change = s.change :=
  (of_fixed (endQuietly_fixed s l ex)).2.2.2.2.2.1
@[simp] theorem afterFirstCopy_spine (s : State) (l : Fin 4) (ex : Exchange) : (afterFirstCopy l ex s).spine = s.spine :=
  spine_of_fixed (afterFirstCopy_fixed s l ex)
@[simp] theorem afterFirstCopy_mem (s : State) (l : Fin 4) (ex : Exchange) : (afterFirstCopy l ex s).mem = s.mem :=
  (of_fixed (afterFirstCopy_fixed s l ex)).1
@[simp] theorem afterFirstCopy_engine (s : State) (l : Fin 4) (ex : Exchange) : (afterFirstCopy l ex s).engine = s.engine :=
  (of_fixed (afterFirstCopy_fixed s l ex)).2.1
@[simp] theorem afterFirstCopy_exch (s : State) (l : Fin 4) (ex : Exchange) : (afterFirstCopy l ex s).exch = s.exch :=
  (of_fixed (afterFirstCopy_fixed s l ex)).2.2.2.2.1
@[simp] theorem afterFirstCopy_change (s : State) (l : Fin 4) (ex : Exchange) : (afterFirstCopy l ex s).change = s.change :=
  (of_fixed (afterFirstCopy_fixed s l ex)).2.2.2.2.2.1
@[simp] theorem garbledAt_spine (s : State) (l : Fin 4) (a : Nat) (n : Fin 24) : (garbledAt l a n s).spine = s.spine :=
  spine_of_fixed (garbledAt_fixed s l a n)
@[simp] theorem garbledAt_mem (s : State) (l : Fin 4) (a : Nat) (n : Fin 24) : (garbledAt l a n s).mem = s.mem :=
  (of_fixed (garbledAt_fixed s l a n)).1
@[simp] theorem garbledAt_engine (s : State) (l : Fin 4) (a : Nat) (n : Fin 24) : (garbledAt l a n s).engine = s.engine :=
  (of_fixed (garbledAt_fixed s l a n)).2.1
@[simp] theorem garbledAt_exch (s : State) (l : Fin 4) (a : Nat) (n : Fin 24) : (garbledAt l a n s).exch = s.exch :=
  (of_fixed (garbledAt_fixed s l a n)).2.2.2.2.1
@[simp] theorem garbledAt_change (s : State) (l : Fin 4) (a : Nat) (n : Fin 24) : (garbledAt l a n s).change = s.change :=
  (of_fixed (garbledAt_fixed s l a n)).2.2.2.2.2.1
@[simp] theorem endGarbleRun_spine (s : State) (n : Fin 24) : (endGarbleRun n s).spine = s.spine :=
  spine_of_fixed (endGarbleRun_fixed s n)
@[simp] theorem endGarbleRun_mem (s : State) (n : Fin 24) : (endGarbleRun n s).mem = s.mem :=
  (of_fixed (endGarbleRun_fixed s n)).1
@[simp] theorem endGarbleRun_engine (s : State) (n : Fin 24) : (endGarbleRun n s).engine = s.engine :=
  (of_fixed (endGarbleRun_fixed s n)).2.1
@[simp] theorem endGarbleRun_exch (s : State) (n : Fin 24) : (endGarbleRun n s).exch = s.exch :=
  (of_fixed (endGarbleRun_fixed s n)).2.2.2.2.1
@[simp] theorem endGarbleRun_change (s : State) (n : Fin 24) : (endGarbleRun n s).change = s.change :=
  (of_fixed (endGarbleRun_fixed s n)).2.2.2.2.2.1
@[simp] theorem decideSuspects_spine (s : State) (l : Fin 4) (a : Nat) (g : Bool) : (decideSuspects l a g s).spine = s.spine :=
  spine_of_fixed (decideSuspects_fixed s l a g)
@[simp] theorem decideSuspects_mem (s : State) (l : Fin 4) (a : Nat) (g : Bool) : (decideSuspects l a g s).mem = s.mem :=
  (of_fixed (decideSuspects_fixed s l a g)).1
@[simp] theorem decideSuspects_engine (s : State) (l : Fin 4) (a : Nat) (g : Bool) : (decideSuspects l a g s).engine = s.engine :=
  (of_fixed (decideSuspects_fixed s l a g)).2.1
@[simp] theorem decideSuspects_exch (s : State) (l : Fin 4) (a : Nat) (g : Bool) : (decideSuspects l a g s).exch = s.exch :=
  (of_fixed (decideSuspects_fixed s l a g)).2.2.2.2.1
@[simp] theorem decideSuspects_change (s : State) (l : Fin 4) (a : Nat) (g : Bool) : (decideSuspects l a g s).change = s.change :=
  (of_fixed (decideSuspects_fixed s l a g)).2.2.2.2.2.1
@[simp] theorem setGarbles_spine (s : State) (l : Fin 4) (a k : Nat) : (setGarbles l a k s).spine = s.spine :=
  spine_of_fixed (setGarbles_fixed s l a k)
@[simp] theorem setGarbles_mem (s : State) (l : Fin 4) (a k : Nat) : (setGarbles l a k s).mem = s.mem :=
  (of_fixed (setGarbles_fixed s l a k)).1
@[simp] theorem setGarbles_engine (s : State) (l : Fin 4) (a k : Nat) : (setGarbles l a k s).engine = s.engine :=
  (of_fixed (setGarbles_fixed s l a k)).2.1
@[simp] theorem setGarbles_exch (s : State) (l : Fin 4) (a k : Nat) : (setGarbles l a k s).exch = s.exch :=
  (of_fixed (setGarbles_fixed s l a k)).2.2.2.2.1
@[simp] theorem setGarbles_change (s : State) (l : Fin 4) (a k : Nat) : (setGarbles l a k s).change = s.change :=
  (of_fixed (setGarbles_fixed s l a k)).2.2.2.2.2.1
@[simp] theorem garbledVisit_spine (s : State) (l : Fin 4) (a : Nat) : (garbledVisit l a s).spine = s.spine :=
  spine_of_fixed (garbledVisit_fixed s l a)
@[simp] theorem garbledVisit_mem (s : State) (l : Fin 4) (a : Nat) : (garbledVisit l a s).mem = s.mem :=
  (of_fixed (garbledVisit_fixed s l a)).1
@[simp] theorem garbledVisit_engine (s : State) (l : Fin 4) (a : Nat) : (garbledVisit l a s).engine = s.engine :=
  (of_fixed (garbledVisit_fixed s l a)).2.1
@[simp] theorem garbledVisit_exch (s : State) (l : Fin 4) (a : Nat) : (garbledVisit l a s).exch = s.exch :=
  (of_fixed (garbledVisit_fixed s l a)).2.2.2.2.1
@[simp] theorem garbledVisit_change (s : State) (l : Fin 4) (a : Nat) : (garbledVisit l a s).change = s.change :=
  (of_fixed (garbledVisit_fixed s l a)).2.2.2.2.2.1
@[simp] theorem missDelivery_spine (s : State) (ex : Exchange) (n : Fin 24) : (missDelivery ex n s).spine = s.spine :=
  spine_of_fixed (missDelivery_fixed s ex n)
@[simp] theorem missDelivery_mem (s : State) (ex : Exchange) (n : Fin 24) : (missDelivery ex n s).mem = s.mem :=
  (of_fixed (missDelivery_fixed s ex n)).1
@[simp] theorem missDelivery_engine (s : State) (ex : Exchange) (n : Fin 24) : (missDelivery ex n s).engine = s.engine :=
  (of_fixed (missDelivery_fixed s ex n)).2.1
@[simp] theorem missDelivery_exch (s : State) (ex : Exchange) (n : Fin 24) : (missDelivery ex n s).exch = s.exch :=
  (of_fixed (missDelivery_fixed s ex n)).2.2.2.2.1
@[simp] theorem missDelivery_change (s : State) (ex : Exchange) (n : Fin 24) : (missDelivery ex n s).change = s.change :=
  (of_fixed (missDelivery_fixed s ex n)).2.2.2.2.2.1
@[simp] theorem miss_spine (s : State) (l : Fin 4) (ex : Exchange) : (miss l ex s).spine = s.spine :=
  spine_of_fixed (miss_fixed s l ex)
@[simp] theorem miss_mem (s : State) (l : Fin 4) (ex : Exchange) : (miss l ex s).mem = s.mem :=
  (of_fixed (miss_fixed s l ex)).1
@[simp] theorem miss_engine (s : State) (l : Fin 4) (ex : Exchange) : (miss l ex s).engine = s.engine :=
  (of_fixed (miss_fixed s l ex)).2.1
@[simp] theorem miss_exch (s : State) (l : Fin 4) (ex : Exchange) : (miss l ex s).exch = s.exch :=
  (of_fixed (miss_fixed s l ex)).2.2.2.2.1
@[simp] theorem miss_change (s : State) (l : Fin 4) (ex : Exchange) : (miss l ex s).change = s.change :=
  (of_fixed (miss_fixed s l ex)).2.2.2.2.2.1
@[simp] theorem failAttempt_spine (s : State) (l : Fin 4) (ex : Exchange) : (failAttempt l ex s).spine = s.spine :=
  spine_of_fixed (failAttempt_fixed s l ex)
@[simp] theorem failAttempt_mem (s : State) (l : Fin 4) (ex : Exchange) : (failAttempt l ex s).mem = s.mem :=
  (of_fixed (failAttempt_fixed s l ex)).1
@[simp] theorem failAttempt_engine (s : State) (l : Fin 4) (ex : Exchange) : (failAttempt l ex s).engine = s.engine :=
  (of_fixed (failAttempt_fixed s l ex)).2.1
@[simp] theorem failAttempt_exch (s : State) (l : Fin 4) (ex : Exchange) : (failAttempt l ex s).exch = s.exch :=
  (of_fixed (failAttempt_fixed s l ex)).2.2.2.2.1
@[simp] theorem failAttempt_change (s : State) (l : Fin 4) (ex : Exchange) : (failAttempt l ex s).change = s.change :=
  (of_fixed (failAttempt_fixed s l ex)).2.2.2.2.2.1
@[simp] theorem garbledReply_spine (s : State) (l : Fin 4) (ex : Exchange) : (garbledReply l ex s).spine = s.spine :=
  spine_of_fixed (garbledReply_fixed s l ex)
@[simp] theorem garbledReply_mem (s : State) (l : Fin 4) (ex : Exchange) : (garbledReply l ex s).mem = s.mem :=
  (of_fixed (garbledReply_fixed s l ex)).1
@[simp] theorem garbledReply_engine (s : State) (l : Fin 4) (ex : Exchange) : (garbledReply l ex s).engine = s.engine :=
  (of_fixed (garbledReply_fixed s l ex)).2.1
@[simp] theorem garbledReply_exch (s : State) (l : Fin 4) (ex : Exchange) : (garbledReply l ex s).exch = s.exch :=
  (of_fixed (garbledReply_fixed s l ex)).2.2.2.2.1
@[simp] theorem garbledReply_change (s : State) (l : Fin 4) (ex : Exchange) : (garbledReply l ex s).change = s.change :=
  (of_fixed (garbledReply_fixed s l ex)).2.2.2.2.2.1
@[simp] theorem goodReply_spine (s : State) (l : Fin 4) (ex : Exchange) (r : Reply) : (goodReply l ex r s).spine = s.spine :=
  spine_of_fixed (goodReply_fixed s l ex r)
@[simp] theorem goodReply_mem (s : State) (l : Fin 4) (ex : Exchange) (r : Reply) : (goodReply l ex r s).mem = s.mem :=
  (of_fixed (goodReply_fixed s l ex r)).1
@[simp] theorem goodReply_engine (s : State) (l : Fin 4) (ex : Exchange) (r : Reply) : (goodReply l ex r s).engine = s.engine :=
  (of_fixed (goodReply_fixed s l ex r)).2.1
@[simp] theorem goodReply_exch (s : State) (l : Fin 4) (ex : Exchange) (r : Reply) : (goodReply l ex r s).exch = s.exch :=
  (of_fixed (goodReply_fixed s l ex r)).2.2.2.2.1
@[simp] theorem goodReply_change (s : State) (l : Fin 4) (ex : Exchange) (r : Reply) : (goodReply l ex r s).change = s.change :=
  (of_fixed (goodReply_fixed s l ex r)).2.2.2.2.2.1
@[simp] theorem staleAt_spine (s : State) (l : Fin 4) (bs : List Byte) : (staleAt l bs s).spine = s.spine :=
  spine_of_fixed (staleAt_fixed s l bs)
@[simp] theorem staleAt_mem (s : State) (l : Fin 4) (bs : List Byte) : (staleAt l bs s).mem = s.mem :=
  (of_fixed (staleAt_fixed s l bs)).1
@[simp] theorem staleAt_engine (s : State) (l : Fin 4) (bs : List Byte) : (staleAt l bs s).engine = s.engine :=
  (of_fixed (staleAt_fixed s l bs)).2.1
@[simp] theorem staleAt_exch (s : State) (l : Fin 4) (bs : List Byte) : (staleAt l bs s).exch = s.exch :=
  (of_fixed (staleAt_fixed s l bs)).2.2.2.2.1
@[simp] theorem staleAt_change (s : State) (l : Fin 4) (bs : List Byte) : (staleAt l bs s).change = s.change :=
  (of_fixed (staleAt_fixed s l bs)).2.2.2.2.2.1
@[simp] theorem afterStale_spine (s : State) (l : Fin 4) (o : From) : (afterStale l o s).spine = s.spine :=
  spine_of_fixed (afterStale_fixed s l o)
@[simp] theorem afterStale_mem (s : State) (l : Fin 4) (o : From) : (afterStale l o s).mem = s.mem :=
  (of_fixed (afterStale_fixed s l o)).1
@[simp] theorem afterStale_engine (s : State) (l : Fin 4) (o : From) : (afterStale l o s).engine = s.engine :=
  (of_fixed (afterStale_fixed s l o)).2.1
@[simp] theorem afterStale_exch (s : State) (l : Fin 4) (o : From) : (afterStale l o s).exch = s.exch :=
  (of_fixed (afterStale_fixed s l o)).2.2.2.2.1
@[simp] theorem afterStale_change (s : State) (l : Fin 4) (o : From) : (afterStale l o s).change = s.change :=
  (of_fixed (afterStale_fixed s l o)).2.2.2.2.2.1
@[simp] theorem receiveFrame_spine (s : State) (l : Fin 4) (o : From) (bs : List Byte) (e : FrameEnd) : (receiveFrame l o bs e s).spine = s.spine :=
  spine_of_fixed (receiveFrame_fixed s l o bs e)
@[simp] theorem receiveFrame_mem (s : State) (l : Fin 4) (o : From) (bs : List Byte) (e : FrameEnd) : (receiveFrame l o bs e s).mem = s.mem :=
  (of_fixed (receiveFrame_fixed s l o bs e)).1
@[simp] theorem receiveFrame_engine (s : State) (l : Fin 4) (o : From) (bs : List Byte) (e : FrameEnd) : (receiveFrame l o bs e s).engine = s.engine :=
  (of_fixed (receiveFrame_fixed s l o bs e)).2.1
@[simp] theorem receiveFrame_exch (s : State) (l : Fin 4) (o : From) (bs : List Byte) (e : FrameEnd) : (receiveFrame l o bs e s).exch = s.exch :=
  (of_fixed (receiveFrame_fixed s l o bs e)).2.2.2.2.1
@[simp] theorem receiveFrame_change (s : State) (l : Fin 4) (o : From) (bs : List Byte) (e : FrameEnd) : (receiveFrame l o bs e s).change = s.change :=
  (of_fixed (receiveFrame_fixed s l o bs e)).2.2.2.2.2.1
@[simp] theorem reachPrimary_spine (s : State) (l : Fin 4) : (reachPrimary l s).spine = s.spine :=
  spine_of_fixed (reachPrimary_fixed s l)
@[simp] theorem reachPrimary_mem (s : State) (l : Fin 4) : (reachPrimary l s).mem = s.mem :=
  (of_fixed (reachPrimary_fixed s l)).1
@[simp] theorem reachPrimary_engine (s : State) (l : Fin 4) : (reachPrimary l s).engine = s.engine :=
  (of_fixed (reachPrimary_fixed s l)).2.1
@[simp] theorem reachPrimary_exch (s : State) (l : Fin 4) : (reachPrimary l s).exch = s.exch :=
  (of_fixed (reachPrimary_fixed s l)).2.2.2.2.1
@[simp] theorem reachPrimary_change (s : State) (l : Fin 4) : (reachPrimary l s).change = s.change :=
  (of_fixed (reachPrimary_fixed s l)).2.2.2.2.2.1
@[simp] theorem changeLoop_spine (s : State) (l : Fin 4) (b : Bool) : (changeLoop l b s).spine = s.spine :=
  spine_of_fixed (changeLoop_fixed s l b)
@[simp] theorem changeLoop_mem (s : State) (l : Fin 4) (b : Bool) : (changeLoop l b s).mem = s.mem :=
  (of_fixed (changeLoop_fixed s l b)).1
@[simp] theorem changeLoop_engine (s : State) (l : Fin 4) (b : Bool) : (changeLoop l b s).engine = s.engine :=
  (of_fixed (changeLoop_fixed s l b)).2.1
@[simp] theorem changeLoop_exch (s : State) (l : Fin 4) (b : Bool) : (changeLoop l b s).exch = s.exch :=
  (of_fixed (changeLoop_fixed s l b)).2.2.2.2.1
@[simp] theorem changeLoop_change (s : State) (l : Fin 4) (b : Bool) : (changeLoop l b s).change = s.change :=
  (of_fixed (changeLoop_fixed s l b)).2.2.2.2.2.1
@[simp] theorem echo_spine (s : State) (l : Fin 4) (b : Bool) : (echo l b s).spine = s.spine :=
  spine_of_fixed (echo_fixed s l b)
@[simp] theorem echo_mem (s : State) (l : Fin 4) (b : Bool) : (echo l b s).mem = s.mem :=
  (of_fixed (echo_fixed s l b)).1
@[simp] theorem echo_engine (s : State) (l : Fin 4) (b : Bool) : (echo l b s).engine = s.engine :=
  (of_fixed (echo_fixed s l b)).2.1
@[simp] theorem echo_exch (s : State) (l : Fin 4) (b : Bool) : (echo l b s).exch = s.exch :=
  (of_fixed (echo_fixed s l b)).2.2.2.2.1
@[simp] theorem echo_change (s : State) (l : Fin 4) (b : Bool) : (echo l b s).change = s.change :=
  (of_fixed (echo_fixed s l b)).2.2.2.2.2.1
@[simp] theorem takeHeldData_spine (s : State) (n : Fin 24) (st : Status) : (takeHeldData n st s).spine = s.spine :=
  spine_of_fixed (takeHeldData_fixed s n st)
@[simp] theorem takeHeldData_mem (s : State) (n : Fin 24) (st : Status) : (takeHeldData n st s).mem = s.mem :=
  (of_fixed (takeHeldData_fixed s n st)).1
@[simp] theorem takeHeldData_engine (s : State) (n : Fin 24) (st : Status) : (takeHeldData n st s).engine = s.engine :=
  (of_fixed (takeHeldData_fixed s n st)).2.1
@[simp] theorem takeHeldData_exch (s : State) (n : Fin 24) (st : Status) : (takeHeldData n st s).exch = s.exch :=
  (of_fixed (takeHeldData_fixed s n st)).2.2.2.2.1
@[simp] theorem takeHeldData_change (s : State) (n : Fin 24) (st : Status) : (takeHeldData n st s).change = s.change :=
  (of_fixed (takeHeldData_fixed s n st)).2.2.2.2.2.1
@[simp] theorem statusMarks_spine (s : State) (w : Work) (n : Fin 24) : (statusMarks w n s).spine = s.spine :=
  spine_of_fixed (statusMarks_fixed s w n)
@[simp] theorem statusMarks_mem (s : State) (w : Work) (n : Fin 24) : (statusMarks w n s).mem = s.mem :=
  (of_fixed (statusMarks_fixed s w n)).1
@[simp] theorem statusMarks_engine (s : State) (w : Work) (n : Fin 24) : (statusMarks w n s).engine = s.engine :=
  (of_fixed (statusMarks_fixed s w n)).2.1
@[simp] theorem statusMarks_exch (s : State) (w : Work) (n : Fin 24) : (statusMarks w n s).exch = s.exch :=
  (of_fixed (statusMarks_fixed s w n)).2.2.2.2.1
@[simp] theorem statusMarks_change (s : State) (w : Work) (n : Fin 24) : (statusMarks w n s).change = s.change :=
  (of_fixed (statusMarks_fixed s w n)).2.2.2.2.2.1
@[simp] theorem keptAside_spine (s : State) (n : Fin 24) (st : Status) : (keptAside n st s).spine = s.spine :=
  spine_of_fixed (keptAside_fixed s n st)
@[simp] theorem keptAside_mem (s : State) (n : Fin 24) (st : Status) : (keptAside n st s).mem = s.mem :=
  (of_fixed (keptAside_fixed s n st)).1
@[simp] theorem keptAside_engine (s : State) (n : Fin 24) (st : Status) : (keptAside n st s).engine = s.engine :=
  (of_fixed (keptAside_fixed s n st)).2.1
@[simp] theorem keptAside_exch (s : State) (n : Fin 24) (st : Status) : (keptAside n st s).exch = s.exch :=
  (of_fixed (keptAside_fixed s n st)).2.2.2.2.1
@[simp] theorem keptAside_change (s : State) (n : Fin 24) (st : Status) : (keptAside n st s).change = s.change :=
  (of_fixed (keptAside_fixed s n st)).2.2.2.2.2.1
@[simp] theorem takeStatus_spine (s : State) (ex : Exchange) (c : List Byte) (n : Fin 24) : (takeStatus ex c n s).spine = s.spine :=
  spine_of_fixed (takeStatus_fixed s ex c n)
@[simp] theorem takeStatus_mem (s : State) (ex : Exchange) (c : List Byte) (n : Fin 24) : (takeStatus ex c n s).mem = s.mem :=
  (of_fixed (takeStatus_fixed s ex c n)).1
@[simp] theorem takeStatus_engine (s : State) (ex : Exchange) (c : List Byte) (n : Fin 24) : (takeStatus ex c n s).engine = s.engine :=
  (of_fixed (takeStatus_fixed s ex c n)).2.1
@[simp] theorem takeStatus_exch (s : State) (ex : Exchange) (c : List Byte) (n : Fin 24) : (takeStatus ex c n s).exch = s.exch :=
  (of_fixed (takeStatus_fixed s ex c n)).2.2.2.2.1
@[simp] theorem takeStatus_change (s : State) (ex : Exchange) (c : List Byte) (n : Fin 24) : (takeStatus ex c n s).change = s.change :=
  (of_fixed (takeStatus_fixed s ex c n)).2.2.2.2.2.1
@[simp] theorem takeCapability_spine (s : State) (n : Fin 24) (c : Capability) : (takeCapability n c s).spine = s.spine :=
  spine_of_fixed (takeCapability_fixed s n c)
@[simp] theorem takeCapability_mem (s : State) (n : Fin 24) (c : Capability) : (takeCapability n c s).mem = s.mem :=
  (of_fixed (takeCapability_fixed s n c)).1
@[simp] theorem takeCapability_engine (s : State) (n : Fin 24) (c : Capability) : (takeCapability n c s).engine = s.engine :=
  (of_fixed (takeCapability_fixed s n c)).2.1
@[simp] theorem takeCapability_exch (s : State) (n : Fin 24) (c : Capability) : (takeCapability n c s).exch = s.exch :=
  (of_fixed (takeCapability_fixed s n c)).2.2.2.2.1
@[simp] theorem takeCapability_change (s : State) (n : Fin 24) (c : Capability) : (takeCapability n c s).change = s.change :=
  (of_fixed (takeCapability_fixed s n c)).2.2.2.2.2.1
@[simp] theorem recordKept_spine (s : State) (n : Fin 24) (v : BitVec 64) : (recordKept n v s).spine = s.spine :=
  spine_of_fixed (recordKept_fixed s n v)
@[simp] theorem recordKept_mem (s : State) (n : Fin 24) (v : BitVec 64) : (recordKept n v s).mem = s.mem :=
  (of_fixed (recordKept_fixed s n v)).1
@[simp] theorem recordKept_engine (s : State) (n : Fin 24) (v : BitVec 64) : (recordKept n v s).engine = s.engine :=
  (of_fixed (recordKept_fixed s n v)).2.1
@[simp] theorem recordKept_exch (s : State) (n : Fin 24) (v : BitVec 64) : (recordKept n v s).exch = s.exch :=
  (of_fixed (recordKept_fixed s n v)).2.2.2.2.1
@[simp] theorem recordKept_change (s : State) (n : Fin 24) (v : BitVec 64) : (recordKept n v s).change = s.change :=
  (of_fixed (recordKept_fixed s n v)).2.2.2.2.2.1
@[simp] theorem acceptIdent_spine (s : State) (n : Fin 24) (v : BitVec 64) (c : Capability) : (acceptIdent n v c s).spine = s.spine :=
  spine_of_fixed (acceptIdent_fixed s n v c)
@[simp] theorem acceptIdent_mem (s : State) (n : Fin 24) (v : BitVec 64) (c : Capability) : (acceptIdent n v c s).mem = s.mem :=
  (of_fixed (acceptIdent_fixed s n v c)).1
@[simp] theorem acceptIdent_engine (s : State) (n : Fin 24) (v : BitVec 64) (c : Capability) : (acceptIdent n v c s).engine = s.engine :=
  (of_fixed (acceptIdent_fixed s n v c)).2.1
@[simp] theorem acceptIdent_exch (s : State) (n : Fin 24) (v : BitVec 64) (c : Capability) : (acceptIdent n v c s).exch = s.exch :=
  (of_fixed (acceptIdent_fixed s n v c)).2.2.2.2.1
@[simp] theorem acceptIdent_change (s : State) (n : Fin 24) (v : BitVec 64) (c : Capability) : (acceptIdent n v c s).change = s.change :=
  (of_fixed (acceptIdent_fixed s n v c)).2.2.2.2.2.1
@[simp] theorem replaceValidator_spine (s : State) (n : Fin 24) (v : BitVec 64) (c : Capability) : (replaceValidator n v c s).spine = s.spine :=
  spine_of_fixed (replaceValidator_fixed s n v c)
@[simp] theorem replaceValidator_mem (s : State) (n : Fin 24) (v : BitVec 64) (c : Capability) : (replaceValidator n v c s).mem = s.mem :=
  (of_fixed (replaceValidator_fixed s n v c)).1
@[simp] theorem replaceValidator_engine (s : State) (n : Fin 24) (v : BitVec 64) (c : Capability) : (replaceValidator n v c s).engine = s.engine :=
  (of_fixed (replaceValidator_fixed s n v c)).2.1
@[simp] theorem replaceValidator_exch (s : State) (n : Fin 24) (v : BitVec 64) (c : Capability) : (replaceValidator n v c s).exch = s.exch :=
  (of_fixed (replaceValidator_fixed s n v c)).2.2.2.2.1
@[simp] theorem replaceValidator_change (s : State) (n : Fin 24) (v : BitVec 64) (c : Capability) : (replaceValidator n v c s).change = s.change :=
  (of_fixed (replaceValidator_fixed s n v c)).2.2.2.2.2.1
@[simp] theorem judgeSerial_spine (s : State) (n : Fin 24) (v : BitVec 64) (c : Capability) : (judgeSerial n v c s).spine = s.spine :=
  spine_of_fixed (judgeSerial_fixed s n v c)
@[simp] theorem judgeSerial_mem (s : State) (n : Fin 24) (v : BitVec 64) (c : Capability) : (judgeSerial n v c s).mem = s.mem :=
  (of_fixed (judgeSerial_fixed s n v c)).1
@[simp] theorem judgeSerial_engine (s : State) (n : Fin 24) (v : BitVec 64) (c : Capability) : (judgeSerial n v c s).engine = s.engine :=
  (of_fixed (judgeSerial_fixed s n v c)).2.1
@[simp] theorem judgeSerial_exch (s : State) (n : Fin 24) (v : BitVec 64) (c : Capability) : (judgeSerial n v c s).exch = s.exch :=
  (of_fixed (judgeSerial_fixed s n v c)).2.2.2.2.1
@[simp] theorem judgeSerial_change (s : State) (n : Fin 24) (v : BitVec 64) (c : Capability) : (judgeSerial n v c s).change = s.change :=
  (of_fixed (judgeSerial_fixed s n v c)).2.2.2.2.2.1
@[simp] theorem takeIdent_spine (s : State) (ex : Exchange) (c : List Byte) (n : Fin 24) : (takeIdent ex c n s).spine = s.spine :=
  spine_of_fixed (takeIdent_fixed s ex c n)
@[simp] theorem takeIdent_mem (s : State) (ex : Exchange) (c : List Byte) (n : Fin 24) : (takeIdent ex c n s).mem = s.mem :=
  (of_fixed (takeIdent_fixed s ex c n)).1
@[simp] theorem takeIdent_engine (s : State) (ex : Exchange) (c : List Byte) (n : Fin 24) : (takeIdent ex c n s).engine = s.engine :=
  (of_fixed (takeIdent_fixed s ex c n)).2.1
@[simp] theorem takeIdent_exch (s : State) (ex : Exchange) (c : List Byte) (n : Fin 24) : (takeIdent ex c n s).exch = s.exch :=
  (of_fixed (takeIdent_fixed s ex c n)).2.2.2.2.1
@[simp] theorem takeIdent_change (s : State) (ex : Exchange) (c : List Byte) (n : Fin 24) : (takeIdent ex c n s).change = s.change :=
  (of_fixed (takeIdent_fixed s ex c n)).2.2.2.2.2.1
@[simp] theorem bindFound_spine (s : State) (n : Fin 24) (b : Fin 4 × Nat) (v : BitVec 64) (c : Capability) (d : Side) : (bindFound n b v c d s).spine = s.spine :=
  spine_of_fixed (bindFound_fixed s n b v c d)
@[simp] theorem bindFound_mem (s : State) (n : Fin 24) (b : Fin 4 × Nat) (v : BitVec 64) (c : Capability) (d : Side) : (bindFound n b v c d s).mem = s.mem :=
  (of_fixed (bindFound_fixed s n b v c d)).1
@[simp] theorem bindFound_engine (s : State) (n : Fin 24) (b : Fin 4 × Nat) (v : BitVec 64) (c : Capability) (d : Side) : (bindFound n b v c d s).engine = s.engine :=
  (of_fixed (bindFound_fixed s n b v c d)).2.1
@[simp] theorem bindFound_exch (s : State) (n : Fin 24) (b : Fin 4 × Nat) (v : BitVec 64) (c : Capability) (d : Side) : (bindFound n b v c d s).exch = s.exch :=
  (of_fixed (bindFound_fixed s n b v c d)).2.2.2.2.1
@[simp] theorem bindFound_change (s : State) (n : Fin 24) (b : Fin 4 × Nat) (v : BitVec 64) (c : Capability) (d : Side) : (bindFound n b v c d s).change = s.change :=
  (of_fixed (bindFound_fixed s n b v c d)).2.2.2.2.2.1
@[simp] theorem rebindFound_spine (s : State) (n : Fin 24) (b : Fin 4 × Nat) (c : Capability) (d : Side) : (rebindFound n b c d s).spine = s.spine :=
  spine_of_fixed (rebindFound_fixed s n b c d)
@[simp] theorem rebindFound_mem (s : State) (n : Fin 24) (b : Fin 4 × Nat) (c : Capability) (d : Side) : (rebindFound n b c d s).mem = s.mem :=
  (of_fixed (rebindFound_fixed s n b c d)).1
@[simp] theorem rebindFound_engine (s : State) (n : Fin 24) (b : Fin 4 × Nat) (c : Capability) (d : Side) : (rebindFound n b c d s).engine = s.engine :=
  (of_fixed (rebindFound_fixed s n b c d)).2.1
@[simp] theorem rebindFound_exch (s : State) (n : Fin 24) (b : Fin 4 × Nat) (c : Capability) (d : Side) : (rebindFound n b c d s).exch = s.exch :=
  (of_fixed (rebindFound_fixed s n b c d)).2.2.2.2.1
@[simp] theorem rebindFound_change (s : State) (n : Fin 24) (b : Fin 4 × Nat) (c : Capability) (d : Side) : (rebindFound n b c d s).change = s.change :=
  (of_fixed (rebindFound_fixed s n b c d)).2.2.2.2.2.1
@[simp] theorem markDuplicate_spine (s : State) (n : Fin 24) : (markDuplicate n s).spine = s.spine :=
  spine_of_fixed (markDuplicate_fixed s n)
@[simp] theorem markDuplicate_mem (s : State) (n : Fin 24) : (markDuplicate n s).mem = s.mem :=
  (of_fixed (markDuplicate_fixed s n)).1
@[simp] theorem markDuplicate_engine (s : State) (n : Fin 24) : (markDuplicate n s).engine = s.engine :=
  (of_fixed (markDuplicate_fixed s n)).2.1
@[simp] theorem markDuplicate_exch (s : State) (n : Fin 24) : (markDuplicate n s).exch = s.exch :=
  (of_fixed (markDuplicate_fixed s n)).2.2.2.2.1
@[simp] theorem markDuplicate_change (s : State) (n : Fin 24) : (markDuplicate n s).change = s.change :=
  (of_fixed (markDuplicate_fixed s n)).2.2.2.2.2.1
@[simp] theorem rosterFull_spine (s : State) (l : Fin 4) : (rosterFull l s).spine = s.spine :=
  spine_of_fixed (rosterFull_fixed s l)
@[simp] theorem rosterFull_mem (s : State) (l : Fin 4) : (rosterFull l s).mem = s.mem :=
  (of_fixed (rosterFull_fixed s l)).1
@[simp] theorem rosterFull_engine (s : State) (l : Fin 4) : (rosterFull l s).engine = s.engine :=
  (of_fixed (rosterFull_fixed s l)).2.1
@[simp] theorem rosterFull_exch (s : State) (l : Fin 4) : (rosterFull l s).exch = s.exch :=
  (of_fixed (rosterFull_fixed s l)).2.2.2.2.1
@[simp] theorem rosterFull_change (s : State) (l : Fin 4) : (rosterFull l s).change = s.change :=
  (of_fixed (rosterFull_fixed s l)).2.2.2.2.2.1
@[simp] theorem discovered_spine (s : State) (l : Fin 4) (ex : Exchange) (c : List Byte) : (discovered l ex c s).spine = s.spine :=
  spine_of_fixed (discovered_fixed s l ex c)
@[simp] theorem discovered_mem (s : State) (l : Fin 4) (ex : Exchange) (c : List Byte) : (discovered l ex c s).mem = s.mem :=
  (of_fixed (discovered_fixed s l ex c)).1
@[simp] theorem discovered_engine (s : State) (l : Fin 4) (ex : Exchange) (c : List Byte) : (discovered l ex c s).engine = s.engine :=
  (of_fixed (discovered_fixed s l ex c)).2.1
@[simp] theorem discovered_exch (s : State) (l : Fin 4) (ex : Exchange) (c : List Byte) : (discovered l ex c s).exch = s.exch :=
  (of_fixed (discovered_fixed s l ex c)).2.2.2.2.1
@[simp] theorem discovered_change (s : State) (l : Fin 4) (ex : Exchange) (c : List Byte) : (discovered l ex c s).change = s.change :=
  (of_fixed (discovered_fixed s l ex c)).2.2.2.2.2.1
@[simp] theorem recordAccept_spine (s : State) (n : Fin 24) (d : Delivery) (m : BitVec 64) : (recordAccept n d m s).spine = s.spine :=
  spine_of_fixed (recordAccept_fixed s n d m)
@[simp] theorem recordAccept_mem (s : State) (n : Fin 24) (d : Delivery) (m : BitVec 64) : (recordAccept n d m s).mem = s.mem :=
  (of_fixed (recordAccept_fixed s n d m)).1
@[simp] theorem recordAccept_engine (s : State) (n : Fin 24) (d : Delivery) (m : BitVec 64) : (recordAccept n d m s).engine = s.engine :=
  (of_fixed (recordAccept_fixed s n d m)).2.1
@[simp] theorem recordAccept_exch (s : State) (n : Fin 24) (d : Delivery) (m : BitVec 64) : (recordAccept n d m s).exch = s.exch :=
  (of_fixed (recordAccept_fixed s n d m)).2.2.2.2.1
@[simp] theorem recordAccept_change (s : State) (n : Fin 24) (d : Delivery) (m : BitVec 64) : (recordAccept n d m s).change = s.change :=
  (of_fixed (recordAccept_fixed s n d m)).2.2.2.2.2.1
@[simp] theorem takeAccept_spine (s : State) (ex : Exchange) (c : List Byte) (n : Fin 24) : (takeAccept ex c n s).spine = s.spine :=
  spine_of_fixed (takeAccept_fixed s ex c n)
@[simp] theorem takeAccept_mem (s : State) (ex : Exchange) (c : List Byte) (n : Fin 24) : (takeAccept ex c n s).mem = s.mem :=
  (of_fixed (takeAccept_fixed s ex c n)).1
@[simp] theorem takeAccept_engine (s : State) (ex : Exchange) (c : List Byte) (n : Fin 24) : (takeAccept ex c n s).engine = s.engine :=
  (of_fixed (takeAccept_fixed s ex c n)).2.1
@[simp] theorem takeAccept_exch (s : State) (ex : Exchange) (c : List Byte) (n : Fin 24) : (takeAccept ex c n s).exch = s.exch :=
  (of_fixed (takeAccept_fixed s ex c n)).2.2.2.2.1
@[simp] theorem takeAccept_change (s : State) (ex : Exchange) (c : List Byte) (n : Fin 24) : (takeAccept ex c n s).change = s.change :=
  (of_fixed (takeAccept_fixed s ex c n)).2.2.2.2.2.1
@[simp] theorem refused_spine (s : State) (w : Work) (r : Nat) (n : Fin 24) : (refused w r n s).spine = s.spine :=
  spine_of_fixed (refused_fixed s w r n)
@[simp] theorem refused_mem (s : State) (w : Work) (r : Nat) (n : Fin 24) : (refused w r n s).mem = s.mem :=
  (of_fixed (refused_fixed s w r n)).1
@[simp] theorem refused_engine (s : State) (w : Work) (r : Nat) (n : Fin 24) : (refused w r n s).engine = s.engine :=
  (of_fixed (refused_fixed s w r n)).2.1
@[simp] theorem refused_exch (s : State) (w : Work) (r : Nat) (n : Fin 24) : (refused w r n s).exch = s.exch :=
  (of_fixed (refused_fixed s w r n)).2.2.2.2.1
@[simp] theorem refused_change (s : State) (w : Work) (r : Nat) (n : Fin 24) : (refused w r n s).change = s.change :=
  (of_fixed (refused_fixed s w r n)).2.2.2.2.2.1
@[simp] theorem takeRefuse_spine (s : State) (ex : Exchange) (c : List Byte) (n : Fin 24) : (takeRefuse ex c n s).spine = s.spine :=
  spine_of_fixed (takeRefuse_fixed s ex c n)
@[simp] theorem takeRefuse_mem (s : State) (ex : Exchange) (c : List Byte) (n : Fin 24) : (takeRefuse ex c n s).mem = s.mem :=
  (of_fixed (takeRefuse_fixed s ex c n)).1
@[simp] theorem takeRefuse_engine (s : State) (ex : Exchange) (c : List Byte) (n : Fin 24) : (takeRefuse ex c n s).engine = s.engine :=
  (of_fixed (takeRefuse_fixed s ex c n)).2.1
@[simp] theorem takeRefuse_exch (s : State) (ex : Exchange) (c : List Byte) (n : Fin 24) : (takeRefuse ex c n s).exch = s.exch :=
  (of_fixed (takeRefuse_fixed s ex c n)).2.2.2.2.1
@[simp] theorem takeRefuse_change (s : State) (ex : Exchange) (c : List Byte) (n : Fin 24) : (takeRefuse ex c n s).change = s.change :=
  (of_fixed (takeRefuse_fixed s ex c n)).2.2.2.2.2.1
@[simp] theorem countRefusal_spine (s : State) (l : Fin 4) : (countRefusal l s).spine = s.spine :=
  spine_of_fixed (countRefusal_fixed s l)
@[simp] theorem countRefusal_mem (s : State) (l : Fin 4) : (countRefusal l s).mem = s.mem :=
  (of_fixed (countRefusal_fixed s l)).1
@[simp] theorem countRefusal_engine (s : State) (l : Fin 4) : (countRefusal l s).engine = s.engine :=
  (of_fixed (countRefusal_fixed s l)).2.1
@[simp] theorem countRefusal_exch (s : State) (l : Fin 4) : (countRefusal l s).exch = s.exch :=
  (of_fixed (countRefusal_fixed s l)).2.2.2.2.1
@[simp] theorem countRefusal_change (s : State) (l : Fin 4) : (countRefusal l s).change = s.change :=
  (of_fixed (countRefusal_fixed s l)).2.2.2.2.2.1
@[simp] theorem repairSent_spine (s : State) (n : Fin 24) (p : Nat) : (repairSent n p s).spine = s.spine :=
  spine_of_fixed (repairSent_fixed s n p)
@[simp] theorem repairSent_mem (s : State) (n : Fin 24) (p : Nat) : (repairSent n p s).mem = s.mem :=
  (of_fixed (repairSent_fixed s n p)).1
@[simp] theorem repairSent_engine (s : State) (n : Fin 24) (p : Nat) : (repairSent n p s).engine = s.engine :=
  (of_fixed (repairSent_fixed s n p)).2.1
@[simp] theorem repairSent_exch (s : State) (n : Fin 24) (p : Nat) : (repairSent n p s).exch = s.exch :=
  (of_fixed (repairSent_fixed s n p)).2.2.2.2.1
@[simp] theorem repairSent_change (s : State) (n : Fin 24) (p : Nat) : (repairSent n p s).change = s.change :=
  (of_fixed (repairSent_fixed s n p)).2.2.2.2.2.1
@[simp] theorem takePageAck_spine (s : State) (ex : Exchange) (c : List Byte) (n : Fin 24) : (takePageAck ex c n s).spine = s.spine :=
  spine_of_fixed (takePageAck_fixed s ex c n)
@[simp] theorem takePageAck_mem (s : State) (ex : Exchange) (c : List Byte) (n : Fin 24) : (takePageAck ex c n s).mem = s.mem :=
  (of_fixed (takePageAck_fixed s ex c n)).1
@[simp] theorem takePageAck_engine (s : State) (ex : Exchange) (c : List Byte) (n : Fin 24) : (takePageAck ex c n s).engine = s.engine :=
  (of_fixed (takePageAck_fixed s ex c n)).2.1
@[simp] theorem takePageAck_exch (s : State) (ex : Exchange) (c : List Byte) (n : Fin 24) : (takePageAck ex c n s).exch = s.exch :=
  (of_fixed (takePageAck_fixed s ex c n)).2.2.2.2.1
@[simp] theorem takePageAck_change (s : State) (ex : Exchange) (c : List Byte) (n : Fin 24) : (takePageAck ex c n s).change = s.change :=
  (of_fixed (takePageAck_fixed s ex c n)).2.2.2.2.2.1
@[simp] theorem committed_spine (s : State) (keep : Bool) (n : Fin 24) : (committed keep n s).spine = s.spine :=
  spine_of_fixed (committed_fixed s keep n)
@[simp] theorem committed_mem (s : State) (keep : Bool) (n : Fin 24) : (committed keep n s).mem = s.mem :=
  (of_fixed (committed_fixed s keep n)).1
@[simp] theorem committed_engine (s : State) (keep : Bool) (n : Fin 24) : (committed keep n s).engine = s.engine :=
  (of_fixed (committed_fixed s keep n)).2.1
@[simp] theorem committed_exch (s : State) (keep : Bool) (n : Fin 24) : (committed keep n s).exch = s.exch :=
  (of_fixed (committed_fixed s keep n)).2.2.2.2.1
@[simp] theorem committed_change (s : State) (keep : Bool) (n : Fin 24) : (committed keep n s).change = s.change :=
  (of_fixed (committed_fixed s keep n)).2.2.2.2.2.1
@[simp] theorem commitBlocklist_spine (s : State) (n : Fin 24) (d : Delivery) (v : Verdict) : (commitBlocklist n d v s).spine = s.spine :=
  spine_of_fixed (commitBlocklist_fixed s n d v)
@[simp] theorem commitBlocklist_mem (s : State) (n : Fin 24) (d : Delivery) (v : Verdict) : (commitBlocklist n d v s).mem = s.mem :=
  (of_fixed (commitBlocklist_fixed s n d v)).1
@[simp] theorem commitBlocklist_engine (s : State) (n : Fin 24) (d : Delivery) (v : Verdict) : (commitBlocklist n d v s).engine = s.engine :=
  (of_fixed (commitBlocklist_fixed s n d v)).2.1
@[simp] theorem commitBlocklist_exch (s : State) (n : Fin 24) (d : Delivery) (v : Verdict) : (commitBlocklist n d v s).exch = s.exch :=
  (of_fixed (commitBlocklist_fixed s n d v)).2.2.2.2.1
@[simp] theorem commitBlocklist_change (s : State) (n : Fin 24) (d : Delivery) (v : Verdict) : (commitBlocklist n d v s).change = s.change :=
  (of_fixed (commitBlocklist_fixed s n d v)).2.2.2.2.2.1
@[simp] theorem commitEdition_spine (s : State) (n : Fin 24) (d : Delivery) : (commitEdition n d s).spine = s.spine :=
  spine_of_fixed (commitEdition_fixed s n d)
@[simp] theorem commitEdition_mem (s : State) (n : Fin 24) (d : Delivery) : (commitEdition n d s).mem = s.mem :=
  (of_fixed (commitEdition_fixed s n d)).1
@[simp] theorem commitEdition_engine (s : State) (n : Fin 24) (d : Delivery) : (commitEdition n d s).engine = s.engine :=
  (of_fixed (commitEdition_fixed s n d)).2.1
@[simp] theorem commitEdition_exch (s : State) (n : Fin 24) (d : Delivery) : (commitEdition n d s).exch = s.exch :=
  (of_fixed (commitEdition_fixed s n d)).2.2.2.2.1
@[simp] theorem commitEdition_change (s : State) (n : Fin 24) (d : Delivery) : (commitEdition n d s).change = s.change :=
  (of_fixed (commitEdition_fixed s n d)).2.2.2.2.2.1
@[simp] theorem closeTally_spine (s : State) (n : Fin 24) (d : Delivery) : (closeTally n d s).spine = s.spine :=
  spine_of_fixed (closeTally_fixed s n d)
@[simp] theorem closeTally_mem (s : State) (n : Fin 24) (d : Delivery) : (closeTally n d s).mem = s.mem :=
  (of_fixed (closeTally_fixed s n d)).1
@[simp] theorem closeTally_engine (s : State) (n : Fin 24) (d : Delivery) : (closeTally n d s).engine = s.engine :=
  (of_fixed (closeTally_fixed s n d)).2.1
@[simp] theorem closeTally_exch (s : State) (n : Fin 24) (d : Delivery) : (closeTally n d s).exch = s.exch :=
  (of_fixed (closeTally_fixed s n d)).2.2.2.2.1
@[simp] theorem closeTally_change (s : State) (n : Fin 24) (d : Delivery) : (closeTally n d s).change = s.change :=
  (of_fixed (closeTally_fixed s n d)).2.2.2.2.2.1
@[simp] theorem takeCloseAck_spine (s : State) (ex : Exchange) (c : List Byte) (n : Fin 24) : (takeCloseAck ex c n s).spine = s.spine :=
  spine_of_fixed (takeCloseAck_fixed s ex c n)
@[simp] theorem takeCloseAck_mem (s : State) (ex : Exchange) (c : List Byte) (n : Fin 24) : (takeCloseAck ex c n s).mem = s.mem :=
  (of_fixed (takeCloseAck_fixed s ex c n)).1
@[simp] theorem takeCloseAck_engine (s : State) (ex : Exchange) (c : List Byte) (n : Fin 24) : (takeCloseAck ex c n s).engine = s.engine :=
  (of_fixed (takeCloseAck_fixed s ex c n)).2.1
@[simp] theorem takeCloseAck_exch (s : State) (ex : Exchange) (c : List Byte) (n : Fin 24) : (takeCloseAck ex c n s).exch = s.exch :=
  (of_fixed (takeCloseAck_fixed s ex c n)).2.2.2.2.1
@[simp] theorem takeCloseAck_change (s : State) (ex : Exchange) (c : List Byte) (n : Fin 24) : (takeCloseAck ex c n s).change = s.change :=
  (of_fixed (takeCloseAck_fixed s ex c n)).2.2.2.2.2.1
@[simp] theorem takeCheckReport_spine (s : State) (ex : Exchange) (c : List Byte) (n : Fin 24) : (takeCheckReport ex c n s).spine = s.spine :=
  spine_of_fixed (takeCheckReport_fixed s ex c n)
@[simp] theorem takeCheckReport_mem (s : State) (ex : Exchange) (c : List Byte) (n : Fin 24) : (takeCheckReport ex c n s).mem = s.mem :=
  (of_fixed (takeCheckReport_fixed s ex c n)).1
@[simp] theorem takeCheckReport_engine (s : State) (ex : Exchange) (c : List Byte) (n : Fin 24) : (takeCheckReport ex c n s).engine = s.engine :=
  (of_fixed (takeCheckReport_fixed s ex c n)).2.1
@[simp] theorem takeCheckReport_exch (s : State) (ex : Exchange) (c : List Byte) (n : Fin 24) : (takeCheckReport ex c n s).exch = s.exch :=
  (of_fixed (takeCheckReport_fixed s ex c n)).2.2.2.2.1
@[simp] theorem takeCheckReport_change (s : State) (ex : Exchange) (c : List Byte) (n : Fin 24) : (takeCheckReport ex c n s).change = s.change :=
  (of_fixed (takeCheckReport_fixed s ex c n)).2.2.2.2.2.1
@[simp] theorem busyWork_spine (s : State) (w : Work) (n : Fin 24) : (busyWork w n s).spine = s.spine :=
  spine_of_fixed (busyWork_fixed s w n)
@[simp] theorem busyWork_mem (s : State) (w : Work) (n : Fin 24) : (busyWork w n s).mem = s.mem :=
  (of_fixed (busyWork_fixed s w n)).1
@[simp] theorem busyWork_engine (s : State) (w : Work) (n : Fin 24) : (busyWork w n s).engine = s.engine :=
  (of_fixed (busyWork_fixed s w n)).2.1
@[simp] theorem busyWork_exch (s : State) (w : Work) (n : Fin 24) : (busyWork w n s).exch = s.exch :=
  (of_fixed (busyWork_fixed s w n)).2.2.2.2.1
@[simp] theorem busyWork_change (s : State) (w : Work) (n : Fin 24) : (busyWork w n s).change = s.change :=
  (of_fixed (busyWork_fixed s w n)).2.2.2.2.2.1
@[simp] theorem busyDue_spine (s : State) (w : Work) (n : Fin 24) : (busyDue w n s).spine = s.spine :=
  spine_of_fixed (busyDue_fixed s w n)
@[simp] theorem busyDue_mem (s : State) (w : Work) (n : Fin 24) : (busyDue w n s).mem = s.mem :=
  (of_fixed (busyDue_fixed s w n)).1
@[simp] theorem busyDue_engine (s : State) (w : Work) (n : Fin 24) : (busyDue w n s).engine = s.engine :=
  (of_fixed (busyDue_fixed s w n)).2.1
@[simp] theorem busyDue_exch (s : State) (w : Work) (n : Fin 24) : (busyDue w n s).exch = s.exch :=
  (of_fixed (busyDue_fixed s w n)).2.2.2.2.1
@[simp] theorem busyDue_change (s : State) (w : Work) (n : Fin 24) : (busyDue w n s).change = s.change :=
  (of_fixed (busyDue_fixed s w n)).2.2.2.2.2.1
@[simp] theorem countBusy_spine (s : State) (n : Fin 24) : (countBusy n s).spine = s.spine :=
  spine_of_fixed (countBusy_fixed s n)
@[simp] theorem countBusy_mem (s : State) (n : Fin 24) : (countBusy n s).mem = s.mem :=
  (of_fixed (countBusy_fixed s n)).1
@[simp] theorem countBusy_engine (s : State) (n : Fin 24) : (countBusy n s).engine = s.engine :=
  (of_fixed (countBusy_fixed s n)).2.1
@[simp] theorem countBusy_exch (s : State) (n : Fin 24) : (countBusy n s).exch = s.exch :=
  (of_fixed (countBusy_fixed s n)).2.2.2.2.1
@[simp] theorem countBusy_change (s : State) (n : Fin 24) : (countBusy n s).change = s.change :=
  (of_fixed (countBusy_fixed s n)).2.2.2.2.2.1
@[simp] theorem takeBusy_spine (s : State) (l : Fin 4) : (takeBusy l s).spine = s.spine :=
  spine_of_fixed (takeBusy_fixed s l)
@[simp] theorem takeBusy_mem (s : State) (l : Fin 4) : (takeBusy l s).mem = s.mem :=
  (of_fixed (takeBusy_fixed s l)).1
@[simp] theorem takeBusy_engine (s : State) (l : Fin 4) : (takeBusy l s).engine = s.engine :=
  (of_fixed (takeBusy_fixed s l)).2.1
@[simp] theorem takeBusy_exch (s : State) (l : Fin 4) : (takeBusy l s).exch = s.exch :=
  (of_fixed (takeBusy_fixed s l)).2.2.2.2.1
@[simp] theorem takeBusy_change (s : State) (l : Fin 4) : (takeBusy l s).change = s.change :=
  (of_fixed (takeBusy_fixed s l)).2.2.2.2.2.1
@[simp] theorem dissolve_spine (s : State) (g : Group) : (dissolve g s).spine = s.spine :=
  spine_of_fixed (dissolve_fixed s g)
@[simp] theorem dissolve_mem (s : State) (g : Group) : (dissolve g s).mem = s.mem :=
  (of_fixed (dissolve_fixed s g)).1
@[simp] theorem dissolve_engine (s : State) (g : Group) : (dissolve g s).engine = s.engine :=
  (of_fixed (dissolve_fixed s g)).2.1
@[simp] theorem dissolve_exch (s : State) (g : Group) : (dissolve g s).exch = s.exch :=
  (of_fixed (dissolve_fixed s g)).2.2.2.2.1
@[simp] theorem dissolve_change (s : State) (g : Group) : (dissolve g s).change = s.change :=
  (of_fixed (dissolve_fixed s g)).2.2.2.2.2.1
@[simp] theorem dissolveLine_spine (s : State) (l : Fin 4) : (dissolveLine l s).spine = s.spine :=
  spine_of_fixed (dissolveLine_fixed s l)
@[simp] theorem dissolveLine_mem (s : State) (l : Fin 4) : (dissolveLine l s).mem = s.mem :=
  (of_fixed (dissolveLine_fixed s l)).1
@[simp] theorem dissolveLine_engine (s : State) (l : Fin 4) : (dissolveLine l s).engine = s.engine :=
  (of_fixed (dissolveLine_fixed s l)).2.1
@[simp] theorem dissolveLine_exch (s : State) (l : Fin 4) : (dissolveLine l s).exch = s.exch :=
  (of_fixed (dissolveLine_fixed s l)).2.2.2.2.1
@[simp] theorem dissolveLine_change (s : State) (l : Fin 4) : (dissolveLine l s).change = s.change :=
  (of_fixed (dissolveLine_fixed s l)).2.2.2.2.2.1
@[simp] theorem refreshLine_spine (s : State) (l : Fin 4) : (refreshLine l s).spine = s.spine :=
  spine_of_fixed (refreshLine_fixed s l)
@[simp] theorem refreshLine_mem (s : State) (l : Fin 4) : (refreshLine l s).mem = s.mem :=
  (of_fixed (refreshLine_fixed s l)).1
@[simp] theorem refreshLine_engine (s : State) (l : Fin 4) : (refreshLine l s).engine = s.engine :=
  (of_fixed (refreshLine_fixed s l)).2.1
@[simp] theorem refreshLine_exch (s : State) (l : Fin 4) : (refreshLine l s).exch = s.exch :=
  (of_fixed (refreshLine_fixed s l)).2.2.2.2.1
@[simp] theorem refreshLine_change (s : State) (l : Fin 4) : (refreshLine l s).change = s.change :=
  (of_fixed (refreshLine_fixed s l)).2.2.2.2.2.1
@[simp] theorem rateChanged_spine (s : State) (r : Fin 7) (l : Fin 4) : (rateChanged r l s).spine = s.spine :=
  spine_of_fixed (rateChanged_fixed s r l)
@[simp] theorem rateChanged_mem (s : State) (r : Fin 7) (l : Fin 4) : (rateChanged r l s).mem = s.mem :=
  (of_fixed (rateChanged_fixed s r l)).1
@[simp] theorem rateChanged_engine (s : State) (r : Fin 7) (l : Fin 4) : (rateChanged r l s).engine = s.engine :=
  (of_fixed (rateChanged_fixed s r l)).2.1
@[simp] theorem rateChanged_exch (s : State) (r : Fin 7) (l : Fin 4) : (rateChanged r l s).exch = s.exch :=
  (of_fixed (rateChanged_fixed s r l)).2.2.2.2.1
@[simp] theorem rateChanged_change (s : State) (r : Fin 7) (l : Fin 4) : (rateChanged r l s).change = s.change :=
  (of_fixed (rateChanged_fixed s r l)).2.2.2.2.2.1
@[simp] theorem startPair_spine (s : State) (l : Fin 4) : (startPair l s).spine = s.spine :=
  spine_of_fixed (startPair_fixed s l)
@[simp] theorem startPair_mem (s : State) (l : Fin 4) : (startPair l s).mem = s.mem :=
  (of_fixed (startPair_fixed s l)).1
@[simp] theorem startPair_engine (s : State) (l : Fin 4) : (startPair l s).engine = s.engine :=
  (of_fixed (startPair_fixed s l)).2.1
@[simp] theorem startPair_exch (s : State) (l : Fin 4) : (startPair l s).exch = s.exch :=
  (of_fixed (startPair_fixed s l)).2.2.2.2.1
@[simp] theorem startPair_change (s : State) (l : Fin 4) : (startPair l s).change = s.change :=
  (of_fixed (startPair_fixed s l)).2.2.2.2.2.1
@[simp] theorem splitOdd_spine (s : State) (l : Fin 4) : (splitOdd l s).spine = s.spine :=
  spine_of_fixed (splitOdd_fixed s l)
@[simp] theorem splitOdd_mem (s : State) (l : Fin 4) : (splitOdd l s).mem = s.mem :=
  (of_fixed (splitOdd_fixed s l)).1
@[simp] theorem splitOdd_engine (s : State) (l : Fin 4) : (splitOdd l s).engine = s.engine :=
  (of_fixed (splitOdd_fixed s l)).2.1
@[simp] theorem splitOdd_exch (s : State) (l : Fin 4) : (splitOdd l s).exch = s.exch :=
  (of_fixed (splitOdd_fixed s l)).2.2.2.2.1
@[simp] theorem splitOdd_change (s : State) (l : Fin 4) : (splitOdd l s).change = s.change :=
  (of_fixed (splitOdd_fixed s l)).2.2.2.2.2.1
@[simp] theorem leaveOff_spine (s : State) (l : Fin 4) : (leaveOff l s).spine = s.spine :=
  spine_of_fixed (leaveOff_fixed s l)
@[simp] theorem leaveOff_mem (s : State) (l : Fin 4) : (leaveOff l s).mem = s.mem :=
  (of_fixed (leaveOff_fixed s l)).1
@[simp] theorem leaveOff_engine (s : State) (l : Fin 4) : (leaveOff l s).engine = s.engine :=
  (of_fixed (leaveOff_fixed s l)).2.1
@[simp] theorem leaveOff_exch (s : State) (l : Fin 4) : (leaveOff l s).exch = s.exch :=
  (of_fixed (leaveOff_fixed s l)).2.2.2.2.1
@[simp] theorem leaveOff_change (s : State) (l : Fin 4) : (leaveOff l s).change = s.change :=
  (of_fixed (leaveOff_fixed s l)).2.2.2.2.2.1
@[simp] theorem applyPort_spine (s : State) (l : Fin 4) : (applyPort l s).spine = s.spine :=
  spine_of_fixed (applyPort_fixed s l)
@[simp] theorem applyPort_mem (s : State) (l : Fin 4) : (applyPort l s).mem = s.mem :=
  (of_fixed (applyPort_fixed s l)).1
@[simp] theorem applyPort_engine (s : State) (l : Fin 4) : (applyPort l s).engine = s.engine :=
  (of_fixed (applyPort_fixed s l)).2.1
@[simp] theorem applyPort_exch (s : State) (l : Fin 4) : (applyPort l s).exch = s.exch :=
  (of_fixed (applyPort_fixed s l)).2.2.2.2.1
@[simp] theorem applyPort_change (s : State) (l : Fin 4) : (applyPort l s).change = s.change :=
  (of_fixed (applyPort_fixed s l)).2.2.2.2.2.1
@[simp] theorem applyModes_spine (s : State) (l : Fin 4) : (applyModes l s).spine = s.spine :=
  spine_of_fixed (applyModes_fixed s l)
@[simp] theorem applyModes_mem (s : State) (l : Fin 4) : (applyModes l s).mem = s.mem :=
  (of_fixed (applyModes_fixed s l)).1
@[simp] theorem applyModes_engine (s : State) (l : Fin 4) : (applyModes l s).engine = s.engine :=
  (of_fixed (applyModes_fixed s l)).2.1
@[simp] theorem applyModes_exch (s : State) (l : Fin 4) : (applyModes l s).exch = s.exch :=
  (of_fixed (applyModes_fixed s l)).2.2.2.2.1
@[simp] theorem applyModes_change (s : State) (l : Fin 4) : (applyModes l s).change = s.change :=
  (of_fixed (applyModes_fixed s l)).2.2.2.2.2.1
@[simp] theorem recordLine_spine (s : State) (m : Nat) (i : Fin 4) (l : Fin 4) : (recordLine m i l s).spine = s.spine :=
  spine_of_fixed (recordLine_fixed s m i l)
@[simp] theorem recordLine_mem (s : State) (m : Nat) (i : Fin 4) (l : Fin 4) : (recordLine m i l s).mem = s.mem :=
  (of_fixed (recordLine_fixed s m i l)).1
@[simp] theorem recordLine_engine (s : State) (m : Nat) (i : Fin 4) (l : Fin 4) : (recordLine m i l s).engine = s.engine :=
  (of_fixed (recordLine_fixed s m i l)).2.1
@[simp] theorem recordLine_exch (s : State) (m : Nat) (i : Fin 4) (l : Fin 4) : (recordLine m i l s).exch = s.exch :=
  (of_fixed (recordLine_fixed s m i l)).2.2.2.2.1
@[simp] theorem recordLine_change (s : State) (m : Nat) (i : Fin 4) (l : Fin 4) : (recordLine m i l s).change = s.change :=
  (of_fixed (recordLine_fixed s m i l)).2.2.2.2.2.1
@[simp] theorem silencePort_spine (s : State) (l : Fin 4) : (silencePort l s).spine = s.spine :=
  spine_of_fixed (silencePort_fixed s l)
@[simp] theorem silencePort_mem (s : State) (l : Fin 4) : (silencePort l s).mem = s.mem :=
  (of_fixed (silencePort_fixed s l)).1
@[simp] theorem silencePort_engine (s : State) (l : Fin 4) : (silencePort l s).engine = s.engine :=
  (of_fixed (silencePort_fixed s l)).2.1
@[simp] theorem silencePort_exch (s : State) (l : Fin 4) : (silencePort l s).exch = s.exch :=
  (of_fixed (silencePort_fixed s l)).2.2.2.2.1
@[simp] theorem silencePort_change (s : State) (l : Fin 4) : (silencePort l s).change = s.change :=
  (of_fixed (silencePort_fixed s l)).2.2.2.2.2.1
@[simp] theorem lineOffSlot_spine (s : State) (n : Fin 24) : (lineOffSlot n s).spine = s.spine :=
  spine_of_fixed (lineOffSlot_fixed s n)
@[simp] theorem lineOffSlot_mem (s : State) (n : Fin 24) : (lineOffSlot n s).mem = s.mem :=
  (of_fixed (lineOffSlot_fixed s n)).1
@[simp] theorem lineOffSlot_engine (s : State) (n : Fin 24) : (lineOffSlot n s).engine = s.engine :=
  (of_fixed (lineOffSlot_fixed s n)).2.1
@[simp] theorem lineOffSlot_exch (s : State) (n : Fin 24) : (lineOffSlot n s).exch = s.exch :=
  (of_fixed (lineOffSlot_fixed s n)).2.2.2.2.1
@[simp] theorem lineOffSlot_change (s : State) (n : Fin 24) : (lineOffSlot n s).change = s.change :=
  (of_fixed (lineOffSlot_fixed s n)).2.2.2.2.2.1
@[simp] theorem dropReception_spine (s : State) (l : Fin 4) : (dropReception l s).spine = s.spine :=
  spine_of_fixed (dropReception_fixed s l)
@[simp] theorem dropReception_mem (s : State) (l : Fin 4) : (dropReception l s).mem = s.mem :=
  (of_fixed (dropReception_fixed s l)).1
@[simp] theorem dropReception_engine (s : State) (l : Fin 4) : (dropReception l s).engine = s.engine :=
  (of_fixed (dropReception_fixed s l)).2.1
@[simp] theorem dropReception_exch (s : State) (l : Fin 4) : (dropReception l s).exch = s.exch :=
  (of_fixed (dropReception_fixed s l)).2.2.2.2.1
@[simp] theorem dropReception_change (s : State) (l : Fin 4) : (dropReception l s).change = s.change :=
  (of_fixed (dropReception_fixed s l)).2.2.2.2.2.1
@[simp] theorem goOff_spine (s : State) (ns : List (Fin 24)) (l : Fin 4) : (goOff ns l s).spine = s.spine :=
  spine_of_fixed (goOff_fixed s ns l)
@[simp] theorem goOff_mem (s : State) (ns : List (Fin 24)) (l : Fin 4) : (goOff ns l s).mem = s.mem :=
  (of_fixed (goOff_fixed s ns l)).1
@[simp] theorem goOff_engine (s : State) (ns : List (Fin 24)) (l : Fin 4) : (goOff ns l s).engine = s.engine :=
  (of_fixed (goOff_fixed s ns l)).2.1
@[simp] theorem goOff_exch (s : State) (ns : List (Fin 24)) (l : Fin 4) : (goOff ns l s).exch = s.exch :=
  (of_fixed (goOff_fixed s ns l)).2.2.2.2.1
@[simp] theorem goOff_change (s : State) (ns : List (Fin 24)) (l : Fin 4) : (goOff ns l s).change = s.change :=
  (of_fixed (goOff_fixed s ns l)).2.2.2.2.2.1
@[simp] theorem takeBackUnstarted_spine (s : State) (l : Fin 4) : (takeBackUnstarted l s).spine = s.spine :=
  spine_of_fixed (takeBackUnstarted_fixed s l)
@[simp] theorem takeBackUnstarted_mem (s : State) (l : Fin 4) : (takeBackUnstarted l s).mem = s.mem :=
  (of_fixed (takeBackUnstarted_fixed s l)).1
@[simp] theorem takeBackUnstarted_engine (s : State) (l : Fin 4) : (takeBackUnstarted l s).engine = s.engine :=
  (of_fixed (takeBackUnstarted_fixed s l)).2.1
@[simp] theorem takeBackUnstarted_exch (s : State) (l : Fin 4) : (takeBackUnstarted l s).exch = s.exch :=
  (of_fixed (takeBackUnstarted_fixed s l)).2.2.2.2.1
@[simp] theorem takeBackUnstarted_change (s : State) (l : Fin 4) : (takeBackUnstarted l s).change = s.change :=
  (of_fixed (takeBackUnstarted_fixed s l)).2.2.2.2.2.1
@[simp] theorem rebindPair_spine (s : State) (l : Fin 4) : (rebindPair l s).spine = s.spine :=
  spine_of_fixed (rebindPair_fixed s l)
@[simp] theorem rebindPair_mem (s : State) (l : Fin 4) : (rebindPair l s).mem = s.mem :=
  (of_fixed (rebindPair_fixed s l)).1
@[simp] theorem rebindPair_engine (s : State) (l : Fin 4) : (rebindPair l s).engine = s.engine :=
  (of_fixed (rebindPair_fixed s l)).2.1
@[simp] theorem rebindPair_exch (s : State) (l : Fin 4) : (rebindPair l s).exch = s.exch :=
  (of_fixed (rebindPair_fixed s l)).2.2.2.2.1
@[simp] theorem rebindPair_change (s : State) (l : Fin 4) : (rebindPair l s).change = s.change :=
  (of_fixed (rebindPair_fixed s l)).2.2.2.2.2.1
@[simp] theorem acceptLine_spine (s : State) (l : Fin 4) (m : Nat) (i : Fin 4) : (acceptLine l m i s).spine = s.spine :=
  spine_of_fixed (acceptLine_fixed s l m i)
@[simp] theorem acceptLine_mem (s : State) (l : Fin 4) (m : Nat) (i : Fin 4) : (acceptLine l m i s).mem = s.mem :=
  (of_fixed (acceptLine_fixed s l m i)).1
@[simp] theorem acceptLine_engine (s : State) (l : Fin 4) (m : Nat) (i : Fin 4) : (acceptLine l m i s).engine = s.engine :=
  (of_fixed (acceptLine_fixed s l m i)).2.1
@[simp] theorem acceptLine_exch (s : State) (l : Fin 4) (m : Nat) (i : Fin 4) : (acceptLine l m i s).exch = s.exch :=
  (of_fixed (acceptLine_fixed s l m i)).2.2.2.2.1
@[simp] theorem acceptLine_change (s : State) (l : Fin 4) (m : Nat) (i : Fin 4) : (acceptLine l m i s).change = s.change :=
  (of_fixed (acceptLine_fixed s l m i)).2.2.2.2.2.1

end Sys2Proof.Machine
end

