-- ==== Sys2Proof/Laws/Jobs.lean ====
section
/-! SUPPORT. The change engine, the edition manager, the strips and the report writer: none of their operations changes the
spine, and each keeps the canonical form of shared memory. -/

namespace Sys2Proof.Machine

theorem foldl_wf {β : Type} (f : State → β → State)
    (h : ∀ s b, Memory.wf s.mem = true → Memory.wf (f s b).mem = true) :
    ∀ (xs : List β) (s : State), Memory.wf s.mem = true → Memory.wf (xs.foldl f s).mem = true
  | [], _, w => w
  | x :: xs, s, w => foldl_wf f h xs (f s x) (h s x w)

theorem spine_change (s : State) (c : ChangeEngine) : ({ s with change := c } : State).spine = s.spine := rfl
theorem spine_editions (s : State) (c : EditionMgr) : ({ s with editions := c } : State).spine = s.spine := rfl
theorem spine_mem_change (s : State) (m : List Host.Cell) (c : ChangeEngine) :
    ({ s with mem := m, change := c } : State).spine = s.spine := rfl
theorem spine_mem (s : State) (m : List Host.Cell) : ({ s with mem := m } : State).spine = s.spine := rfl
theorem spine_report (s : State) (r : Report) : ({ s with report := r } : State).spine = s.spine := rfl
theorem spine_clock (s : State) (c : Clock) : ({ s with clock := c } : State).spine = s.spine := rfl
@[simp] theorem setStrip_spine (s : State) (t : Strip) (v : StripState) : (s.setStrip t v).spine = s.spine :=
  spine_of_offStrip (t := t) (by simp)
@[simp] theorem writeSlotBytes_spine (t : Strip) (o : Nat) (bs : List Byte) (s : State) :
    (writeSlotBytes t o bs s).spine = s.spine := rfl

theorem writeEntries_wf {m : List Host.Cell} (w : Memory.wf m = true) (b n : Nat) (es : List Entry) :
    Memory.wf (writeEntries m b n es) = true := Memory.writeBytes_wf _ _ w
theorem writeHeader_wf {m : List Host.Cell} (w : Memory.wf m = true) (b n k : Nat) (g i : Word) :
    Memory.wf (writeHeader m b n k g i) = true := Memory.writeBytes_wf _ _ w
theorem writeVoids_wf {m : List Host.Cell} (w : Memory.wf m = true) (b n : Nat) (i : Word) (k : Nat) :
    Memory.wf (writeVoids m b n i k) = true := by
  induction k generalizing m n with
  | zero => exact w
  | succ k ih =>
    unfold writeVoids
    exact ih (Memory.writeBytes_wf _ _ w) _
theorem applyAdd_wf {m : List Host.Cell} (w : Memory.wf m = true) (img : Surface) (f : Nat → Nat) (e : Entry) :
    Memory.wf (applyAdd m img f e).mem = true := by
  unfold applyAdd
  simp only
  repeat' split
  all_goals first | exact w | exact writeEntries_wf w _ _ _
theorem applyRemove_wf {m : List Host.Cell} (w : Memory.wf m = true) (img : Surface) (f : Nat → Nat) (k : BitVec 64) :
    Memory.wf (applyRemove m img f k).mem = true := by
  unfold applyRemove
  repeat' split
  all_goals first | exact w | exact writeEntries_wf w _ _ _
theorem applyItem_wf {m : List Host.Cell} (w : Memory.wf m = true) (img : Surface) (f : Nat → Nat) (sd : Option Nat)
    (i : Item) : Memory.wf (applyItem m img f sd i).mem = true := by
  unfold applyItem
  repeat' split
  all_goals first | exact w | exact applyAdd_wf w _ _ _ | exact applyRemove_wf w _ _ _
theorem State.applied_wf {s : State} (w : Memory.wf s.mem = true) (b : Batch) : Memory.wf (s.applied b).mem = true :=
  applyItem_wf w _ _ _ _
theorem writeSlotBytes_wf {s : State} (w : Memory.wf s.mem = true) (t : Strip) (o : Nat) (bs : List Byte) :
    Memory.wf (writeSlotBytes t o bs s).mem = true := Memory.writeBytes_wf _ _ w
theorem finish_wf {s : State} (w : Memory.wf s.mem = true) (t : Strip) (n : Bool) (r : Result) :
    Memory.wf (finish t n r s).mem = true := by
  rw [finish_mem]
  exact Memory.writeBytes_wf _ _ (Memory.writeBytes_wf _ _ (Memory.writeBytes_wf _ _ (Memory.writeBytes_wf _ _ w)))
theorem visitN_wf (t : Strip) : ∀ (k : Nat) (s : State), Memory.wf s.mem = true → Memory.wf (visitN t k s).mem = true
  | 0, _, w => w
  | k + 1, s, w => by
    unfold visitN
    split
    · simp only
      split
      · rw [State.setStrip_mem]; exact writeSlotBytes_wf w _ _ _
      · exact visitN_wf t k _ (finish_wf (writeSlotBytes_wf w _ _ _) _ _ _)
    · exact w

@[simp] theorem leaveHolder_spine (s : State) (t : Strip) : (leaveHolder t s).spine = s.spine := by
  unfold leaveHolder
  try simp only
  repeat' split
  all_goals simp [apply_ite State.spine, spine_change, spine_editions, spine_mem_change, spine_mem, spine_report, spine_clock]
@[simp] theorem leaveHolder_mem (s : State) (t : Strip) : (leaveHolder t s).mem = s.mem := by
  unfold leaveHolder
  try simp only
  repeat' split
  all_goals simp [apply_ite State.mem]
@[simp] theorem boundStrip_spine (s : State) (t : Strip) (o : Owner) : (boundStrip t o s).spine = s.spine := by
  unfold boundStrip
  try simp only
  repeat' split
  all_goals simp [apply_ite State.spine, spine_change, spine_editions, spine_mem_change, spine_mem, spine_report, spine_clock]
@[simp] theorem boundStrip_mem (s : State) (t : Strip) (o : Owner) : (boundStrip t o s).mem = s.mem := by
  unfold boundStrip
  try simp only
  repeat' split
  all_goals simp [apply_ite State.mem]
@[simp] theorem boundPurge_spine (s : State) : (boundPurge s).spine = s.spine := by
  unfold boundPurge
  try simp only
  repeat' split
  all_goals simp [apply_ite State.spine, spine_change, spine_editions, spine_mem_change, spine_mem, spine_report, spine_clock]
@[simp] theorem boundPurge_mem (s : State) : (boundPurge s).mem = s.mem := by
  unfold boundPurge
  try simp only
  repeat' split
  all_goals simp [apply_ite State.mem]
@[simp] theorem takeUp_spine (s : State) (t : Strip) (o : Owner) : (takeUp t o s).spine = s.spine := by
  unfold takeUp
  try simp only
  repeat' split
  all_goals simp [apply_ite State.spine, spine_change, spine_editions, spine_mem_change, spine_mem, spine_report, spine_clock]
@[simp] theorem takeUp_mem (s : State) (t : Strip) (o : Owner) : (takeUp t o s).mem = s.mem := by
  unfold takeUp
  try simp only
  repeat' split
  all_goals simp [apply_ite State.mem]
@[simp] theorem visit_spine (s : State) (t : Strip) : (visit t s).spine = s.spine := by
  exact spine_of_offStrip (visit_offStrip t s)
theorem visit_wf (s : State) (t : Strip) (w : Memory.wf s.mem = true) :
    Memory.wf (visit t s).mem = true := by
  exact visitN_wf t _ s w
@[simp] theorem visitBoth_spine (s : State) : (visitBoth s).spine = s.spine := by
  unfold visitBoth
  try simp only
  repeat' split
  all_goals simp [apply_ite State.spine, spine_change, spine_editions, spine_mem_change, spine_mem, spine_report, spine_clock]
theorem visitBoth_wf (s : State) (w : Memory.wf s.mem = true) :
    Memory.wf (visitBoth s).mem = true := by
  unfold visitBoth
  try simp only
  repeat' split
  all_goals try simp
  all_goals repeat' first | with_reducible exact w | with_reducible apply visit_wf
@[simp] theorem completeRequest_spine (s : State) (t : Strip) (r : Result) : (completeRequest t r s).spine = s.spine := by
  exact spine_of_offStrip (completeRequest_offStrip t r s)
theorem completeRequest_wf (s : State) (t : Strip) (r : Result) (w : Memory.wf s.mem = true) :
    Memory.wf (completeRequest t r s).mem = true := by
  unfold completeRequest
  try simp only
  repeat' split
  all_goals try simp
  all_goals repeat' first | with_reducible exact w | with_reducible apply finish_wf | with_reducible apply visit_wf
@[simp] theorem completeAfterSummary_spine (s : State) (t : Strip) (r : Result) : (completeAfterSummary t r s).spine = s.spine := by
  unfold completeAfterSummary
  try simp only
  repeat' split
  all_goals simp [apply_ite State.spine, spine_change, spine_editions, spine_mem_change, spine_mem, spine_report, spine_clock]
@[simp] theorem completeAfterSummary_mem (s : State) (t : Strip) (r : Result) : (completeAfterSummary t r s).mem = s.mem := by
  unfold completeAfterSummary
  try simp only
  repeat' split
  all_goals simp [apply_ite State.mem]
@[simp] theorem writeCompletion_spine (s : State) (t : Strip) (r : Result) (k : Nat) : (writeCompletion t r k s).spine = s.spine := by
  exact spine_of_offStrip (t := t) (by simp)
theorem writeCompletion_wf (s : State) (t : Strip) (r : Result) (k : Nat) (w : Memory.wf s.mem = true) :
    Memory.wf (writeCompletion t r k s).mem = true := by
  unfold writeCompletion
  try simp only
  repeat' split
  all_goals try simp
  all_goals repeat' first | with_reducible exact w | with_reducible apply writeSlotBytes_wf
@[simp] theorem writeRecord_spine (s : State) (r : Fin 29) (k : Nat) : (writeRecord r k s).spine = s.spine := by
  unfold writeRecord
  try simp only
  repeat' split
  all_goals simp [apply_ite State.spine, spine_change, spine_editions, spine_mem_change, spine_mem, spine_report, spine_clock]
theorem writeRecord_wf (s : State) (r : Fin 29) (k : Nat) (w : Memory.wf s.mem = true) :
    Memory.wf (writeRecord r k s).mem = true := by
  unfold writeRecord
  try simp only
  repeat' split
  all_goals try simp
  all_goals repeat' first | with_reducible exact w | with_reducible apply Memory.writeBytes_wf
@[simp] theorem stopRecordTimer_spine (s : State) (r : Fin 29) : (stopRecordTimer r s).spine = s.spine := by
  unfold stopRecordTimer
  try simp only
  repeat' split
  all_goals simp [apply_ite State.spine, spine_change, spine_editions, spine_mem_change, spine_mem, spine_report, spine_clock]
@[simp] theorem stopRecordTimer_mem (s : State) (r : Fin 29) : (stopRecordTimer r s).mem = s.mem := by
  unfold stopRecordTimer
  try simp only
  repeat' split
  all_goals simp [apply_ite State.mem]
@[simp] theorem queuePurge_spine (s : State) : (queuePurge s).spine = s.spine := by
  unfold queuePurge
  try simp only
  repeat' split
  all_goals simp [apply_ite State.spine, spine_change, spine_editions, spine_mem_change, spine_mem, spine_report, spine_clock]
@[simp] theorem queuePurge_mem (s : State) : (queuePurge s).mem = s.mem := by
  unfold queuePurge
  try simp only
  repeat' split
  all_goals simp [apply_ite State.mem]
@[simp] theorem startFormat_spine (s : State) (t : Strip) (r : Request) (k : Nat) : (startFormat t r k s).spine = s.spine := by
  unfold startFormat
  try simp only
  repeat' split
  all_goals simp [apply_ite State.spine, spine_change, spine_editions, spine_mem_change, spine_mem, spine_report, spine_clock]
theorem startFormat_wf (s : State) (t : Strip) (r : Request) (k : Nat) (w : Memory.wf s.mem = true) :
    Memory.wf (startFormat t r k s).mem = true := by
  unfold startFormat
  try simp only
  repeat' split
  all_goals try simp
  all_goals repeat' first | with_reducible exact w | with_reducible apply writeVoids_wf
@[simp] theorem switchTo_spine (s : State) (f : Format) : (switchTo f s).spine = s.spine := by
  unfold switchTo
  try simp only
  repeat' split
  all_goals simp [apply_ite State.spine, spine_change, spine_editions, spine_mem_change, spine_mem, spine_report, spine_clock]
@[simp] theorem switchTo_mem (s : State) (f : Format) : (switchTo f s).mem = s.mem := by
  unfold switchTo
  try simp only
  repeat' split
  all_goals simp [apply_ite State.mem]
@[simp] theorem touchNew_spine (s : State) (d : Bool) (p k : Nat) (h : Bool) (r : Rebuild) : (touchNew d p k h s r).spine = s.spine := by
  unfold touchNew
  try simp only
  repeat' split
  all_goals simp [apply_ite State.spine, spine_change, spine_editions, spine_mem_change, spine_mem, spine_report, spine_clock]
theorem touchNew_wf (s : State) (d : Bool) (p k : Nat) (h : Bool) (r : Rebuild) (w : Memory.wf s.mem = true) :
    Memory.wf (touchNew d p k h s r).mem = true := by
  unfold touchNew
  try simp only
  repeat' split
  all_goals try simp
  all_goals repeat' first | with_reducible exact w | with_reducible apply writeHeader_wf
@[simp] theorem mirror_spine (s : State) (d : Bool) (i : Item) : (mirror d i s).spine = s.spine := by
  unfold mirror
  try simp only
  repeat' split
  all_goals simp [apply_ite State.spine, spine_change, spine_editions, spine_mem_change, spine_mem, spine_report, spine_clock]
theorem mirror_wf (s : State) (d : Bool) (i : Item) (w : Memory.wf s.mem = true) :
    Memory.wf (mirror d i s).mem = true := by
  unfold mirror
  try simp only
  repeat' split
  all_goals try simp
  all_goals repeat' first | with_reducible exact w | with_reducible apply applyAdd_wf | with_reducible apply applyRemove_wf | with_reducible apply touchNew_wf
@[simp] theorem applyLive_spine (s : State) (b : Batch) : (applyLive b s).spine = s.spine := by
  unfold applyLive
  try simp only
  repeat' split
  all_goals simp [apply_ite State.spine, spine_change, spine_editions, spine_mem_change, spine_mem, spine_report, spine_clock]
theorem applyLive_wf (s : State) (b : Batch) (w : Memory.wf s.mem = true) :
    Memory.wf (applyLive b s).mem = true := by
  unfold applyLive
  simp only
  split <;> simp only [State.applied_wf w b]
@[simp] theorem applyNext_spine (s : State) (b : Batch) : ((applyNext b s).1).spine = s.spine := by
  unfold applyNext
  try simp only
  repeat' split
  all_goals simp [apply_ite State.spine, spine_change, spine_editions, spine_mem_change, spine_mem, spine_report, spine_clock]
theorem applyNext_wf (s : State) (b : Batch) (w : Memory.wf s.mem = true) :
    Memory.wf ((applyNext b s).1).mem = true := by
  unfold applyNext
  try simp only
  repeat' split
  all_goals try simp
  all_goals repeat' first | with_reducible exact w | with_reducible apply mirror_wf | with_reducible apply applyLive_wf
@[simp] theorem itemDone_spine (s : State) (o : ItemOutcome) : (itemDone o s).spine = s.spine := by
  unfold itemDone
  try simp only
  repeat' split
  all_goals simp [apply_ite State.spine, spine_change, spine_editions, spine_mem_change, spine_mem, spine_report, spine_clock]
theorem itemDone_wf (s : State) (o : ItemOutcome) (w : Memory.wf s.mem = true) :
    Memory.wf (itemDone o s).mem = true := by
  unfold itemDone
  try simp only
  repeat' split
  all_goals try simp
  all_goals repeat' first | with_reducible exact w | with_reducible apply Memory.write_wf
@[simp] theorem endBatch_spine (s : State) (b : Batch) : (endBatch b s).spine = s.spine := by
  unfold endBatch
  try simp only
  repeat' split
  all_goals simp [apply_ite State.spine, spine_change, spine_editions, spine_mem_change, spine_mem, spine_report, spine_clock]
theorem endBatch_wf (s : State) (b : Batch) (w : Memory.wf s.mem = true) :
    Memory.wf (endBatch b s).mem = true := by
  unfold endBatch
  try simp only
  repeat' split
  all_goals try simp
  all_goals repeat' first | with_reducible exact w | with_reducible apply completeRequest_wf
@[simp] theorem bringUp_spine (s : State) (u : Bool) (p : Nat) : (bringUp u p s).spine = s.spine := by
  unfold bringUp
  simp only
  split
  · rfl
  · exact spine_mem_change s _ _
theorem bringUp_wf (s : State) (u : Bool) (p : Nat) (w : Memory.wf s.mem = true) :
    Memory.wf (bringUp u p s).mem = true := by
  unfold bringUp
  try simp only
  repeat' split
  all_goals try simp
  all_goals repeat' first | with_reducible exact w | with_reducible apply writeHeader_wf
@[simp] theorem raiseG_spine (s : State) : (raiseG s).spine = s.spine := by
  unfold raiseG
  try simp only
  repeat' split
  all_goals simp [apply_ite State.spine, spine_change, spine_editions, spine_mem_change, spine_mem, spine_report, spine_clock]
@[simp] theorem raiseG_mem (s : State) : (raiseG s).mem = s.mem := by
  unfold raiseG
  try simp only
  repeat' split
  all_goals simp [apply_ite State.mem]
@[simp] theorem bringUpAll_spine (s : State) (u : Bool) (ps : List Nat) : (bringUpAll u ps s).spine = s.spine := by
  unfold bringUpAll
  exact foldl_keeps State.spine _ (fun s p => bringUp_spine s u p) _ _
theorem bringUpAll_wf (s : State) (u : Bool) (ps : List Nat) (w : Memory.wf s.mem = true) :
    Memory.wf (bringUpAll u ps s).mem = true := by
  unfold bringUpAll
  exact foldl_wf _ (fun s p h => bringUp_wf s u p h) _ _ w
@[simp] theorem imageSettled_spine (s : State) : (imageSettled s).spine = s.spine := by
  unfold imageSettled
  try simp only
  repeat' split
  all_goals simp [apply_ite State.spine, spine_change, spine_editions, spine_mem_change, spine_mem, spine_report, spine_clock]
@[simp] theorem imageSettled_mem (s : State) : (imageSettled s).mem = s.mem := by
  unfold imageSettled
  try simp only
  repeat' split
  all_goals simp [apply_ite State.mem]
@[simp] theorem takePurge_spine (s : State) : (takePurge s).spine = s.spine := by
  unfold takePurge
  try simp only
  repeat' split
  all_goals simp [apply_ite State.spine, spine_change, spine_editions, spine_mem_change, spine_mem, spine_report, spine_clock]
@[simp] theorem takePurge_mem (s : State) : (takePurge s).mem = s.mem := by
  unfold takePurge
  try simp only
  repeat' split
  all_goals simp [apply_ite State.mem]
@[simp] theorem startRebuild_spine (s : State) (t : Strip) (r : Request) : (startRebuild t r s).spine = s.spine := by
  unfold startRebuild
  try simp only
  repeat' split
  all_goals simp [apply_ite State.spine, spine_change, spine_editions, spine_mem_change, spine_mem, spine_report, spine_clock]
@[simp] theorem startRebuild_mem (s : State) (t : Strip) (r : Request) : (startRebuild t r s).mem = s.mem := by
  unfold startRebuild
  try simp only
  repeat' split
  all_goals simp [apply_ite State.mem]
@[simp] theorem setRebuild_spine (s : State) (r : Rebuild) : (setRebuild r s).spine = s.spine := by
  unfold setRebuild
  try simp only
  repeat' split
  all_goals simp [apply_ite State.spine, spine_change, spine_editions, spine_mem_change, spine_mem, spine_report, spine_clock]
@[simp] theorem setRebuild_mem (s : State) (r : Rebuild) : (setRebuild r s).mem = s.mem := by
  unfold setRebuild
  try simp only
  repeat' split
  all_goals simp [apply_ite State.mem]
@[simp] theorem clearPages_spine (s : State) (k : Nat) (r : Rebuild) : (clearPages k r s).spine = s.spine := by
  unfold clearPages
  try simp only
  repeat' split
  all_goals simp [apply_ite State.spine, spine_change, spine_editions, spine_mem_change, spine_mem, spine_report, spine_clock]
theorem clearPages_wf (s : State) (k : Nat) (r : Rebuild) (w : Memory.wf s.mem = true) :
    Memory.wf (clearPages k r s).mem = true := by
  unfold clearPages
  try simp only
  repeat' split
  all_goals try simp
  all_goals repeat' first | with_reducible exact w | with_reducible apply writeVoids_wf
@[simp] theorem clearSlice_spine (s : State) (r : Rebuild) : (clearSlice r s).spine = s.spine := by
  unfold clearSlice
  try simp only
  repeat' split
  all_goals simp [apply_ite State.spine, spine_change, spine_editions, spine_mem_change, spine_mem, spine_report, spine_clock]
theorem clearSlice_wf (s : State) (r : Rebuild) (w : Memory.wf s.mem = true) :
    Memory.wf (clearSlice r s).mem = true := by
  unfold clearSlice
  try simp only
  repeat' split
  all_goals try simp
  all_goals repeat' first | with_reducible exact w | with_reducible apply clearPages_wf
@[simp] theorem placeCopied_spine (s : State) (h : Bool) (e : Entry) : (placeCopied h s e).spine = s.spine := by
  unfold placeCopied
  try simp only
  repeat' split
  all_goals simp [apply_ite State.spine, spine_change, spine_editions, spine_mem_change, spine_mem, spine_report, spine_clock]
theorem placeCopied_wf (s : State) (h : Bool) (e : Entry) (w : Memory.wf s.mem = true) :
    Memory.wf (placeCopied h s e).mem = true := by
  unfold placeCopied
  try simp only
  repeat' split
  all_goals try simp
  all_goals repeat' first | with_reducible exact w | with_reducible apply writeEntries_wf | with_reducible apply touchNew_wf
@[simp] theorem copyPage_spine (s : State) (p : Nat) : (copyPage p s).spine = s.spine := by
  unfold copyPage
  split
  · exact foldl_keeps State.spine _ (fun s e => placeCopied_spine s _ e) _ _
  · rfl
theorem copyPage_wf (s : State) (p : Nat) (w : Memory.wf s.mem = true) :
    Memory.wf (copyPage p s).mem = true := by
  unfold copyPage
  split
  · exact foldl_wf _ (fun s e h => placeCopied_wf s _ e h) _ _ w
  · exact w
@[simp] theorem copyPages_spine (s : State) (k : Nat) : (copyPages k s).spine = s.spine := by
  unfold copyPages
  exact foldl_keeps State.spine _ (fun s i => copyPage_spine s _) _ _
theorem copyPages_wf (s : State) (k : Nat) (w : Memory.wf s.mem = true) :
    Memory.wf (copyPages k s).mem = true := by
  unfold copyPages
  exact foldl_wf _ (fun s i h => copyPage_wf s _ h) _ _ w
@[simp] theorem failRebuild_spine (s : State) (r : Rebuild) : (failRebuild r s).spine = s.spine := by
  unfold failRebuild
  try simp only
  repeat' split
  all_goals simp [apply_ite State.spine, spine_change, spine_editions, spine_mem_change, spine_mem, spine_report, spine_clock]
@[simp] theorem failRebuild_mem (s : State) (r : Rebuild) : (failRebuild r s).mem = s.mem := by
  unfold failRebuild
  try simp only
  repeat' split
  all_goals simp [apply_ite State.mem]
@[simp] theorem copySlice_spine (s : State) : (copySlice s).spine = s.spine := by
  unfold copySlice
  try simp only
  repeat' split
  all_goals simp [apply_ite State.spine, spine_change, spine_editions, spine_mem_change, spine_mem, spine_report, spine_clock]
theorem copySlice_wf (s : State) (w : Memory.wf s.mem = true) :
    Memory.wf (copySlice s).mem = true := by
  unfold copySlice
  try simp only
  repeat' split
  all_goals try simp
  all_goals repeat' first | with_reducible exact w | with_reducible apply copyPages_wf
@[simp] theorem finishPage_spine (s : State) (p : Nat) : (finishPage p s).spine = s.spine := by
  unfold finishPage
  try simp only
  repeat' split
  all_goals simp [apply_ite State.spine, spine_change, spine_editions, spine_mem_change, spine_mem, spine_report, spine_clock]
theorem finishPage_wf (s : State) (p : Nat) (w : Memory.wf s.mem = true) :
    Memory.wf (finishPage p s).mem = true := by
  unfold finishPage
  try simp only
  repeat' split
  all_goals try simp
  all_goals repeat' first | with_reducible exact w | with_reducible apply writeHeader_wf
@[simp] theorem finishPages_spine (s : State) (a k : Nat) : (finishPages a k s).spine = s.spine := by
  unfold finishPages
  exact foldl_keeps State.spine _ (fun s i => finishPage_spine s _) _ _
theorem finishPages_wf (s : State) (a k : Nat) (w : Memory.wf s.mem = true) :
    Memory.wf (finishPages a k s).mem = true := by
  unfold finishPages
  exact foldl_wf _ (fun s i h => finishPage_wf s _ h) _ _ w
@[simp] theorem lookAround_spine (s : State) : (lookAround s).spine = s.spine := by
  unfold lookAround
  try simp only
  repeat' split
  all_goals simp [apply_ite State.spine, spine_change, spine_editions, spine_mem_change, spine_mem, spine_report, spine_clock]
@[simp] theorem lookAround_mem (s : State) : (lookAround s).mem = s.mem := by
  unfold lookAround
  try simp only
  repeat' split
  all_goals simp [apply_ite State.mem]
@[simp] theorem resumeRebuild_spine (s : State) : (resumeRebuild s).spine = s.spine := by
  unfold resumeRebuild
  try simp only
  repeat' split
  all_goals simp [apply_ite State.spine, spine_change, spine_editions, spine_mem_change, spine_mem, spine_report, spine_clock]
@[simp] theorem resumeRebuild_mem (s : State) : (resumeRebuild s).mem = s.mem := by
  unfold resumeRebuild
  try simp only
  repeat' split
  all_goals simp [apply_ite State.mem]
@[simp] theorem swapTo_spine (s : State) (r : Rebuild) : (swapTo r s).spine = s.spine := by
  unfold swapTo
  try simp only
  repeat' split
  all_goals simp [apply_ite State.spine, spine_change, spine_editions, spine_mem_change, spine_mem, spine_report, spine_clock]
@[simp] theorem swapTo_mem (s : State) (r : Rebuild) : (swapTo r s).mem = s.mem := by
  unfold swapTo
  try simp only
  repeat' split
  all_goals simp [apply_ite State.mem]
@[simp] theorem finishSlice_spine (s : State) (r : Rebuild) : (finishSlice r s).spine = s.spine := by
  unfold finishSlice
  try simp only
  repeat' split
  all_goals simp [apply_ite State.spine, spine_change, spine_editions, spine_mem_change, spine_mem, spine_report, spine_clock]
theorem finishSlice_wf (s : State) (r : Rebuild) (w : Memory.wf s.mem = true) :
    Memory.wf (finishSlice r s).mem = true := by
  unfold finishSlice
  try simp only
  repeat' split
  all_goals try simp
  all_goals repeat' first | with_reducible exact w | with_reducible apply finishPages_wf
@[simp] theorem nextSlice_spine (s : State) (r : Rebuild) : (nextSlice r s).spine = s.spine := by
  unfold nextSlice
  try simp only
  repeat' split
  all_goals simp [apply_ite State.spine, spine_change, spine_editions, spine_mem_change, spine_mem, spine_report, spine_clock]
theorem nextSlice_wf (s : State) (r : Rebuild) (w : Memory.wf s.mem = true) :
    Memory.wf (nextSlice r s).mem = true := by
  unfold nextSlice
  try simp only
  repeat' split
  all_goals try simp
  all_goals repeat' first | with_reducible exact w | with_reducible apply clearSlice_wf | with_reducible apply copySlice_wf | with_reducible apply finishSlice_wf
@[simp] theorem setPending_spine (s : State) (p : PendingSlot) : (setPending p s).spine = s.spine := by
  unfold setPending
  try simp only
  repeat' split
  all_goals simp [apply_ite State.spine, spine_change, spine_editions, spine_mem_change, spine_mem, spine_report, spine_clock]
@[simp] theorem setPending_mem (s : State) (p : PendingSlot) : (setPending p s).mem = s.mem := by
  unfold setPending
  try simp only
  repeat' split
  all_goals simp [apply_ite State.mem]
@[simp] theorem setLoad_spine (s : State) (l : Option Load) : (setLoad l s).spine = s.spine := by
  unfold setLoad
  try simp only
  repeat' split
  all_goals simp [apply_ite State.spine, spine_change, spine_editions, spine_mem_change, spine_mem, spine_report, spine_clock]
@[simp] theorem setLoad_mem (s : State) (l : Option Load) : (setLoad l s).mem = s.mem := by
  unfold setLoad
  try simp only
  repeat' split
  all_goals simp [apply_ite State.mem]
@[simp] theorem emptyPending_spine (s : State) : (emptyPending s).spine = s.spine := by
  unfold emptyPending
  try simp only
  repeat' split
  all_goals simp [apply_ite State.spine, spine_change, spine_editions, spine_mem_change, spine_mem, spine_report, spine_clock]
@[simp] theorem emptyPending_mem (s : State) : (emptyPending s).mem = s.mem := by
  unfold emptyPending
  try simp only
  repeat' split
  all_goals simp [apply_ite State.mem]
@[simp] theorem withdrawPending_spine (s : State) : (withdrawPending s).spine = s.spine := by
  unfold withdrawPending
  try simp only
  repeat' split
  all_goals simp [apply_ite State.spine, spine_change, spine_editions, spine_mem_change, spine_mem, spine_report, spine_clock]
@[simp] theorem withdrawPending_mem (s : State) : (withdrawPending s).mem = s.mem := by
  unfold withdrawPending
  try simp only
  repeat' split
  all_goals simp [apply_ite State.mem]
@[simp] theorem activate_spine (s : State) : (activate s).spine = s.spine := by
  unfold activate
  try simp only
  repeat' split
  all_goals simp [apply_ite State.spine, spine_change, spine_editions, spine_mem_change, spine_mem, spine_report, spine_clock]
@[simp] theorem activate_mem (s : State) : (activate s).mem = s.mem := by
  unfold activate
  try simp only
  repeat' split
  all_goals simp [apply_ite State.mem]
@[simp] theorem riskCheck_spine (s : State) : (riskCheck s).spine = s.spine := by
  unfold riskCheck
  try simp only
  repeat' split
  all_goals simp [apply_ite State.spine, spine_change, spine_editions, spine_mem_change, spine_mem, spine_report, spine_clock]
@[simp] theorem riskCheck_mem (s : State) : (riskCheck s).mem = s.mem := by
  unfold riskCheck
  try simp only
  repeat' split
  all_goals simp [apply_ite State.mem]
@[simp] theorem editionTests_spine (s : State) : (editionTests s).spine = s.spine := by
  unfold editionTests
  try simp only
  repeat' split
  all_goals simp [apply_ite State.spine, spine_change, spine_editions, spine_mem_change, spine_mem, spine_report, spine_clock]
@[simp] theorem editionTests_mem (s : State) : (editionTests s).mem = s.mem := by
  unfold editionTests
  try simp only
  repeat' split
  all_goals simp [apply_ite State.mem]
@[simp] theorem setTestsDue_spine (s : State) (b : Bool) : (setTestsDue b s).spine = s.spine := rfl
@[simp] theorem setTestsDue_mem (s : State) (b : Bool) : (setTestsDue b s).mem = s.mem := rfl
@[simp] theorem setTestsDue_regs (s : State) (b : Bool) : (setTestsDue b s).regs = s.regs := rfl
@[simp] theorem setTestsDue_engine (s : State) (b : Bool) : (setTestsDue b s).engine = s.engine := rfl
@[simp] theorem setTestsDue_exch (s : State) (b : Bool) : (setTestsDue b s).exch = s.exch := rfl
@[simp] theorem setTestsDue_change (s : State) (b : Bool) : (setTestsDue b s).change = s.change := rfl
@[simp] theorem setTestsDue_clock (s : State) (b : Bool) : (setTestsDue b s).clock = s.clock := rfl
@[simp] theorem setTestsDue_roster (s : State) (b : Bool) : (setTestsDue b s).roster = s.roster := rfl
@[simp] theorem setTestsDue_ports (s : State) (b : Bool) : (setTestsDue b s).ports = s.ports := rfl
@[simp] theorem setTestsDue_profiles (s : State) (b : Bool) : (setTestsDue b s).profiles = s.profiles := rfl
@[simp] theorem setTestsDue_sched (s : State) (b : Bool) : (setTestsDue b s).sched = s.sched := rfl
@[simp] theorem setTestsDue_sweeps (s : State) (b : Bool) : (setTestsDue b s).sweeps = s.sweeps := rfl
@[simp] theorem setTestsDue_report (s : State) (b : Bool) : (setTestsDue b s).report = s.report := rfl
@[simp] theorem setTestsDue_editions_active (s : State) (b : Bool) : (setTestsDue b s).editions.active = s.editions.active := rfl
@[simp] theorem setTestsDue_editions_pending (s : State) (b : Bool) : (setTestsDue b s).editions.pending = s.editions.pending := rfl
@[simp] theorem setTestsDue_editions_load (s : State) (b : Bool) : (setTestsDue b s).editions.load = s.editions.load := rfl
@[simp] theorem setTestsDue_editions_timeDue (s : State) (b : Bool) : (setTestsDue b s).editions.timeDue = s.editions.timeDue := rfl
@[simp] theorem setTestsDue_testsDue (s : State) (b : Bool) : (setTestsDue b s).editions.testsDue = b := rfl
@[simp] theorem tickTests_spine (s : State) : (tickTests s).spine = s.spine := by
  unfold tickTests
  try simp only
  repeat' split
  all_goals simp [apply_ite State.spine]
@[simp] theorem tickTests_mem (s : State) : (tickTests s).mem = s.mem := by
  unfold tickTests
  try simp only
  repeat' split
  all_goals simp [apply_ite State.mem]

/-- What becomes of the tests a minute tick calls for (R59): made with the edition manager idle; put off to the hand-over of an
outcome in RUNNING and STOPPING; left to the end of a running load. -/
theorem tickTests_cases (s : State) :
    (s.editionIdle = true ∧ tickTests s = editionTests s) ∨
    (s.editions.load = none ∧ s.handingOver .edition = true ∧ s.working = true ∧ tickTests s = setTestsDue true s) ∨
    (s.editionIdle = false ∧ (s.editions.load ≠ none ∨ s.working = false) ∧ tickTests s = s) := by
  unfold tickTests State.editionIdle
  cases s.editions.load <;> cases s.handingOver .edition <;> cases s.working <;> simp

/-- The tests put off are made for the outcome of a strip that holds an edition-manager request, and only with the mark set. -/
theorem deferredTests_cases (t : Strip) (s : State) :
    (s.editions.testsDue = true ∧ (s.strip t).kind.bind ownerOf = some .edition ∧
      deferredTests t s = (editionTests (setTestsDue false s), s.testsAct)) ∨
    ((s.editions.testsDue = false ∨ (s.strip t).kind.bind ownerOf ≠ some .edition) ∧ deferredTests t s = (s, false)) := by
  unfold deferredTests
  by_cases h : (s.strip t).kind.bind ownerOf = some .edition <;> cases s.editions.testsDue <;> simp [h]
@[simp] theorem deferredTests_spine (s : State) (t : Strip) : (deferredTests t s).1.spine = s.spine := by
  unfold deferredTests; split <;> simp
@[simp] theorem deferredTests_mem (s : State) (t : Strip) : (deferredTests t s).1.mem = s.mem := by
  unfold deferredTests; split <;> simp
@[simp] theorem startLoad_spine (s : State) (t : Strip) (a k : Nat) (v : BitVec 16) (e : Word) : (startLoad t a k v e s).spine = s.spine := by
  unfold startLoad
  try simp only
  repeat' split
  all_goals simp [apply_ite State.spine, spine_change, spine_editions, spine_mem_change, spine_mem, spine_report, spine_clock]
@[simp] theorem startLoad_mem (s : State) (t : Strip) (a k : Nat) (v : BitVec 16) (e : Word) : (startLoad t a k v e s).mem = s.mem := by
  unfold startLoad
  try simp only
  repeat' split
  all_goals simp [apply_ite State.mem]
@[simp] theorem closePage_spine (s : State) (p k : Nat) : (closePage p k s).spine = s.spine := by
  unfold closePage
  try simp only
  repeat' split
  all_goals simp [apply_ite State.spine, spine_change, spine_editions, spine_mem_change, spine_mem, spine_report, spine_clock]
theorem closePage_wf (s : State) (p k : Nat) (w : Memory.wf s.mem = true) :
    Memory.wf (closePage p k s).mem = true := by
  unfold closePage
  try simp only
  repeat' split
  all_goals try simp
  all_goals repeat' first | with_reducible exact w | with_reducible apply Memory.writeBytes_wf
@[simp] theorem endLoad_spine (s : State) (l : Load) : (endLoad l s).spine = s.spine := by
  unfold endLoad
  try simp only
  repeat' split
  all_goals simp [apply_ite State.spine, spine_change, spine_editions, spine_mem_change, spine_mem, spine_report, spine_clock]
@[simp] theorem endLoad_mem (s : State) (l : Load) : (endLoad l s).mem = s.mem := by
  unfold endLoad
  try simp only
  repeat' split
  all_goals simp [apply_ite State.mem]
@[simp] theorem failLoad_spine (s : State) (l : Load) : (failLoad l s).spine = s.spine := by
  unfold failLoad
  try simp only
  repeat' split
  all_goals simp [apply_ite State.spine, spine_change, spine_editions, spine_mem_change, spine_mem, spine_report, spine_clock]
@[simp] theorem failLoad_mem (s : State) (l : Load) : (failLoad l s).mem = s.mem := by
  unfold failLoad
  try simp only
  repeat' split
  all_goals simp [apply_ite State.mem]
@[simp] theorem writeProduct_spine (s : State) (l : Load) (p : Product) : (writeProduct l p s).spine = s.spine := by
  unfold writeProduct
  try simp only
  repeat' split
  all_goals simp [apply_ite State.spine, spine_change, spine_editions, spine_mem_change, spine_mem, spine_report, spine_clock]
theorem writeProduct_wf (s : State) (l : Load) (p : Product) (w : Memory.wf s.mem = true) :
    Memory.wf (writeProduct l p s).mem = true := by
  unfold writeProduct
  try simp only
  repeat' split
  all_goals try simp
  all_goals repeat' first | with_reducible exact w | with_reducible apply Memory.writeBytes_wf
@[simp] theorem storeProduct_spine (s : State) (l : Load) (p : Product) : (storeProduct l p s).spine = s.spine := by
  unfold storeProduct
  try simp only
  repeat' split
  all_goals simp [apply_ite State.spine, spine_change, spine_editions, spine_mem_change, spine_mem, spine_report, spine_clock]
theorem storeProduct_wf (s : State) (l : Load) (p : Product) (w : Memory.wf s.mem = true) :
    Memory.wf (storeProduct l p s).mem = true := by
  unfold storeProduct
  try simp only
  repeat' split
  all_goals try simp
  all_goals repeat' first | with_reducible exact w | with_reducible apply closePage_wf | with_reducible apply writeProduct_wf
@[simp] theorem clockNotice_spine (s : State) : (clockNotice s).spine = s.spine := by
  unfold clockNotice
  try simp only
  repeat' split
  all_goals simp [apply_ite State.spine, spine_change, spine_editions, spine_mem_change, spine_mem, spine_report, spine_clock]
@[simp] theorem clockNotice_mem (s : State) : (clockNotice s).mem = s.mem := by
  unfold clockNotice
  try simp only
  repeat' split
  all_goals simp [apply_ite State.mem]
@[simp] theorem serviceDayEffects_spine (s : State) (o : Option Nat) : (serviceDayEffects o s).spine = s.spine := by
  unfold serviceDayEffects
  try simp only
  repeat' split
  all_goals simp [apply_ite State.spine, spine_change, spine_editions, spine_mem_change, spine_mem, spine_report, spine_clock]
@[simp] theorem serviceDayEffects_mem (s : State) (o : Option Nat) : (serviceDayEffects o s).mem = s.mem := by
  unfold serviceDayEffects
  try simp only
  repeat' split
  all_goals simp [apply_ite State.mem]
@[simp] theorem tickClock_spine (s : State) : (tickClock s).spine = s.spine := by
  unfold tickClock
  try simp only
  repeat' split
  all_goals simp [apply_ite State.spine, spine_change, spine_editions, spine_mem_change, spine_mem, spine_report, spine_clock]
@[simp] theorem tickClock_mem (s : State) : (tickClock s).mem = s.mem := by
  unfold tickClock
  try simp only
  repeat' split
  all_goals simp [apply_ite State.mem]
@[simp] theorem stopClock_spine (s : State) : (stopClock s).spine = s.spine := by
  unfold stopClock
  try simp only
  repeat' split
  all_goals simp [apply_ite State.spine, spine_change, spine_editions, spine_mem_change, spine_mem, spine_report, spine_clock]
@[simp] theorem stopClock_mem (s : State) : (stopClock s).mem = s.mem := by
  unfold stopClock
  try simp only
  repeat' split
  all_goals simp [apply_ite State.mem]
@[simp] theorem storeProfile_spine (s : State) (i : Fin 4) (p : Profile) : (storeProfile i p s).spine = s.spine := by
  unfold storeProfile
  simp only
  rw [forLines_keeps State.spine _ (fun l s => rateChanged_spine s _ l)]
  rfl
@[simp] theorem storeProfile_mem (s : State) (i : Fin 4) (p : Profile) : (storeProfile i p s).mem = s.mem := by
  unfold storeProfile
  simp only
  rw [forLines_keeps State.mem _ (fun l s => rateChanged_mem s _ l)]
@[simp] theorem stampPage_spine (s : State) (u : Bool) (p : Nat) : (stampPage u p s).spine = s.spine := by
  unfold stampPage
  try simp only
  repeat' split
  all_goals simp [apply_ite State.spine, spine_change, spine_editions, spine_mem_change, spine_mem, spine_report, spine_clock]
@[simp] theorem stampPage_mem (s : State) (u : Bool) (p : Nat) : (stampPage u p s).mem = s.mem := by
  unfold stampPage
  try simp only
  repeat' split
  all_goals simp [apply_ite State.mem]
@[simp] theorem partialHeaders_spine (s : State) (u : Bool) (c : List Nat) (k : Nat) : (partialHeaders u c k s).spine = s.spine := by
  unfold partialHeaders
  try simp only
  repeat' split
  all_goals simp [apply_ite State.spine, spine_change, spine_editions, spine_mem_change, spine_mem, spine_report, spine_clock]
theorem partialHeaders_wf (s : State) (u : Bool) (c : List Nat) (k : Nat) (w : Memory.wf s.mem = true) :
    Memory.wf (partialHeaders u c k s).mem = true := by
  unfold partialHeaders
  try simp only
  repeat' split
  all_goals try simp
  all_goals repeat' first | with_reducible exact w | (simp only [raiseG_mem, takeUp_mem]; with_reducible exact w) | with_reducible apply bringUpAll_wf
@[simp] theorem partialFormat_spine (s : State) (t : Strip) (k : Nat) : (partialFormat t k s).spine = s.spine := by
  unfold partialFormat
  try simp only
  repeat' split
  all_goals simp [apply_ite State.spine, spine_change, spine_editions, spine_mem_change, spine_mem, spine_report, spine_clock]
theorem partialFormat_wf (s : State) (t : Strip) (k : Nat) (w : Memory.wf s.mem = true) :
    Memory.wf (partialFormat t k s).mem = true := by
  unfold partialFormat
  try simp only
  repeat' split
  all_goals try simp
  all_goals repeat' first | with_reducible exact w | (simp only [raiseG_mem, takeUp_mem]; with_reducible exact w) | with_reducible apply startFormat_wf
@[simp] theorem partialSlice_spine (s : State) (k : Nat) : (partialSlice k s).spine = s.spine := by
  unfold partialSlice
  try simp only
  repeat' split
  all_goals simp [apply_ite State.spine, spine_change, spine_editions, spine_mem_change, spine_mem, spine_report, spine_clock]
theorem partialSlice_wf (s : State) (k : Nat) (w : Memory.wf s.mem = true) :
    Memory.wf (partialSlice k s).mem = true := by
  unfold partialSlice
  try simp only
  repeat' split
  all_goals try simp
  all_goals repeat' first | with_reducible exact w | with_reducible apply clearPages_wf | with_reducible apply copyPages_wf | with_reducible apply finishPages_wf

end Sys2Proof.Machine
end

