-- ==== Sys2Proof/Laws/Commands.lean ====
section
/-! SUPPORT. One lemma for each command that is not the engine's own: it answers a next state with the same spine. -/

namespace Sys2Proof.Machine

theorem scheduled_spine {s : State} {f : State → State} (hf : ∀ s, (f s).spine = s.spine) :
    ∃ t, scheduled s f = .next t ∧ t.spine = s.spine := by
  by_cases h : s.resetLow
  · exact ⟨s, by simp [scheduled, recorded, h], rfl⟩
  · simp only [Bool.not_eq_true] at h
    exact ⟨_, scheduled_next h, by rw [settle_spine, boundaries_spine, hf]⟩

theorem recorded_spine {s : State} {f : State → State} (hf : ∀ s, (f s).spine = s.spine) :
    ∃ t, recorded s f = .next t ∧ t.spine = s.spine := by
  by_cases h : s.resetLow
  · exact ⟨s, by simp [recorded, h], rfl⟩
  · simp only [Bool.not_eq_true] at h
    exact ⟨_, recorded_next h, by rw [settle_spine, hf]⟩

theorem atOnce_spine (t : Strip) (k : Nat) (a : Request → State → State × Result)
    (ha : ∀ r s, (a r s).1.spine = s.spine) (s : State) : (atOnce t k a s).spine = s.spine := by
  unfold atOnce
  split
  · simp [ha]
  · rfl

theorem pinSlot_sp (r : Request) (s : State) : (pinSlot r s).1.spine = s.spine := by
  unfold pinSlot; simp only; repeat' split
  all_goals simp
theorem freeSlot_sp (r : Request) (s : State) : (freeSlot r s).1.spine = s.spine := by
  unfold freeSlot; repeat' split
  all_goals simp
theorem releaseSlot_sp (r : Request) (s : State) : (releaseSlot r s).1.spine = s.spine := by
  unfold releaseSlot; repeat' split
  all_goals simp
theorem resyncSlot_sp (r : Request) (s : State) : (resyncSlot r s).1.spine = s.spine := by
  unfold resyncSlot; repeat' split
  all_goals simp
theorem clearCounters_sp (r : Request) (s : State) : (clearCounters r s).1.spine = s.spine := by
  unfold clearCounters
  simp only
  rw [forLines_keeps State.spine _ (fun l s => by split <;> simp), forSlots_keeps State.spine _ (fun n s => by split <;> simp)]
theorem setLine_sp (r : Request) (s : State) : (setLine r s).1.spine = s.spine := by
  unfold setLine; repeat' split
  all_goals simp
theorem setProfile_sp (r : Request) (s : State) : (setProfile r s).1.spine = s.spine := by
  unfold setProfile; repeat' split
  all_goals simp

/-- What the hand-over of an outcome does: the request completes, or the outcome waits for the summary again behind an activation
or warning that the tests put off by a tick have given (R59, R61). -/
theorem handOutcome_cases (t : Strip) (r : Result) (s : State) :
    ((deferredTests t s).2 = true ∧ handOutcome t r s = completeAfterSummary t r (deferredTests t s).1) ∨
    ((deferredTests t s).2 = false ∧ handOutcome t r s = completeRequest t r (deferredTests t s).1) := by
  unfold handOutcome; cases h : (deferredTests t s).2 <;> simp [h]
@[simp] theorem handOutcome_spine (t : Strip) (r : Result) (s : State) : (handOutcome t r s).spine = s.spine := by
  obtain ⟨-, h⟩ | ⟨-, h⟩ := handOutcome_cases t r s <;> simp [h]
theorem handOutcome_wf (t : Strip) (r : Result) (s : State) (w : Memory.wf s.mem = true) :
    Memory.wf (handOutcome t r s).mem = true := by
  obtain ⟨-, h⟩ | ⟨-, h⟩ := handOutcome_cases t r s
  · simpa [h] using w
  · rw [h]; exact completeRequest_wf _ _ _ (by simpa using w)

theorem give_spine (s : State) (w : Waiting) : (give s w).spine = s.spine := by
  unfold give; split <;> simp
theorem release_spine (r : Fin 29) (s : State) : (release r s).spine = s.spine := by
  unfold release; simp only
  rw [foldl_keeps State.spine _ (fun s w => give_spine s w)]; rfl
theorem rewriteRecord_spine (r : Fin 29) (s : State) : (rewriteRecord r s).spine = s.spine := by
  unfold rewriteRecord; simp only
  rw [release_spine, stopRecordTimer_spine]
  exact writeRecord_spine s r 3

theorem give_wf (s : State) (v : Waiting) (w : Memory.wf s.mem = true) : Memory.wf (give s v).mem = true := by
  unfold give; split
  · simpa using w
  · exact handOutcome_wf _ _ _ w
theorem release_wf (r : Fin 29) (s : State) (w : Memory.wf s.mem = true) : Memory.wf (release r s).mem = true :=
  foldl_wf _ (fun s v h => give_wf s v h) _ _ w
theorem rewriteRecord_wf (r : Fin 29) (s : State) (w : Memory.wf s.mem = true) :
    Memory.wf (rewriteRecord r s).mem = true :=
  release_wf r _ (by rw [stopRecordTimer_mem]; exact writeRecord_wf s r 3 w)

theorem takeReply_spine (l : Fin 4) (c : Byte) (f) (hf : ∀ e b n s, (f e b n s).spine = s.spine) (s : State) :
    (takeReply l c f s).spine = s.spine := by
  unfold takeReply; repeat' split
  · rfl
  · simp
  all_goals simp only [setKeepalive_spine, hf, overExchange_spine]

theorem purge_spine (s : State) : (purge s).spine = s.spine := by
  have hp : ∀ sd p x, (purgePage sd p x).1.spine = x.1.spine := by
    intro sd p x; obtain ⟨s, ch⟩ := x; unfold purgePage; simp only; split <;> rfl
  have hps : ∀ sd v s, (purgePages sd v s).1.spine = s.spine := by
    intro sd v s; unfold purgePages
    exact foldl_keeps (fun x : State × List Nat => x.1.spine) _ (fun x p => hp _ _ _) _ _
  unfold purge; simp only
  repeat' split
  · rw [want_spine, spine_change, takePurge_spine]
  · simp [hps]
  · simp [hps]

def plainCmd : Instr → Bool
  | .powerOn | .run _ | .restart _ | .registerWrite _ _ _ | .eventsClear _ | .evmaskWrite _ | .descriptorRead
  | .startingEnd | .drainComplete | .memoryError _ | .resetPinLow => false
  | _ => true

theorem openFrame_fixed {s : State} {l n k f} (h : s.openFrame l n k = some f) : f.after.fixed = s.fixed := by
  unfold State.openFrame at h
  simp only at h
  repeat' split at h
  all_goals first
    | (simp at h; done)
    | (simp only [Option.map_eq_some_iff] at h; obtain ⟨d, -, rfl⟩ := h; simp only [State.toSlot]; (repeat' split) <;> simp)

theorem requestFrame_fixed {s : State} {l : Fin 4} {w : Work} {f : RequestFrame} (h : s.requestFrame l w = some f) :
    f.after.fixed = s.fixed := by
  unfold State.requestFrame at h
  cases w
  case openTo n k =>
    simp only at h
    split at h
    · exact openFrame_fixed h
    · simp at h
  case page n =>
    simp only [State.pageFrame] at h
    split at h
    · simp only [Option.bind_eq_bind, Option.bind_eq_some_iff] at h
      obtain ⟨d, -, h⟩ := h
      split at h
      · simp only [Option.bind_eq_some_iff] at h
        obtain ⟨p, -, x, -, h⟩ := h
        cases h
        simp [State.toSlot]
      · simp at h
    · simp at h
  case close n =>
    simp only [State.closeFrame] at h
    split at h
    · simp only [Option.bind_eq_bind, Option.bind_eq_some_iff] at h
      obtain ⟨d, -, h⟩ := h
      split at h
      · cases h; simp [State.toSlot]
      · simp at h
    · simp at h
  case check n =>
    simp only [State.checkFrame] at h
    split at h
    · simp only [Option.bind_eq_bind, Option.bind_eq_some_iff] at h
      obtain ⟨d, -, h⟩ := h
      split at h
      · cases h; simp [State.toSlot]
      · simp at h
    · simp at h
  case groupPage i =>
    simp only [State.groupFrame, Option.bind_eq_bind, Option.bind_eq_some_iff] at h
    obtain ⟨g, -, p, -, d, -, x, -, h⟩ := h
    cases h
    simp
  case discovery =>
    simp only [Option.map_eq_some_iff] at h
    obtain ⟨a, -, rfl⟩ := h
    simp
  case activateAll =>
    simp only [Option.map_eq_some_iff] at h
    obtain ⟨a, -, rfl⟩ := h
    rfl
  case time => cases h; rfl
  case discard n =>
    simp only at h
    split at h
    · simp only [Option.map_eq_some_iff] at h
      obtain ⟨a, -, rfl⟩ := h
      rfl
    · simp at h
  all_goals
    simp only at h
    split at h
    · cases h; first | rfl | simp [State.toSlot]
    · simp at h

theorem execStatusLike (l : Fin 4) (c : Byte) (f) (hf : ∀ e b n s, (f e b n s).spine = s.spine) (s : State) :
    ∃ t, scheduled s (fun s => takeReply l c f s) = .next t ∧ t.spine = s.spine :=
  scheduled_spine (fun s => takeReply_spine l c f hf s)

theorem startScan_spine (s : State) : (startScan s).spine = s.spine := rfl
theorem execKick_spine (v : Word) (s : State) : ∃ x, execKick v s = .next x ∧ x.spine = s.spine := by
  apply scheduled_spine; intro s; split <;> simp

theorem execScanIntervalExpiry_spine (s : State) : ∃ x, execScanIntervalExpiry  s = .next x ∧ x.spine = s.spine := by
  apply scheduled_spine; intro s; split <;> simp [startScan_spine]

/-! ### Entry to RUNNING (R205, R208), and what a failing visit of it had done (R196) -/

@[simp] theorem entered_engine (s : State) : (entered s).engine = .running := rfl
@[simp] theorem entered_mem (s : State) : (entered s).mem = s.mem := rfl
@[simp] theorem entered_exch (s : State) : (entered s).exch = s.exch := rfl
theorem entered_spine (s : State) : (entered s).spine = { s.spine with engine := .running } := rfl

@[simp] theorem resumed_mem (s : State) : (resumed s).mem = s.mem := by
  unfold resumed; simp only; split <;> simp
theorem resumed_spine (s : State) : (resumed s).spine = { s.spine with engine := .running } := by
  unfold resumed; simp only; split <;> simp [entered_spine]

@[simp] theorem startStrips_spine (s : State) : (startStrips s).spine = s.spine := by
  rw [startStrips, startScan_spine, visitBoth_spine]
theorem startStrips_wf (s : State) (w : Memory.wf s.mem = true) : Memory.wf (startStrips s).mem = true :=
  visitBoth_wf s w

theorem enterRunning_spine (s : State) : (enterRunning s).spine = { s.spine with engine := .running } := by
  rw [enterRunning, startStrips_spine, entered_spine]
theorem enterRunning_wf (s : State) (w : Memory.wf s.mem = true) : Memory.wf (enterRunning s).mem = true :=
  startStrips_wf _ w

theorem resume_spine (s : State) : (resume s).spine = { s.spine with engine := .running } := by
  rw [resume, startStrips_spine, resumed_spine]
theorem resume_wf (s : State) (w : Memory.wf s.mem = true) : Memory.wf (resume s).mem = true :=
  startStrips_wf _ (by simpa using w)

theorem flushRecords_wf (s : State) (w : Memory.wf s.mem = true) : Memory.wf (flushRecords s).mem = true := by
  unfold flushRecords
  generalize List.finRange 29 = rs
  refine foldl_wf _ (fun s r h => ?_) rs s w
  split
  · exact rewriteRecord_wf r s h
  · exact h
theorem halted_wf (s : State) (w : Memory.wf s.mem = true) : Memory.wf (halted s).mem = true := by
  have h := flushRecords_wf s w
  unfold halted
  generalize flushRecords s = u at h ⊢
  exact rewriteRecord_wf _ _ h

theorem atEntry_wf (s : State) (w : Memory.wf s.mem = true) : Memory.wf s.atEntry.mem = true := by
  unfold State.atEntry
  repeat' split
  all_goals simp [w, halted_wf]
theorem reach_wf (t : Strip) (s : State) (w : Memory.wf s.mem = true) : Memory.wf (reach t s).mem = true := by
  unfold reach
  repeat' split
  all_goals first | exact atEntry_wf s w | exact visit_wf _ _ (atEntry_wf s w)

theorem execApplyChanges_spine (t : Strip) (s : State) : ∃ x, execApplyChanges t s = .next x ∧ x.spine = s.spine := by
  apply scheduled_spine; intro s
  try simp only
  repeat' split
  all_goals first
    | (simp [apply_ite State.spine]; done)
    | rw [spine_change, resumeRebuild_spine, takeUp_spine]
    | (rw [completeAfterSummary_spine, editionTests_spine, markTime_spine, want_spine, serviceDayEffects_spine, spine_clock, takeUp_spine])

theorem execChangeItem_spine (s : State) : ∃ x, execChangeItem  s = .next x ∧ x.spine = s.spine := by
  apply scheduled_spine; intro s
  split
  · split
    · next b hb hc =>
      have h1 := applyNext_spine s b
      generalize applyNext b s = x at h1 ⊢
      obtain ⟨s1, o⟩ := x
      simp only at h1 ⊢
      repeat' split
      all_goals simp [h1]
    · rfl
  · rfl

theorem execBatchEnd_spine (s : State) : ∃ x, execBatchEnd  s = .next x ∧ x.spine = s.spine := by
  apply scheduled_spine; intro s; repeat' split
  all_goals simp [apply_ite State.spine]

theorem execFormatImage_spine (t : Strip) (s : State) : ∃ x, execFormatImage t s = .next x ∧ x.spine = s.spine := by
  apply scheduled_spine; intro s
  try simp only
  repeat' split
  all_goals first
    | (simp [apply_ite State.spine]; done)
    | rw [spine_change, takeUp_spine]
    | (rw [completeAfterSummary_spine, editionTests_spine, markTime_spine, want_spine, serviceDayEffects_spine, spine_clock, takeUp_spine])

theorem execFormatSwitch_spine (s : State) : ∃ x, execFormatSwitch  s = .next x ∧ x.spine = s.spine := by
  apply scheduled_spine; intro s; repeat' split
  all_goals simp

theorem execRebuildImage_spine (t : Strip) (s : State) : ∃ x, execRebuildImage t s = .next x ∧ x.spine = s.spine := by
  apply scheduled_spine; intro s
  try simp only
  repeat' split
  all_goals first
    | (simp [apply_ite State.spine]; done)
    | rw [spine_change, takeUp_spine]
    | (rw [completeAfterSummary_spine, editionTests_spine, markTime_spine, want_spine, serviceDayEffects_spine, spine_clock, takeUp_spine])

theorem execRebuildSlice_spine (s : State) : ∃ x, execRebuildSlice  s = .next x ∧ x.spine = s.spine := by
  apply scheduled_spine; intro s; repeat' split
  all_goals simp

theorem execPurgeJob_spine (s : State) : ∃ x, execPurgeJob  s = .next x ∧ x.spine = s.spine := by
  apply scheduled_spine; intro s; split <;> simp [purge_spine]

theorem execLoadEdition_spine (t : Strip) (s : State) : ∃ x, execLoadEdition t s = .next x ∧ x.spine = s.spine := by
  apply scheduled_spine; intro s
  try simp only
  repeat' split
  all_goals first
    | (simp [apply_ite State.spine]; done)
    | rw [spine_change, takeUp_spine]
    | (rw [completeAfterSummary_spine, editionTests_spine, markTime_spine, want_spine, serviceDayEffects_spine, spine_clock, takeUp_spine])

theorem execProductRecord_spine (s : State) : ∃ x, execProductRecord  s = .next x ∧ x.spine = s.spine := by
  apply scheduled_spine; intro s; repeat' split
  all_goals simp [apply_ite State.spine]

theorem execRescheduleEdition_spine (t : Strip) (s : State) : ∃ x, execRescheduleEdition t s = .next x ∧ x.spine = s.spine := by
  apply scheduled_spine; intro s
  try simp only
  repeat' split
  all_goals first
    | (simp [apply_ite State.spine]; done)
    | rw [spine_change, takeUp_spine]
    | (rw [completeAfterSummary_spine, editionTests_spine, markTime_spine, want_spine, serviceDayEffects_spine, spine_clock, takeUp_spine])

theorem execWithdrawEdition_spine (t : Strip) (s : State) : ∃ x, execWithdrawEdition t s = .next x ∧ x.spine = s.spine := by
  apply scheduled_spine; intro s
  try simp only
  repeat' split
  all_goals first
    | (simp [apply_ite State.spine]; done)
    | rw [spine_change, takeUp_spine]
    | (rw [completeAfterSummary_spine, editionTests_spine, markTime_spine, want_spine, serviceDayEffects_spine, spine_clock, takeUp_spine])

theorem execSetClock_spine (t : Strip) (s : State) : ∃ x, execSetClock t s = .next x ∧ x.spine = s.spine := by
  apply scheduled_spine; intro s
  try simp only
  repeat' split
  all_goals first
    | (simp [apply_ite State.spine]; done)
    | rw [spine_change, takeUp_spine]
    | (rw [completeAfterSummary_spine, editionTests_spine, markTime_spine, want_spine, serviceDayEffects_spine, spine_clock, takeUp_spine])

theorem execMinuteTick_spine (s : State) : ∃ x, execMinuteTick  s = .next x ∧ x.spine = s.spine := by
  apply scheduled_spine; intro s; repeat' split
  all_goals simp

theorem execPinSlot_spine (t : Strip) (s : State) : ∃ x, execPinSlot t s = .next x ∧ x.spine = s.spine := by
  exact scheduled_spine (atOnce_spine _ _ _ pinSlot_sp)

theorem execFreeSlot_spine (t : Strip) (s : State) : ∃ x, execFreeSlot t s = .next x ∧ x.spine = s.spine := by
  exact scheduled_spine (atOnce_spine _ _ _ freeSlot_sp)

theorem execReleaseSlot_spine (t : Strip) (s : State) : ∃ x, execReleaseSlot t s = .next x ∧ x.spine = s.spine := by
  exact scheduled_spine (atOnce_spine _ _ _ releaseSlot_sp)

theorem execResyncSlot_spine (t : Strip) (s : State) : ∃ x, execResyncSlot t s = .next x ∧ x.spine = s.spine := by
  exact scheduled_spine (atOnce_spine _ _ _ resyncSlot_sp)

theorem execClearCounters_spine (t : Strip) (s : State) : ∃ x, execClearCounters t s = .next x ∧ x.spine = s.spine := by
  exact scheduled_spine (atOnce_spine _ _ _ clearCounters_sp)

theorem execSetLine_spine (t : Strip) (s : State) : ∃ x, execSetLine t s = .next x ∧ x.spine = s.spine := by
  exact scheduled_spine (atOnce_spine _ _ _ setLine_sp)

theorem execSetProfile_spine (t : Strip) (s : State) : ∃ x, execSetProfile t s = .next x ∧ x.spine = s.spine := by
  exact scheduled_spine (atOnce_spine _ _ _ setProfile_sp)

theorem execLineModeChangeApplied_spine (l : Fin 4) (s : State) : ∃ x, execLineModeChangeApplied l s = .next x ∧ x.spine = s.spine := by
  apply scheduled_spine; intro s; split <;> simp

theorem execKeepaliveDue_spine (n : Fin 24) (s : State) : ∃ x, execKeepaliveDue n s = .next x ∧ x.spine = s.spine := by
  apply scheduled_spine; intro s; split <;> simp

theorem execBackoffExpiry_spine (n : Fin 24) (s : State) : ∃ x, execBackoffExpiry n s = .next x ∧ x.spine = s.spine := by
  apply scheduled_spine; intro s; split <;> simp

theorem execReplacementWindowClose_spine (n : Fin 24) (s : State) : ∃ x, execReplacementWindowClose n s = .next x ∧ x.spine = s.spine := by
  apply recorded_spine; intro s; simp

theorem execDiscoveryVisitDue_spine (s : State) : ∃ x, execDiscoveryVisitDue  s = .next x ∧ x.spine = s.spine := by
  apply scheduled_spine; intro s; split
  · rw [forLines_keeps State.spine _ (fun l s => by split <;> simp)]; rfl
  · rfl

theorem execIdentifyDue_spine (n : Fin 24) (s : State) : ∃ x, execIdentifyDue n s = .next x ∧ x.spine = s.spine := by
  apply scheduled_spine; intro s; split <;> simp

theorem execLineRecordTimer_spine (l : Fin 4) (s : State) : ∃ x, execLineRecordTimer l s = .next x ∧ x.spine = s.spine := by
  apply recorded_spine; intro s; split <;> simp

theorem execFrameStart_spine (l : Fin 4) (s : State) : ∃ x, execFrameStart l s = .next x ∧ x.spine = s.spine := by
  apply scheduled_spine; intro s
  split
  · split
    · split
      · next f hf =>
        split
        · rw [startExchange_spine]
          exact spine_of_fixed (requestFrame_fixed hf)
        · rfl
      · simp
    · rfl
  · rfl

theorem execFrameSent_spine (l : Fin 4) (s : State) : ∃ x, execFrameSent l s = .next x ∧ x.spine = s.spine := by
  apply scheduled_spine; intro s
  split
  · split
    · rfl
    · split
      · simp
      · simp only; split <;> simp
  · rfl

theorem execEchoJudged_spine (l : Fin 4) (c : List Byte) (b : Bool) (s : State) : ∃ x, execEchoJudged l c b s = .next x ∧ x.spine = s.spine := by
  apply scheduled_spine; intro s; simp only; split
  · simp
  · rfl

theorem execHeaderMark_spine (l : Fin 4) (d : Side) (s : State) : ∃ x, execHeaderMark l d s = .next x ∧ x.spine = s.spine := by
  apply scheduled_spine; intro s; split
  · split <;> simp
  · rfl

theorem execFrameReceived_spine (l : Fin 4) (bs : List Byte) (e : FrameEnd) (s : State) : ∃ x, execFrameReceived l bs e s = .next x ∧ x.spine = s.spine := by
  apply scheduled_spine; intro s; split
  · split <;> simp
  · rfl

theorem execReplyTimeout_spine (l : Fin 4) (s : State) : ∃ x, execReplyTimeout l s = .next x ∧ x.spine = s.spine := by
  apply scheduled_spine; intro s; split
  · split
    · simp only [failAttempt_spine]
      split
      · simp [apply_ite State.spine]
      · unfold onSlot; split <;> simp [apply_ite State.spine]
    · rfl
  · rfl

theorem execGapEnd_spine (l : Fin 4) (s : State) : ∃ x, execGapEnd l s = .next x ∧ x.spine = s.spine := by
  apply scheduled_spine; intro s; simp only; repeat' split
  all_goals simp

theorem execStatus_spine (l : Fin 4) (s : State) : ∃ x, execStatus l s = .next x ∧ x.spine = s.spine := by
  exact execStatusLike _ _ _ (fun e b n s => takeStatus_spine s e b n) s

theorem execIdent_spine (l : Fin 4) (s : State) : ∃ x, execIdent l s = .next x ∧ x.spine = s.spine := by
  apply scheduled_spine; intro s; repeat' split
  · simp
  · exact takeReply_spine _ _ _ (fun e b n s => takeIdent_spine s e b n) s
  · rfl

theorem execAccept_spine (l : Fin 4) (s : State) : ∃ x, execAccept l s = .next x ∧ x.spine = s.spine := by
  exact execStatusLike _ _ _ (fun e b n s => takeAccept_spine s e b n) s

theorem execRefuse_spine (l : Fin 4) (s : State) : ∃ x, execRefuse l s = .next x ∧ x.spine = s.spine := by
  apply scheduled_spine; intro s
  rw [takeReply_spine _ _ _ (fun e b n s => takeRefuse_spine s e b n)]
  simp

theorem execPageAck_spine (l : Fin 4) (s : State) : ∃ x, execPageAck l s = .next x ∧ x.spine = s.spine := by
  exact execStatusLike _ _ _ (fun e b n s => takePageAck_spine s e b n) s

theorem execCloseAck_spine (l : Fin 4) (s : State) : ∃ x, execCloseAck l s = .next x ∧ x.spine = s.spine := by
  exact execStatusLike _ _ _ (fun e b n s => takeCloseAck_spine s e b n) s

theorem execCheckReport_spine (l : Fin 4) (s : State) : ∃ x, execCheckReport l s = .next x ∧ x.spine = s.spine := by
  exact execStatusLike _ _ _ (fun e b n s => takeCheckReport_spine s e b n) s

theorem execBusy_spine (l : Fin 4) (s : State) : ∃ x, execBusy l s = .next x ∧ x.spine = s.spine := by
  apply scheduled_spine; intro s; simp

theorem execReportRewrite_spine (r : Fin 29) (s : State) : ∃ x, execReportRewrite r s = .next x ∧ x.spine = s.spine := by
  apply recorded_spine; intro s; split
  · simp only
    split
    · rw [boundaries_spine, rewriteRecord_spine]
    · exact rewriteRecord_spine _ s
  · rfl

end Sys2Proof.Machine
end

