-- ==== Sys2Proof/Machine/Validator.lean ====
section
/-! DEFINITION. The validator's side of the manual, as plain functions beside the machine (log 26): look-up, frames taken,
and what each request does to a validator and draws from it (R16, R105, R117, R119, R120, R122 to R125, R127 to R129,
R133, R134, R136 to R139). No command of the part reads it. -/

namespace Sys2Proof.Machine

/-- The image a validator holds (R123, R124): its pages as 256 bytes each. -/
structure HeldImage where
  identity : Word
  gen : Word
  seed : Word
  pages : List (List Byte)
deriving DecidableEq, Repr

/-- An edition a validator holds (R125, R134): none for a page it lacks. -/
structure HeldEdition where
  number : BitVec 16
  digest : Word
  total : Nat
  effective : Word
  complete : Bool
  pages : List (Option (List Byte))
deriving DecidableEq, Repr

/-- A validator's open delivery (R123): `pages` and `seed` are the OPEN's P and seed in a blocklist delivery, `target` its T. -/
structure OpenDelivery where
  mode : Mode
  group : Bool
  identity : Word
  target : Word
  pages : Nat
  seed : Word
  number : BitVec 16
  total : Nat
  digest : Word
  count : BitVec 16
  sum : Word
deriving DecidableEq, Repr

/-- A frame as a validator took it, and its answer (R104). -/
structure Taken where
  code : Byte
  content : List Byte
  answer : Option (Byte × List Byte)
deriving DecidableEq, Repr

/-- A validator. -/
structure Validator where
  addr : Nat
  serial : BitVec 64
  model : BitVec 16
  blocklist : Nat
  edition : Nat
  baud : Nat
  level : Nat
  storeFault : Bool
  busy : Bool
  image : Option HeldImage
  active : Option HeldEdition
  pending : Option HeldEdition
  delivery : Option OpenDelivery
  day : Nat
  minute : Nat
  last : Option Taken
deriving DecidableEq, Repr

/-- What a validator answers: a reply code and its content. -/
abbrev Answer := Option (Byte × List Byte)

/-! ## Look-up (R16) -/

/-- The entries of a held page, by its live count. -/
def pageEntries (page : List Byte) : List Entry :=
  (List.range (fieldAt page 2 1)).map fun i => parseEntry ((page.drop (16 + 12 * i)).take 12)

/-- A media key found in the pages of its probe window, in window order (R16). -/
def HeldImage.lookup (h : HeldImage) (key : BitVec 64) : Option Entry :=
  (probeWindow key h.pages.length h.seed).findSome? fun p =>
    (pageEntries ((h.pages[p]?).getD [])).find? fun e => e.key = key

/-! ## What a validator reports (R120, R122) -/

/-- The store digest: over the bytes held (R120). -/
def HeldImage.digest (h : HeldImage) : Word := h.pages.foldl (fun d p => d + pageCrc p) 0

/-- The held-page mask (R51, R120). -/
def HeldEdition.mask (e : HeldEdition) : Nat :=
  ((List.range 64).map fun k => if ((e.pages[k]?).join).isSome then 2 ^ k else 0).sum

/-- The content of STATUS (R120). -/
def Validator.status (v : Validator) : List Byte :=
  leBytes 8 v.serial.toNat ++
  (match v.image with
   | some h => leBytes 4 h.identity.toNat ++ leBytes 4 h.gen.toNat ++ leBytes 4 h.digest.toNat
   | none => List.replicate 12 0) ++
  (match v.active with
   | some e => leBytes 2 e.number.toNat ++ leBytes 4 e.digest.toNat
   | none => List.replicate 6 0) ++
  (match v.pending with
   | some e => leBytes 2 e.number.toNat ++ leBytes 4 e.digest.toNat ++
       leBytes 1 (if e.complete then 1 else 0) ++ leBytes 8 e.mask
   | none => List.replicate 15 0) ++
  leBytes 1 ((if v.delivery.isSome then 1 else 0) + (if v.storeFault then 2 else 0) + (if v.busy then 4 else 0))

/-- The content of IDENT (R122). -/
def Validator.ident (v : Validator) : List Byte :=
  leBytes 8 v.serial.toNat ++ leBytes 2 v.model.toNat ++ leBytes 2 v.blocklist ++ leBytes 1 v.edition ++
  leBytes 4 v.baud ++ leBytes 1 v.level

/-- A REFUSE with a reason. -/
def refuseWith (reason : Nat) : Answer := some (Code.refuse, leBytes 1 reason)

/-! ## OPEN (R117, R123 to R125) -/

/-- A refused OPEN ends any open delivery (R123). -/
def Validator.refuseOpen (v : Validator) (reason : Nat) : Validator × Answer :=
  ({ v with delivery := none }, refuseWith reason)

/-- A blocklist OPEN (R124). An OPEN with GROUP at level 1 is refused with STATE before the store fault is looked at
(log 56). -/
def Validator.openBlocklist (v : Validator) (mode : Mode) (c : List Byte) : Validator × Answer :=
  let group := decide (fieldAt c 2 1 % 2 = 1)
  let identity := BitVec.ofNat 32 (fieldAt c 3 4)
  let baseH := BitVec.ofNat 32 (fieldAt c 7 4)
  let target := BitVec.ofNat 32 (fieldAt c 11 4)
  let pages := fieldAt c 15 2
  let seed := BitVec.ofNat 32 (fieldAt c 17 4)
  let same := match v.image with
    | some h => decide (h.identity = identity ∧ h.pages.length = pages ∧ h.seed = seed)
    | none => false
  let gen := match v.image with
    | some h => h.gen
    | none => 0
  let opened : OpenDelivery := ⟨mode, group, identity, target, pages, seed, 0, 0, 0, 0, 0⟩
  let accept : Answer := some (Code.accept, leBytes 8 0)
  if v.level < 2 ∧ group = true then v.refuseOpen 3
  else if v.storeFault then v.refuseOpen 4
  else if mode = .repair ∧ v.level < 2 then v.refuseOpen 3
  else if v.blocklist < pages then v.refuseOpen 2
  else if mode ≠ .reload ∧ same = false then v.refuseOpen 1
  else if mode = .delta ∧ gen < baseH then v.refuseOpen 1
  else if mode = .reload then
    ({ v with
        image := some ⟨identity, 0, seed, (List.range pages).map fun n => voidPage n 1 identity⟩
        delivery := some opened }, accept)
  else ({ v with delivery := some opened }, accept)

/-- An edition OPEN (R125); GROUP at level 1 as for a blocklist OPEN. -/
def Validator.openEdition (v : Validator) (mode : Mode) (c : List Byte) : Validator × Answer :=
  let group := decide (fieldAt c 2 1 % 2 = 1)
  let number := BitVec.ofNat 16 (fieldAt c 3 2)
  let total := fieldAt c 5 1
  let digest := BitVec.ofNat 32 (fieldAt c 6 4)
  let effective := BitVec.ofNat 32 (fieldAt c 10 4)
  if v.level < 2 ∧ group = true then v.refuseOpen 3
  else if v.storeFault then v.refuseOpen 4
  else if v.edition < 2 * total then v.refuseOpen 2
  else if total = 0 ∨ 64 < total then v.refuseOpen 3
  else
    let fresh : HeldEdition := ⟨number, digest, total, effective, false, List.replicate total none⟩
    let e := match v.pending with
      | some e => if e.number = number ∧ e.digest = digest then { e with effective := effective } else fresh
      | none => fresh
    ({ v with pending := some e, delivery := some ⟨mode, group, 0, 0, 0, 0, number, total, digest, 0, 0⟩ },
      some (Code.accept, leBytes 8 e.mask))

/-- OPEN by its dataset and mode bytes; a wrong pair or length is refused with STATE, with no action at all: an open delivery
stays open (R117; log 56). -/
def Validator.takeOpen (v : Validator) (c : List Byte) : Validator × Answer :=
  match fieldAt c 0 1, fieldAt c 1 1 with
  | 1, 1 => if c.length = 21 then v.openBlocklist .delta c else (v, refuseWith 3)
  | 1, 2 => if c.length = 21 then v.openBlocklist .reload c else (v, refuseWith 3)
  | 1, 3 => if c.length = 21 then v.openBlocklist .repair c else (v, refuseWith 3)
  | 2, 4 => if c.length = 14 then v.openEdition .stage c else (v, refuseWith 3)
  | 2, 5 => if c.length = 14 then v.openEdition .install c else (v, refuseWith 3)
  | _, _ => (v, refuseWith 3)

/-! ## PAGE and VOID (R123, R127 to R130) -/

/-- The open delivery a frame of a dataset acts on; to address 31 only one opened with GROUP (R123). -/
def Validator.deliveryFor (v : Validator) (isBlocklist toGroup : Bool) : Option OpenDelivery :=
  match v.delivery with
  | some d => if d.mode.isBlocklist = isBlocklist ∧ (toGroup = false ∨ d.group = true) then some d else none
  | none => none

/-- A blocklist page is bad (R127). -/
def badPage (d : OpenDelivery) (p : Nat) (stamp : Word) (page : List Byte) : Bool :=
  decide (pageCrc page ≠ pageCrcField page) || decide (fieldAt page 0 2 ≠ p) || decide (d.pages ≤ p) ||
  decide (BitVec.ofNat 32 (fieldAt page 8 4) ≠ d.identity) || decide (BitVec.ofNat 32 (fieldAt page 4 4) ≠ stamp) ||
  !(byteOf page 3).getLsbD 0

/-- The stamp rule (R127): a page is stored always in RELOAD and REPAIR, and above the copy's stamp in DELTA. -/
def stores (mode : Mode) (stamp : Word) (copy : List Byte) : Bool :=
  decide (mode ≠ .delta) || decide (fieldAt copy 4 4 < stamp.toNat)

/-- A page counts in the tally (R127, R128). -/
def OpenDelivery.counted (d : OpenDelivery) (crc : Word) : OpenDelivery :=
  { d with count := d.count + 1, sum := d.sum + crc }

/-- Stores and counts a blocklist page or void page. -/
def Validator.storePage (v : Validator) (d : OpenDelivery) (h : HeldImage) (p : Nat) (stamp crc : Word)
    (page : List Byte) : Validator :=
  let copy := (h.pages[p]?).getD []
  { v with
    image := some { h with pages := if stores d.mode stamp copy then h.pages.set p page else h.pages }
    delivery := some (d.counted crc) }

/-- The PAGE ACK a validator answers: the CRC of its copy, 0 with none (R130). -/
def pageAckOf (p : Nat) (copy : Option (List Byte)) : Answer :=
  some (Code.pageAck, leBytes 2 p ++ leBytes 4 ((copy.map pageCrc).getD 0).toNat)

/-- A blocklist PAGE (R127). -/
def Validator.takeBlocklistPage (v : Validator) (d : OpenDelivery) (h : HeldImage) (p : Nat) (c : List Byte) :
    Validator × Answer :=
  let stamp := BitVec.ofNat 32 (fieldAt c 3 4)
  let page := c.drop 7
  let v :=
    if badPage d p stamp page then v else v.storePage d h p stamp (pageCrcField page) page
  (v, pageAckOf p (v.image.bind fun h => h.pages[p]?))

/-- A VOID (R128). -/
def Validator.takeVoid (v : Validator) (d : OpenDelivery) (h : HeldImage) (c : List Byte) : Validator × Answer :=
  let p := fieldAt c 0 2
  let stamp := BitVec.ofNat 32 (fieldAt c 2 4)
  let v := if p < d.pages then v.storePage d h p stamp 0 (voidPage p stamp d.identity) else v
  (v, pageAckOf p (v.image.bind fun h => h.pages[p]?))

/-- An edition page is bad (R129). -/
def badEditionPage (d : OpenDelivery) (p : Nat) (page : List Byte) : Bool :=
  decide (pageCrc page ≠ pageCrcField page) || decide (BitVec.ofNat 16 (fieldAt page 0 2) ≠ d.number) ||
  decide (fieldAt page 3 1 ≠ d.total) || decide (fieldAt page 2 1 ≠ p) || decide (d.total ≤ p)

/-- The pending edition a page of an open delivery is stored in: the one held, or, when an ACTIVATE has made it active, a new
one of the delivery's number, digest and total, with the effective minute of the active edition (R129; log 56). -/
def Validator.storeFor (v : Validator) (d : OpenDelivery) : HeldEdition :=
  match v.pending with
  | some e => e
  | none =>
    { number := d.number, digest := d.digest, total := d.total
      effective := (v.active.map fun e => e.effective).getD 0, complete := false, pages := [] }

/-- A page stored in place of any copy of it, in a list of at least `total` places (R129). -/
def HeldEdition.store (e : HeldEdition) (total p : Nat) (page : List Byte) : HeldEdition :=
  { e with pages := (e.pages ++ List.replicate (total - e.pages.length) none).set p (some page) }

/-- An edition PAGE (R129). -/
def Validator.takeEditionPage (v : Validator) (d : OpenDelivery) (c : List Byte) : Validator × Answer :=
  let p := fieldAt c 1 2
  let page := c.drop 7
  let v :=
    if badEditionPage d p page then v
    else
      { v with pending := some ((v.storeFor d).store d.total p page)
               delivery := some (d.counted (pageCrcField page)) }
  (v, pageAckOf p (v.pending.bind fun e => (e.pages[p]?).join))

/-- PAGE or VOID with an open delivery of its dataset, otherwise REFUSE with STATE (R123). No delivery is of a dataset other
than 1 and 2. -/
def Validator.takePage (v : Validator) (code : Byte) (c : List Byte) (toGroup : Bool) : Validator × Answer :=
  if code = Code.void then
    match v.deliveryFor true toGroup, v.image with
    | some d, some h => v.takeVoid d h c
    | _, _ => (v, refuseWith 3)
  else if fieldAt c 0 1 = 1 then
    match v.deliveryFor true toGroup, v.image with
    | some d, some h => v.takeBlocklistPage d h (fieldAt c 1 2) c
    | _, _ => (v, refuseWith 3)
  else if fieldAt c 0 1 = 2 then
    match v.deliveryFor false toGroup with
    | some d => v.takeEditionPage d c
    | none => (v, refuseWith 3)
  else (v, refuseWith 3)

/-! ## CLOSE and CHECK (R133, R134, R136) -/

/-- A CLOSE ACK. -/
def closeAnswer (result verdict : Nat) (count : BitVec 16) (sum : Word) : Answer :=
  some (Code.closeAck, leBytes 1 result ++ leBytes 1 verdict ++ leBytes 2 count.toNat ++ leBytes 4 sum.toNat)

/-- The tally a CLOSE carries equals the validator's own. -/
def sameTally (d : OpenDelivery) (c : List Byte) : Bool :=
  decide (fieldAt c 5 2 = d.count.toNat) && decide (fieldAt c 7 4 = d.sum.toNat)

/-- The verdict of a committed blocklist CLOSE (R133): 0 UNCHECKED under NO DIGEST, 1 MATCH, 2 MISMATCH. -/
def HeldImage.verdict (h : HeldImage) (c : List Byte) : Nat :=
  if fieldAt c 15 1 % 2 = 1 then 0 else if fieldAt c 11 4 = h.digest.toNat then 1 else 2

/-- A blocklist CLOSE (R133). H becomes the target T of the delivery's record (R123; log 56). -/
def Validator.closeBlocklist (v : Validator) (c : List Byte) : Validator × Answer :=
  match v.deliveryFor true false with
  | some d =>
    let ended := { v with delivery := none }
    (match v.image with
     | some h =>
       if sameTally d c then
         ({ ended with image := some { h with gen := d.target, identity := d.identity, seed := d.seed } },
           closeAnswer 1 (h.verdict c) d.count d.sum)
       else (ended, closeAnswer 2 0 d.count d.sum)
     | none => (ended, closeAnswer 2 0 d.count d.sum))
  | none => (v, closeAnswer 3 0 0 0)

/-- The pages of an edition whose bytes still match their CRC field (R134). -/
def HeldEdition.sound (e : HeldEdition) : HeldEdition :=
  { e with pages := e.pages.map fun o => o.bind fun p => if pageCrc p = pageCrcField p then some p else none }

/-- The sum of the held pages' CRCs. -/
def HeldEdition.sum (e : HeldEdition) : Word := (e.pages.filterMap id).foldl (fun d p => d + pageCrc p) 0

/-- The pending edition agrees with an edition CLOSE (R134): every page below the page total held,
the held pages' CRCs summing to the digest. -/
def HeldEdition.agrees (e : HeldEdition) (d : OpenDelivery) (c : List Byte) : Bool :=
  ((List.range d.total).all fun k => ((e.pages[k]?).join).isSome) && decide (e.sum.toNat = fieldAt c 11 4)

/-- The pending edition becomes complete, and active under MAKE ACTIVE (R134). -/
def Validator.commit (v : Validator) (e : HeldEdition) (makeActive : Bool) : Validator :=
  let e := { e with complete := true }
  if makeActive then { v with active := some e, pending := none } else { v with pending := some e }

/-- An edition CLOSE (R134). An open delivery ends whatever the result; with no pending edition left to it, no page is held
and the result is TALLY. -/
def Validator.closeEdition (v : Validator) (c : List Byte) : Validator × Answer :=
  match v.deliveryFor false false with
  | some d =>
    let ended := { v with delivery := none, pending := v.pending.map HeldEdition.sound }
    (match ended.pending with
     | some e =>
       if sameTally d c && e.agrees d c then
         (ended.commit e (decide (fieldAt c 15 1 / 2 % 2 = 1)), closeAnswer 1 1 d.count d.sum)
       else (ended, closeAnswer 2 0 d.count d.sum)
     | none => (ended, closeAnswer 2 0 d.count d.sum))
  | none => (v, closeAnswer 3 0 0 0)

/-- CLOSE by its dataset (R133, R134); of any other dataset none is open. -/
def Validator.takeClose (v : Validator) (c : List Byte) : Validator × Answer :=
  if fieldAt c 0 1 = 1 then v.closeBlocklist c
  else if fieldAt c 0 1 = 2 then v.closeEdition c
  else (v, closeAnswer 3 0 0 0)

/-- CHECK (R136): the CRCs of the copies of a range, in an open REPAIR delivery. -/
def Validator.takeCheck (v : Validator) (c : List Byte) : Answer :=
  let first := fieldAt c 0 2
  let k := fieldAt c 2 1
  match v.deliveryFor true false, v.image with
  | some d, some h =>
    if d.mode = .repair ∧ 1 ≤ k ∧ k ≤ 8 ∧ first + k ≤ h.pages.length ∧ 2 ≤ v.level then
      some (Code.checkReport, leBytes 2 first ++ leBytes 1 k ++
        (List.range k).flatMap fun i => leBytes 4 (pageCrc ((h.pages[first + i]?).getD [])).toNat)
    else refuseWith 3
  | _, _ => refuseWith 3

/-! ## ACTIVATE, DISCARD, TIME (R137 to R139) -/

/-- ACTIVATE (R137). -/
def Validator.takeActivate (v : Validator) (number : Nat) : Validator :=
  match v.pending with
  | some e => if e.number.toNat = number ∧ e.complete = true then { v with active := some e, pending := none } else v
  | none => v

/-- DISCARD (R138). -/
def Validator.takeDiscard (v : Validator) (number : Nat) : Validator :=
  let v := match v.pending with
    | some e => if e.number.toNat = number then { v with pending := none } else v
    | none => v
  match v.delivery with
  | some d => if d.mode.isBlocklist = false ∧ d.number.toNat = number then { v with delivery := none } else v
  | none => v

/-! ## A frame at a validator (R104, R105, R117, R119) -/

/-- The data length a request code calls for (chapter 6, section 6.1); OPEN's follows its dataset. -/
def requestLength (code : Byte) : Option Nat :=
  if code = Code.poll ∨ code = Code.identify then some 0
  else if code = Code.page then some 263
  else if code = Code.void then some 6
  else if code = Code.close then some 16
  else if code = Code.check then some 3
  else if code = Code.activate ∨ code = Code.discard then some 2
  else if code = Code.time then some 4
  else none

/-- A request to the validator's own address (R117). A TIME is refused there and sets no clock (R105, R139; log 56). -/
def Validator.act (v : Validator) (code : Byte) (c : List Byte) : Validator × Answer :=
  if code = Code.openDelivery then v.takeOpen c
  else if requestLength code ≠ some c.length ∨ code = Code.time then (v, refuseWith 3)
  else if code = Code.poll then (v, some (Code.status, v.status))
  else if code = Code.identify then (v, some (Code.ident, v.ident))
  else if code = Code.page ∨ code = Code.void then v.takePage code c false
  else if code = Code.close then v.takeClose c
  else if code = Code.check then (v, v.takeCheck c)
  else if code = Code.activate then
    let v := v.takeActivate (fieldAt c 0 2)
    (v, some (Code.status, v.status))
  else
    let v := v.takeDiscard (fieldAt c 0 2)
    (v, some (Code.status, v.status))

/-- The dataset of a PAGE or VOID is the blocklist's. -/
def pageOfBlocklist (code : Byte) (c : List Byte) : Bool := decide (code = Code.void) || decide (fieldAt c 0 1 = 1)

/-- A PAGE or VOID to address 31 is acted on (R117, R123): at level 2, with a GROUP delivery of its dataset open. -/
def Validator.takesGroupPage (v : Validator) (code : Byte) (c : List Byte) : Bool :=
  decide (2 ≤ v.level) && (pageOfBlocklist code c || decide (fieldAt c 0 1 = 2)) &&
  (v.deliveryFor (pageOfBlocklist code c) true).isSome

/-- A frame to address 31 (R117): PAGE, VOID, ACTIVATE and TIME of the right length; none for a frame ignored, which is not
taken. -/
def Validator.actGroup (v : Validator) (code : Byte) (c : List Byte) : Option Validator :=
  if requestLength code ≠ some c.length then none
  else if code = Code.activate then some (v.takeActivate (fieldAt c 0 2))
  else if code = Code.time then some { v with day := fieldAt c 0 2, minute := fieldAt c 2 2 }
  else if (code = Code.page ∨ code = Code.void) ∧ v.takesGroupPage code c = true then some (v.takePage code c true).1
  else none

/-- The validator's own restart ends its open delivery (R123); the last frame taken and the clock stay (log 56). -/
def Validator.restart (v : Validator) : Validator := { v with delivery := none }

/-- A frame that passes its checks, taken by the validator it is addressed to: REPEAT of the last frame taken is answered as
before without a second action (R104), never with BUSY (log 56); BUSY, when the validator chooses it, takes nothing (R119), so
that an OPEN answered BUSY leaves a delivery opened before as it is (log 56). A frame refused with no action is taken
(log 56). -/
def Validator.take (v : Validator) (code third : Byte) (toGroup wantsBusy : Bool) (c : List Byte) :
    Validator × Answer :=
  let noReply := third.getLsbD 4
  let again :=
    third.getLsbD 5 && (match v.last with
      | some t => decide (t.code = code ∧ t.content = c)
      | none => false)
  if again then (v, if toGroup || noReply then none else v.last.bind (·.answer))
  else if wantsBusy then (v, if toGroup || noReply then none else some (Code.busy, []))
  else if toGroup then
    match v.actGroup code c with
    | some w => ({ w with last := some ⟨code, c, none⟩ }, none)
    | none => (v, none)
  else
    let x := v.act code c
    ({ x.1 with last := some ⟨code, c, x.2⟩ }, if noReply then none else x.2)

/-- What a validator does with the bytes of a frame (R105): discarded, or taken and perhaps answered with a frame that
carries its own address with direction 1, the request's tag, and flags zero. -/
def Validator.hear (v : Validator) (bytes : List Byte) (ending : FrameEnd) (wantsBusy : Bool) :
    Validator × Option (List Byte) :=
  let addr := frameAddress bytes
  if frameIntact bytes ending && !fromValidator bytes && (decide (addr = v.addr) || decide (addr = 31)) then
    let x := v.take (byteOf bytes 2) (byteOf bytes 3) (decide (addr = 31)) wantsBusy (frameContent bytes)
    (x.1, x.2.map fun a =>
      frameBytes (BitVec.ofNat 8 (v.addr + 128)) a.1 (flagByte (frameTag bytes) false false) a.2)
  else (v, none)

end Sys2Proof.Machine
end

