-- ==== Sys2Proof/Tests/Slice0.lean ====
section
/-! SUPPORT. Tests: the manual's worked values, one step of every command on a small state, the well-formedness checks,
and for each statement with premises a state and operands that meet them. -/

namespace Sys2Proof.Tests

-- One theorem after another: the kernel evaluates them, and each waiting one would hold a thread.
set_option Elab.async false

open Sys2Proof.Machine

/-! ## Small states -/

/-- What a command answers. -/
def after (c : Instr) (s : State) : State :=
  match exec c s with
  | .next t => t
  | _ => s

/-- A descriptor copy: strips of 4 slots at 0x1000 and 0x2000. -/
def copy : Descriptor :=
  { scanInterval := 0, priorityAddr := 0x1000, routineAddr := 0x2000, priorityCount := 4, routineCount := 4,
    report := 0x3000, imageA := 0x100000, imageB := 0x200000, editionA := 0x4000, editionB := 0x8000 }

/-- The bytes of a descriptor at XBASE 0 that gives that copy (R186). -/
def descriptorBytes : List Byte :=
  leBytes 4 0x4A444C47 ++ leBytes 2 1 ++ leBytes 2 0 ++ leBytes 4 0x1000 ++ leBytes 4 0x2000 ++ leBytes 2 4 ++
  leBytes 2 4 ++ leBytes 4 0x3000 ++ leBytes 4 0x100000 ++ leBytes 4 0x200000 ++ leBytes 4 0x4000 ++ leBytes 4 0x8000

/-- A part in an engine state, with that copy. -/
def at' (e : Engine) : State :=
  { State.reset with
    engine := e, regs := { State.reset.regs with run := true }, exch := { State.reset.exch with descriptor := some copy } }

/-- A RUNNING part. -/
def up : State := at' .running

/-- A request of kind `k` with parameters from byte 8 waits on a strip, notify set. -/
def holds (t : Strip) (k : Nat) (params : List Byte) (s : State) : State :=
  s.setStrip t ⟨(s.strip t).position, .holding ⟨k, true, params⟩ true true⟩

/-- A live image of 64 void pages, identity 9, seed 0, G = `g`. -/
def image (g : Word) (s : State) : State :=
  { s with change := { s.change with
      identity := 9, pages := 64, gen := g, table := List.replicate 64 ⟨1, 0, 0, 0⟩ } }

/-- Slot 0 bound to line 0, drop address 1, serial 5. -/
def bound (x : SlotState) (s : State) : State :=
  s.setSlot 0 { Slot.cold with
    state := x, binding := some (0, 1), mode := .pinned, serial := 5, heldId := 9, heldH := 7, keepalive := some 50 }

/-- Line 0 is SINGLE, idle for 2 byte times at the slowest rate. -/
def lined (s : State) : State := s.modPort 0 fun p =>
  { p with mode := .single, applied := .single, idleTime := 2 * (10 * Config.second / 19200) }

/-- Lines 0 and 1 are a pair, the loop in force. -/
def pairUp (s : State) : State :=
  (s.modPort 0 fun p => { p with mode := .pairPrimary, applied := .pairPrimary }).modPort 1 fun p =>
    { p with mode := .pairSecondary, applied := .pairSecondary }

/-- An exchange begun, to drop address 1. -/
def begun (w : Work) (code : Byte) : Exchange :=
  { handed w with started := true, addr := 1, code := code, retries := 1 }

/-- Line 0's port has an exchange in a state. -/
def inHand (x : Exchange) (q : XState) (s : State) : State :=
  s.modPort 0 fun p => { p with exchange := some x, xstate := q }

/-- Line 0's port holds a reply to its exchange, in the gap after it. -/
def replied (x : Exchange) (code : Byte) (content : List Byte) (s : State) : State :=
  (inHand x .gap s).modPort 0 fun p => { p with reply := some ⟨code, content⟩ }

/-- An open blocklist delivery to slot 0. -/
def opened (m : Mode) (ps : List Nat) : Delivery :=
  { Delivery.fresh m false false with identity := 9, target := 7, urgent := ps, phase := .opened }

/-- Slot 0 has a delivery. -/
def delivering (d : Delivery) (s : State) : State := s.setDelivery 0 (some d)

/-- A part with slot 0 on line 0, in service. -/
def serving : State := lined (bound .behind (image 7 up))

/-- The bytes of a frame from the validator at drop address 1 (R102). -/
def answer (code : Byte) (content : List Byte) : List Byte := frameBytes 0x81 code 0 content

/-- The content of a STATUS: serial, held identity, H, digest, and byte 41. -/
def statusBytes (serial identity gen digest flags : Nat) : List Byte :=
  leBytes 8 serial ++ leBytes 4 identity ++ leBytes 4 gen ++ leBytes 4 digest ++ List.replicate 21 0 ++ leBytes 1 flags

/-- The content of an IDENT: serial, model 7, capacities 4096 and 128, 57,600 baud, level 2. -/
def identBytes (serial : Nat) : List Byte :=
  leBytes 8 serial ++ leBytes 2 7 ++ leBytes 2 4096 ++ leBytes 1 128 ++ leBytes 4 57600 ++ leBytes 1 2

/-- A change item (chapter 2, section 2.1). -/
def itemBytes (key op action reason expiry : Nat) : List Byte :=
  leBytes 8 key ++ leBytes 1 op ++ leBytes 1 action ++ leBytes 1 reason ++ [0] ++ leBytes 2 expiry ++ [0, 0]

/-- A batch of one item runs, its item list at 0x30000. -/
def batching (item : List Byte) (s : State) : State :=
  { holds .priority 1 [] s with
    mem := Memory.writeBytes s.mem 0x30000 item
    change := { s.change with batch := some ⟨.priority, 0x30000, 1, 0, 0, false, []⟩ } }

/-! ## The manual's worked values -/

/-- R6: CRC-32 of "123456789". -/
theorem test_crc32 : crc32 ((List.range 9).map fun i => BitVec.ofNat 8 (0x31 + i)) = 0xFC891918 := by decide +kernel

/-- R103: CRC-16 of "123456789". -/
theorem test_crc16 : crc16 ((List.range 9).map fun i => BitVec.ofNat 8 (0x31 + i)) = 0xAEE7 := by decide +kernel

/-- Chapter 1, worked placement. -/
theorem test_probe_windows :
    probeWindow 0x000000A14C3B7E20 1000 0 = [297, 298, 299, 300] ∧
    probeWindow 0x000000A14C3B7E20 2048 0 = [609, 610, 611, 612] ∧
    probeWindow 0x00000000FC001234 64 0 = [63, 0, 1, 2] := by decide +kernel

/-- Chapter 2, worked batch: the windows of K2, K1 and KB. -/
theorem test_batch_windows :
    homePage 0x4C2070A5 1000 0 = 297 ∧ homePage 0x4C207001 1000 0 = 297 ∧
    probeWindow 0x4CD05A5A 1000 0 = [300, 301, 302, 303] := by decide +kernel

/-- Chapter 3, worked service days, B = 180. -/
theorem test_service_days :
    (⟨true, 20099, 1439, 0, 180, 0, false⟩ : Clock).serviceDay = 20099 ∧
    (⟨true, 20100, 0, 0, 180, 0, false⟩ : Clock).serviceDay = 20099 ∧
    (⟨true, 20100, 180, 0, 180, 0, false⟩ : Clock).serviceDay = 20100 ∧
    (⟨true, 0, 0, 0, 180, 0, false⟩ : Clock).serviceDay = 0 := by decide +kernel

/-! ## Well-formedness: each check refuses an ill-formed term -/

/-- RUN writes bit 1 as 0 (R184). -/
theorem smoke_run : (Instr.run 2).wellFormed = false := by decide
/-- RESTART writes bit 1 as 1 (R184). -/
theorem smoke_restart : (Instr.restart 1).wellFormed = false := by decide
/-- REGISTER_WRITE names no register with a row of its own (R183). -/
theorem smoke_register_write : (Instr.registerWrite 0x14 0 []).wellFormed = false := by decide
/-- An access names a page below 4096, or of one slice. -/
theorem smoke_memory_error :
    ∀ a ∈ [Access.batchHeader 4096, .formatPage .priority 4096, .purgePage 4096, .purgeHeader 4096, .rebuildPage 64],
      (Instr.memoryError a).wellFormed = false := by decide
/-- Only an even line is judged for an echo (R111). -/
theorem smoke_echo_judged : (Instr.echoJudged 1 [] true).wellFormed = false := by decide
/-- A received frame begins with 0xB4 (R107). -/
theorem smoke_frame_received : (Instr.frameReceived 0 [0xB7] .complete).wellFormed = false := by decide
/-- Well-formed terms. -/
theorem smoke_well_formed :
    ∀ c ∈ [Instr.run 1, .restart 3, .registerWrite 0x0C 5 [], .memoryError (.batchHeader 4095), .echoJudged 2 [] true,
      .frameReceived 0 [0xB4] .idle, .changeItem], c.wellFormed = true := by decide
/-- The table gives no row any bits. -/
theorem test_decode : decodeTableWord 8 1 = none ∧ (State.reset.withFetchWord 8 1).pending = [] := by decide

/-! ## Registers and engine -/

theorem test_power_on : (after .powerOn (at' .stopping)).engine = .haltedCold := by decide +kernel

/-- R184: RUN written as 1 in HALTED cold starts the part. -/
theorem test_run : (after (.run 1) State.reset).readRegister 0x08 = 1 := by decide +kernel

theorem test_run_stops : (after (.run 0) up).readRegister 0x08 = 3 := by decide +kernel

/-- R204: RESTART keeps XBASE and leaves the part HALTED cold. -/
theorem test_restart :
    let t := after (.restart 3) { up with regs := ⟨true, 0x5000, 0xFF, 0x81⟩ }
    t.engine = .haltedCold ∧ t.regs = ⟨false, 0x5000, 0, 0x81⟩ := by decide +kernel

/-- R185: bits 0-11 of XBASE are not stored. -/
theorem test_register_write : (after (.registerWrite 0x0C 0xFFFFFFFF []) up).readRegister 0x0C = 0xFFFFF000 := by decide +kernel

/-- R190: a KICK takes a POSTED request; the part writes TAKEN. -/
theorem test_kick :
    Memory.read (after (.kick 0) { up with mem := [(0x1000, 1), (0x1001, 2)] }).mem 0x1000 = 2 := by decide +kernel

/-- R190: a KICK outside RUNNING does nothing. -/
theorem test_kick_stopping :
    (after (.kick 0) { at' .stopping with mem := [(0x1000, 1), (0x1001, 2)] }).mem = [(0x1000, 1), (0x1001, 2)] := by
  decide +kernel

/-- R194: a bit written as 0 is cleared, one written as 1 stays. -/
theorem test_events_clear :
    (after (.eventsClear 0xFE) { up with regs := ⟨true, 0, 0x83, 0⟩ }).readRegister 0x14 = 0x82 := by decide +kernel

theorem test_evmask_write : (after (.evmaskWrite 0x1FF) up).readRegister 0x18 = 0xFF := by decide +kernel

/-- R186, R187: a good descriptor is kept. -/
theorem test_descriptor_read :
    let t := after .descriptorRead { State.reset with engine := .starting, mem := Memory.writeBytes [] 0 descriptorBytes }
    t.exch.descriptor = some copy ∧ t.engine = .starting := by decide +kernel

/-- R187: a descriptor of zeros fails; STATE reads FAULTED with cause DESCRIPTOR. -/
theorem test_descriptor_refused :
    (after .descriptorRead { State.reset with engine := .starting }).readRegister 0x08 = 0x104 := by decide +kernel

theorem test_starting_end : (after .startingEnd (at' .starting)).engine = .running := by decide +kernel

/-- R207: the drain ends in HALTED resumable, with RUN 0. -/
theorem test_drain_complete :
    (after .drainComplete { at' .stopping with regs := ⟨false, 0, 0, 0⟩ }).readRegister 0x08 = 8 := by decide +kernel

/-- R196: FAULTED with cause MEMORY, EVENTS.FAULT raised. -/
theorem test_memory_error :
    let t := after (.memoryError .itemRead) up
    t.readRegister 0x08 = 0x204 ∧ t.readRegister 0x14 = 0x80 := by decide +kernel

/-- R190: the timer's expiry visits both strips and starts it again. -/
theorem test_scan_interval_expiry :
    let s := { up with
      exch := { up.exch with descriptor := some { copy with scanInterval := 4 }, scanTimer := some 0 }, mem := [(0x2000, 1)] }
    let t := after .scanIntervalExpiry s
    Memory.read t.mem 0x2000 = 3 ∧ t.exch.scanTimer = some (4 * Config.ms) := by decide +kernel

/-- R204: with the reset pin low no command has an effect. -/
theorem test_reset_pin_low :
    (after .resetPinLow up).resetLow = true ∧ (after (.run 0) (after .resetPinLow up)).engine = .running := by decide +kernel

/-! ## The change engine -/

/-- R22: an item count of 0 is BAD_PARAM. -/
theorem test_apply_changes :
    let t := after (.applyChanges .priority) (holds .priority 1 (leBytes 4 0x30000 ++ [0, 0]) (image 7 up))
    Memory.readBytes t.mem 0x1000 8 = [3, 0, 0, 0, 4, 0, 0, 0] := by decide +kernel

/-- R27: an ADD into an empty image is ADDED in the home page. -/
theorem test_change_item :
    let t := after .changeItem (batching (itemBytes 0xFC001234 1 1 5 0) (image 7 up))
    Memory.read t.mem (0x30000 + 11) = 1 ∧ liveCount t.change.table 63 = 1 ∧
    readEntries t.mem 0x100000 63 1 = [⟨0xFC001234, 1, 5, 0⟩] := by decide +kernel

/-- R24: reason 64 is BAD_ITEM. -/
theorem test_bad_item :
    Memory.read (after .changeItem (batching (itemBytes 0xFC001234 1 1 64 0) (image 7 up))).mem (0x30000 + 11) = 8 := by
  decide +kernel

/-- R30: the batch of a priority strip stamps and hot-stamps the page it changed. -/
theorem test_batch_end :
    let s := image 7 up
    let t := after .batchEnd { s with change := { s.change with batch := some ⟨.priority, 0x30000, 1, 1, 0, false, [63]⟩ } }
    t.change.gen = 8 ∧ (t.change.table[63]?).map (fun r => (r.stamp, r.hot)) = some (8, 8) := by decide +kernel

/-- R17: 63 pages are BAD_PARAM. -/
theorem test_format_image :
    let t := after (.formatImage .routine) (holds .routine 2 (leBytes 2 63) up)
    Memory.read t.mem 0x2004 = 4 := by decide +kernel

/-- R18: the new image goes live with G = 1. -/
theorem test_format_switch :
    let f : Format := ⟨.routine, .b, 64, 3, 5, List.replicate 64 ⟨1, 0, 2, 0⟩⟩
    let t := after .formatSwitch { image 7 up with change := { (image 7 up).change with format := some f } }
    t.change.identity = 5 ∧ t.change.gen = 1 ∧ t.change.region = .b ∧ t.change.digest = 128 := by decide +kernel

/-- R39: with no image, WRONG_STATE. -/
theorem test_rebuild_image :
    let t := after (.rebuildImage .routine) (holds .routine 3 (leBytes 2 64 ++ leBytes 4 0 ++ leBytes 4 5) up)
    Memory.read t.mem 0x2004 = 5 := by decide +kernel

/-- A rebuild to 65 pages, as it begins. -/
def rebuild65 : Rebuild := ⟨.routine, .clearing, 65, 0, 5, 7, 0, 0, 0, List.replicate 65 ⟨0, 0, false⟩, false⟩

/-- R41: the last clearing slice takes what is left and COPYING begins. -/
theorem test_rebuild_slice :
    let t := after .rebuildSlice { image 7 up with
      change := { (image 7 up).change with rebuild := some { rebuild65 with cleared := 64 } } }
    t.change.rebuild.map (fun r => (r.cleared, r.phase)) = some (65, .copying) := by decide +kernel

/-- R38: with G at its limit the purge job is skipped. -/
theorem test_purge_job :
    let t := after .purgeJob { image 0xFFFFFF00 up with
      change := { (image 0xFFFFFF00 up).change with purge := .queued true } }
    t.change.purgeSkipped = true ∧ t.change.purge = .empty := by decide +kernel

/-! ## Editions and the clock -/

/-- R54: a number not above the active one is WRONG_STATE. -/
theorem test_load_edition :
    let t := after (.loadEdition .routine) (holds .routine 0x10 (leBytes 4 0x30000 ++ leBytes 2 1) up)
    Memory.read t.mem 0x2004 = 5 := by decide +kernel

/-- A load of edition 4 of two records, its list at 0x30000. -/
def loading (record : List Byte) : State :=
  { up with
    mem := Memory.writeBytes [] 0x30000 record
    editions := { up.editions with
      pending := { up.editions.pending with state := .composing, number := 4, total := 1 }
      load := some ⟨.routine, 0x30000, 2, 0, 0, 0⟩ } }

/-- R49: a validity of 0 is clamped to 1, and the transfer time to the validity. -/
theorem test_product_record :
    let t := after .productRecord (loading (leBytes 2 1 ++ [0, 0] ++ leBytes 4 100 ++ leBytes 4 250 ++ leBytes 2 0 ++ leBytes 2 9))
    Memory.readBytes t.mem (0x8000 + 16 + 12) 4 = [1, 0, 1, 0] ∧ t.editions.load.map (·.clamped) = some 1 := by decide +kernel

/-- R48: fare code 0 refuses the load. -/
theorem test_product_record_refused :
    (after .productRecord (loading (List.replicate 16 0))).editions.pending.state = .empty := by decide +kernel

/-- Edition 4 is pending for minute 5000. -/
def pendingFour (s : State) : State :=
  { s with editions := { s.editions with
      pending := { s.editions.pending with state := .pending, number := 4, total := 1, effective := 5000 } } }

theorem test_reschedule_edition :
    (after (.rescheduleEdition .routine) (holds .routine 0x11 (leBytes 2 4 ++ leBytes 4 6000) (pendingFour up))).editions.pending.effective
      = 6000 := by decide +kernel

theorem test_withdraw_edition :
    (after (.withdrawEdition .routine) (holds .routine 0x12 (leBytes 2 4) (pendingFour up))).editions.pending.state = .empty := by
  decide +kernel

/-- R67. -/
theorem test_set_clock :
    (after (.setClock .routine) (holds .routine 0x13 (leBytes 2 20100 ++ leBytes 2 179 ++ leBytes 2 180) up)).clock
      = ⟨true, 20100, 179, 0, 180, 0, false⟩ := by decide +kernel

/-- Chapter 3, worked service days: the tick to minute 180 queues one purge job. -/
theorem test_minute_tick :
    let t := after .minuteTick { image 7 up with clock := ⟨true, 20100, 179, 59, 180, 0, false⟩ }
    t.clock = ⟨true, 20100, 180, 0, 180, 0, false⟩ ∧ t.change.purge ≠ .empty := by decide +kernel

/-- R60: the tick that reaches the effective minute activates the edition. -/
theorem test_activation :
    let t := after .minuteTick (pendingFour { up with clock := ⟨true, 3, 679, 59, 0, 0, false⟩ })
    t.editions.active.number = 4 ∧ t.editions.pending.state = .empty := by decide +kernel

/-! ## The roster -/

/-- R84: slot 2 is bound to line 1, drop address 30, PINNED and SILENT. -/
theorem test_pin_slot :
    let t := after (.pinSlot .routine) (holds .routine 0x20 ([2, 1, 30] ++ leBytes 8 77 ++ [1]) up)
    ((t.slot 2).binding, (t.slot 2).state, (t.slot 2).serial, (t.slot 2).frozen) = (some (1, 30), .silent, 77, true) := by
  decide +kernel

theorem test_free_slot : (after (.freeSlot .routine) (holds .routine 0x21 [0] serving)).slot 0 = .cold := by decide +kernel

theorem test_release_slot :
    ((after (.releaseSlot .routine) (holds .routine 0x22 [0] (bound .quarantined up))).slot 0).state = .silent := by decide +kernel

theorem test_resync_slot :
    let v := (after (.resyncSlot .routine) (holds .routine 0x23 [0] (bound .current up))).slot 0
    v.reload = true ∧ v.heldH = 0 ∧ v.state = .behind := by decide +kernel

theorem test_clear_counters :
    let s := up.setSlot 3 { Slot.cold with counters := ⟨1, 2, 3, 4, 5, 6, 7, 8⟩ }
    ((after (.clearCounters .routine) (holds .routine 0x24 (leBytes 4 8) s)).slot 3).counters = .zero := by decide +kernel

theorem test_keepalive_due : ((after (.keepaliveDue 0) (lined (bound .silent up))).slot 0).keepalive = some 0 := by decide +kernel

theorem test_backoff_expiry :
    ((after (.backoffExpiry 3) (up.setSlot 3 { Slot.cold with backoff := some 9 })).slot 3).backoff = none := by decide +kernel

theorem test_replacement_window_close :
    ((after (.replacementWindowClose 3) (up.setSlot 3 { Slot.cold with window := some 9 })).slot 3).window = none := by
  decide +kernel

/-- R89: the visit falls due on lines not OFF, and is handed to an idle one. -/
theorem test_discovery_visit_due :
    let t := after .discoveryVisitDue (lined up)
    (t.port 0).exchange.map (·.work) = some .discovery ∧ (t.arbiter 1).discoveryDue = false := by decide +kernel

theorem test_identify_due :
    let s := (bound .identifying up).modSlot 0 fun v => { v with identify := some 70 }
    ((after (.identifyDue 0) s).slot 0).identify = some 0 := by decide +kernel

/-! ## Lines and frames -/

/-- R97: profile 2 and mode SINGLE are recorded on line 3. -/
theorem test_set_line :
    let t := after (.setLine .routine) (holds .routine 0x30 [3, 1, 2] up)
    ((t.port 3).mode, (t.port 3).profile) = (.single, 2) := by decide +kernel

/-- R99: six values out of range are clamped, and the detail count is 6. -/
theorem test_set_profile :
    let t := after (.setProfile .routine) (holds .routine 0x31 [1, 6, 0, 1, 4, 0, 0, 0, 1, 0] up)
    t.profiles[(1 : Fin 4)] = ⟨6, 1, 2, 3, 1, 1, 1, true, false⟩ ∧ Memory.readBytes t.mem 0x2004 4 = [1, 1, 6, 0] := by
  decide +kernel

/-- Line 0 of a pair that a SET LINE to SINGLE splits takes a frame from line 1's receiver. -/
def splitting (o : From) : State :=
  ((inHand (begun (.poll 0) 0x01) (.receiving o) (pairUp serving)).modPort 0 fun p =>
    { p with mode := .single, rxSide := .secondary, replyLeft := 500 }).modPort 1 fun p => { p with mode := .single }

/-- R96, R98: line 1 goes OFF then, and the reply it takes for the POLL of line 0 is not judged. -/
theorem test_set_line_off_stops_reading :
    let t := after (.setLine .routine) (holds .routine 0x30 [1, 0, 0] (splitting .awaiting))
    let u := after (.frameReceived 0 (answer 0x81 (statusBytes 5 9 7 0 0)) .complete) t
    (t.port 0).xstate = .awaiting ∧ (t.port 0).replyLeft = 500 ∧ (u.port 0).reply = none ∧
    (u.port 1).counters = .zero := by decide +kernel

theorem test_line_mode_change_applied :
    let s := up.modPort 2 fun p => { p with mode := .single }
    ((after (.lineModeChangeApplied 2) s).port 2).applied = .single := by decide +kernel

theorem test_line_record_timer :
    let t := after (.lineRecordTimer 1) (up.modPort 1 fun p => { p with recordTimer := some 0 })
    t.report.wanted[lineRec 1] = true ∧ (t.port 1).recordTimer = none := by decide +kernel

/-- R102: a POLL to drop address 1 with tag 0, the header check over 6 bytes. -/
theorem test_frame_start :
    let t := after (.frameStart 0) (inHand (handed (.poll 0)) .idle serving)
    (t.port 0).tx.take 6 = [0xB4, 1, 0x01, 0, 0, 0] ∧ (t.port 0).tx.length = 8 ∧ (t.port 0).xstate = .sending := by
  decide +kernel

/-- R101: the frame waits until the line has been idle for 2 byte times at its rate. -/
theorem test_frame_start_waits :
    let s := inHand (handed (.poll 0)) .idle (serving.modPort 0 fun p =>
      { p with idleTime := 2 * (10 * Config.second / 19200) - 1 })
    ((after (.frameStart 0) s).port 0).xstate = .idle := by decide +kernel

theorem test_frame_sent :
    ((after (.frameSent 0) (inHand (begun (.poll 0) 0x01) .sending serving)).port 0).xstate = .awaiting := by decide +kernel

/-- R111: a second missing echo breaks the loop. -/
theorem test_echo_judged :
    let s := (pairUp up).modPort 0 fun p => { p with echoDue := true, missRun := 1, tx := [0xB4] }
    ((after (.echoJudged 0 [] true) s).port 0).broken = true := by decide +kernel

theorem test_header_mark :
    ((after (.headerMark 0 .primary) (inHand (begun (.poll 0) 0x01) .awaiting serving)).port 0).xstate = .receiving .awaiting := by
  decide +kernel

/-- R107, R118: a good STATUS is held for the scheduler. -/
theorem test_frame_received :
    let s := inHand (begun (.poll 0) 0x01) (.receiving .awaiting) serving
    let t := after (.frameReceived 0 (answer 0x81 (statusBytes 5 9 7 0 0)) .complete) s
    (t.port 0).reply = some ⟨0x81, statusBytes 5 9 7 0 0⟩ ∧ (t.port 0).counters.received = 1 := by decide +kernel

/-- R107: a frame broken off by an idle is garbled. -/
theorem test_frame_garbled :
    let s := inHand (begun (.poll 0) 0x01) (.receiving .awaiting) serving
    let t := after (.frameReceived 0 [0xB4, 0x81] .idle) s
    (t.port 0).counters.garbled = 1 ∧ (t.port 0).exchange.map (·.after) = some .attempt := by decide +kernel

/-- R75, R114: with no retry left a timeout is a miss. -/
theorem test_reply_timeout :
    let t := after (.replyTimeout 0) (inHand { begun (.poll 0) 0x01 with retries := 0 } .awaiting serving)
    (t.slot 0).misses = 1 ∧ (t.port 0).counters.timeouts = 1 := by decide +kernel

/-- R92, R93: a miss in the cycle in which the slot's old due time and backoff run out sets both anew, and they stand. -/
theorem test_reply_timeout_outlasts_expiries :
    let s := (inHand { begun (.poll 0) 0x01 with retries := 0 } .awaiting serving).modSlot 0 fun v =>
      { v with backoff := some 1, keepalive := some 1 }
    let p := s.passed Config.cycle
    let t := p.pending.foldl (fun s c => after c s) p
    p.pending = [.backoffExpiry 0, .keepaliveDue 0, .replyTimeout 0] ∧
    (t.slot 0).backoff = some (s.profileOf 0).interval ∧ (t.slot 0).keepalive = some (s.profileOf 0).interval := by
  decide +kernel

/-- R104, R109: the second attempt takes the next tag and carries REPEAT. -/
theorem test_gap_end :
    let s := (inHand { begun (.poll 0) 0x01 with after := .attempt } .gap serving).modPort 0 fun p => { p with tag := 15 }
    let t := after (.gapEnd 0) s
    (t.port 0).tx.take 6 = [0xB4, 1, 0x01, 0x2F, 0, 0] ∧ (t.port 0).tag = 0 := by decide +kernel

/-! ## Replies -/

/-- R121: held data are recorded; at H = G with the digest equal the slot is CURRENT. -/
theorem test_status :
    let t := after (.status 0) (replied (begun (.poll 0) 0x01) 0x81 (statusBytes 5 9 7 0 0) serving)
    (t.slot 0).state = .current ∧ (t.slot 0).heldH = 7 := by decide +kernel

/-- R121: another serial sends the slot to IDENTIFYING. -/
theorem test_status_other_serial :
    ((after (.status 0) (replied (begun (.poll 0) 0x01) 0x81 (statusBytes 6 9 7 0 0) serving)).slot 0).state = .identifying := by
  decide +kernel

/-- R78: a slot that knows no serial accepts the one it is told. -/
theorem test_ident :
    let s := (lined (bound .identifying up)).modSlot 0 fun v => { v with serial := 0 }
    let t := after (.ident 0) (replied (begun (.identify 0) 0x02) 0x82 (identBytes 77) s)
    (t.slot 0).serial = 77 ∧ (t.slot 0).cap.map (·.rate) = some 2 := by decide +kernel

theorem test_accept :
    let s := delivering { opened .delta [3] with phase := .opening } serving
    ((after (.accept 0) (replied (begun (.openTo 0 .blocklist) 0x10) 0x90 (List.replicate 8 0) s)).delivery 0).map (·.phase)
      = some .opened := by decide +kernel

/-- R126: STORE quarantines the slot. -/
theorem test_refuse :
    let s := delivering { opened .delta [3] with phase := .opening } serving
    let t := after (.refuse 0) (replied (begun (.openTo 0 .blocklist) 0x10) 0x91 [4] s)
    ((t.slot 0).state, (t.slot 0).reason) = (.quarantined, .store) := by decide +kernel

/-- The PAGE of page 3 is on the wire. -/
def pageOut : Exchange := { begun (.page 0) 0x11 with page := some ⟨3, false, 0x11223344, 0x11223344⟩ }

/-- R130: the ACK's CRC agrees; the page leaves the plan and the tally counts it. -/
theorem test_page_ack :
    let s := delivering { opened .delta [3] with inFlight := some 3 } serving
    let t := after (.pageAck 0) (replied pageOut 0x92 [3, 0, 0x44, 0x33, 0x22, 0x11] s)
    (t.delivery 0).map (fun d => (d.urgent, d.tallyCount, d.tallySum)) = some ([], 1, 0x11223344) := by decide +kernel

/-- R135: COMMITTED with the part's own tally records T. -/
theorem test_close_ack :
    let s := delivering { opened .delta [] with phase := .closing } serving
    let t := after (.closeAck 0) (replied (begun (.close 0) 0x13) 0x93 [1, 1, 0, 0, 0, 0, 0, 0] s)
    (t.slot 0).heldH = 7 ∧ t.delivery 0 = none ∧ (t.slot 0).state = .current := by decide +kernel

/-- R178: the second sweep in a row that ends in MISMATCH adds to the failures counted before and backs off by their count; at the
quarantine limit of the default profile, 8, the slot is QUARANTINED. The first leaves them as they are. -/
theorem test_failed_sweeps_add_up :
    let close (run k : Nat) : Slot :=
      let s := ((delivering { opened .repair [] with phase := .closing } serving).setSweep 0 ⟨64, [], run, none⟩).modSlot 0
        fun v => { v with repair := true, failures := k }
      (after (.closeAck 0) (replied (begun (.close 0) 0x13) 0x93 [1, 2, 0, 0, 0, 0, 0, 0] s)).slot 0
    (close 0 3).failures = 3 ∧ (close 0 3).state = .behind ∧ (close 1 3).failures = 4 ∧
    (close 1 3).backoff = some (4000 * Config.ms) ∧ (close 1 3).state = .behind ∧ (close 1 7).state = .quarantined ∧
    (close 1 7).reason = .failures := by decide +kernel

/-- R175: the page whose CRC differs joins the repair list. -/
theorem test_check_report :
    let s := delivering (opened .repair []) (serving.modSlot 0 fun v => { v with repair := true })
    let t := after (.checkReport 0) (replied { begun (.check 0) 0x14 with content := [0, 0, 2] } 0x94
      ([0, 0, 2] ++ leBytes 4 0 ++ leBytes 4 1) s)
    (t.sweep 0).cursor = 2 ∧ (t.sweep 0).list = [1] := by decide +kernel

/-- R93, R119: BUSY closes the slot for 100 ms. -/
theorem test_busy :
    ((after (.busy 0) (replied (begun (.poll 0) 0x01) 0x9F [] serving)).slot 0).backoff = some (100 * Config.ms) := by decide +kernel

/-! ## Reports -/

/-- R200: the count is even and rises by 2; R201: what waited for the record follows it. -/
theorem test_report_rewrite :
    let s := awaitRecords [summaryRec] (.notice .clock) (want summaryRec up)
    let t := after (.reportRewrite 0) s
    Memory.readBytes t.mem 0x3000 2 = [2, 0] ∧ t.readRegister 0x14 = 0x10 := by decide +kernel

/-- R59, R61: tests put off to the outcome of SET CLOCK activate the edition before it, and the outcome waits on. -/
theorem test_report_rewrite_makes_tests :
    let s := setTestsDue true (pendingFour { completeAfterSummary .routine ⟨1, false, 0⟩ (holds .routine 0x13 [] up) with
      clock := ⟨true, 3, 680, 0, 0, 0, false⟩ })
    let t := after (.reportRewrite 0) s
    t.editions.active.number = 4 ∧ t.editions.testsDue = false ∧ Memory.read t.mem 0x2000 = 0 ∧
    t.report.waiting = [⟨[0], .notice .edition⟩, ⟨[0], .outcome .routine ⟨1, false, 0⟩⟩] ∧
    Memory.read (after (.reportRewrite 0) t).mem 0x2000 = 3 := by decide +kernel

/-! ## Witnesses: for each statement with premises, a state and operands that meet them -/

/-- The reset pin low; a value with bit 1 set and the pin high. -/
theorem witness_PowerOnAndRestart :
    (after .resetPinLow up).resetLow = true ∧ Instr.changeItem ≠ .powerOn ∧ (2 : Word).getLsbD 1 = true ∧
    up.resetLow = false := by decide +kernel

/-- What a visit needs of the two strips. -/
def stripsApart (s : State) : Prop :=
  s.stripsApart ∧ (s.strip .priority).position < s.stripCount .priority ∧
  (s.strip .routine).position < s.stripCount .routine

/-- Every row of the table of engine states, with RUN written as 0 and as 1; the strips a resume visits. -/
theorem witness_RunRequestMovesEngine :
    (∀ s ∈ [State.reset, at' .starting, up, at' .stopping, at' .haltedResumable, at' (.faulted .memory)],
      s.resetLow = false ∧ ((s.isFaulted = true ↔ s.engine = .faulted .memory)) ∧
      (0 : Word).getLsbD 1 = false ∧ (0 : Word).getLsbD 0 = false ∧ (1 : Word).getLsbD 1 = false ∧
      (1 : Word).getLsbD 0 = true) ∧
    Memory.wf (at' .haltedResumable).mem = true ∧ stripsApart (at' .haltedResumable) := by
  unfold stripsApart State.stripsApart; decide +kernel

theorem witness_XbaseKeepsPageAligned :
    up.resetLow = false ∧ hasOwnRow 0x0C = false ∧ hasOwnRow 0x1C = false ∧ hasOwnRow 0xFFFFFFFF = false := by decide +kernel

theorem witness_EventsClearByZero :
    up.isFaulted = false ∧ (at' (.faulted .descriptor)).isFaulted = true ∧ up.resetLow = false ∧
    (2 : Word).getLsbD 1 = true := by decide +kernel

theorem witness_EvmaskGatesInterrupt :
    up.resetLow = false ∧ (3 : Word).getLsbD 1 = true ∧ { up with regs := ⟨true, 0, 0x80, 0x80⟩ }.interrupt = true := by
  decide +kernel

/-- A request of kind `k` is POSTED at the last slot of the priority strip, where the scan stands. -/
def posted (k : Byte) : State :=
  { up with
    mem := Memory.writeBytes [] 0x10C0 [1, k]
    exch := { up.exch with priority := ⟨3, .stopped⟩, scanTimer := some 0 } }

/-- FORMAT IMAGE with notify on the priority strip and nothing on the routine one, by a KICK and by the timer; nothing on either;
a part in STOPPING. -/
theorem witness_VisitTakesPostedRequest :
    let s := posted 0x82
    (s.resetLow = false ∧ s.engine = .running ∧ Memory.wf s.mem = true ∧ s.exch.scanTimer ≠ none ∧
      (s.strip .priority).scan = .stopped ∧ Memory.read s.mem (s.slotAddr .priority) = 1 ∧
      ownerOf ((Memory.read s.mem (s.slotAddr .priority + 1)).toNat % 128) ≠ none ∧
      Memory.read s.mem (s.slotAddr .routine) ≠ 1) ∧
    (up.resetLow = false ∧ up.engine = .running ∧ Memory.wf up.mem = true ∧
      ∀ t ∈ [Strip.priority, .routine], Memory.read up.mem (up.slotAddr t) ≠ 1) ∧
    (∀ u ∈ [s, up], ∀ t ∈ [Strip.priority, .routine], (u.strip t).position < u.stripCount t) ∧
    (at' .stopping).engine ≠ .running ∧ stripsApart s ∧ stripsApart up := by
  unfold stripsApart State.stripsApart; decide +kernel

/-- Kind 0x45 with notify. -/
theorem witness_UnknownKindCompletesBadKind :
    let s := posted 0xC5
    s.resetLow = false ∧ s.engine = .running ∧ Memory.wf s.mem = true ∧ (s.strip .priority).scan = .stopped ∧
    Memory.read s.mem (s.slotAddr .priority) = 1 ∧
    ownerOf ((Memory.read s.mem (s.slotAddr .priority + 1)).toNat % 128) = none ∧ stripsApart s := by
  unfold stripsApart State.stripsApart; decide +kernel

/-- STARTING with a good descriptor at XBASE, and with none. -/
theorem witness_DescriptorReadValidates :
    let good := { State.reset with engine := .starting, mem := Memory.writeBytes [] 0 descriptorBytes }
    let bad := { State.reset with engine := .starting }
    (∀ s ∈ [good, bad], s.resetLow = false ∧ s.engine = .starting ∧ s.exch.descriptor = none) ∧
    (after .descriptorRead good).engine = .starting ∧ (after .descriptorRead bad).engine = .faulted .descriptor := by
  decide +kernel

theorem witness_StartingEndEntersRunning :
    let s := at' .starting
    s.resetLow = false ∧ s.engine = .starting ∧ s.exch.descriptor ≠ none ∧ (∀ r : Fin 29, s.report.wanted[r] = false) ∧
    Memory.wf s.mem = true ∧ stripsApart s := by
  unfold stripsApart State.stripsApart; decide +kernel

/-- With RUN 0 and with RUN 1. -/
theorem witness_DrainEndsInHaltedOrRunning :
    ∀ s ∈ [at' .stopping, { at' .stopping with regs := ⟨false, 0, 0, 0⟩ }],
      s.resetLow = false ∧ s.engine = .stopping ∧ Memory.wf s.mem = true ∧ (s.strip .priority).scan = .stopped ∧
      (s.strip .routine).scan = .stopped ∧ s.change.batch = none ∧ s.change.format = none ∧ s.change.rebuild = none ∧
      s.change.purge = .empty ∧ s.editions.load = none ∧
      ∀ l : Fin 4, (s.port l).xstate = .idle ∧ (s.port l).exchange = none := by decide +kernel

/-- Every engine state with an access, and the two without; the routine strip's visit, a priority request POSTED. -/
theorem witness_MemoryErrorFaults :
    (∀ s ∈ [at' .starting, up, at' .stopping, at' .haltedResumable], s.resetLow = false ∧
      (s.engine = .starting ∨ s.engine = .running ∨ s.engine = .stopping ∨ s.engine = .haltedResumable)) ∧
    (at' (.faulted .descriptor)).isFaulted = true ∧ State.reset.engine = .haltedCold ∧
    (let s := posted 0x82
     s.engine = .running ∧ (s.strip .routine).scan = .stopped ∧ Memory.wf s.mem = true ∧ stripsApart s) := by
  unfold stripsApart State.stripsApart; decide +kernel

/-- A frame ends in FAULTED: the command answers a next state. -/
theorem witness_FaultedTouchesNoMemory :
    let s := inHand (begun (.poll 0) 0x01) .sending (lined (at' (.faulted .memory)))
    s.isFaulted = true ∧ exec (.frameSent 0) s = .next (after (.frameSent 0) s) := by
  refine ⟨by decide +kernel, rfl⟩

theorem witness_EngineMovesByTable :
    exec (.run 0) up = .next (after (.run 0) up) ∧ (after (.run 0) up).engine ≠ up.engine := by
  refine ⟨rfl, by decide +kernel⟩

/-- Both ends of the range of P, both powers of two. -/
theorem witness_HomePageComputation : 64 ≤ 64 ∧ 4096 ≤ 4096 ∧ 64 = 2 ^ 6 ∧ 4096 = 2 ^ 12 := by decide

/-- A routine request that came second waits on a priority one of its owner and on a purge job; once alone, it may be taken up.
A priority APPLY CHANGES that a rebuild looks for; a purge job queued in HALTED. -/
theorem witness_TakingUpLeavesOutputsAlone :
    let second (s : State) : State := s.setStrip .routine ⟨0, .holding ⟨1, true, []⟩ true false⟩
    let purge (s : State) : State := { s with change := { s.change with purge := .queued false } }
    (∀ s ∈ [second (holds .priority 1 [] up), second (purge up)], s.resetLow = false ∧
      (1, Instr.applyChanges .routine) ∈ takingCommands .routine ∧ ownerOf 1 = some .change ∧
      s.mayTake .routine .change 1 = false ∧ s.mayApply .routine = false) ∧
    (second up).mayTake .routine .change 1 = true ∧ (holds .priority 1 [] (purge up)).mayPurge = false ∧
    (purge up).mayPurge = true ∧
    (let s := holds .priority 1 [] { image 7 up with change := { (image 7 up).change with
        rebuild := some { rebuild65 with look := true } } }
     s.mayTake .priority .change 1 = false ∧ s.mayApply .priority = true) ∧
    (let s := image 7 (at' .haltedResumable)
     s.change.pages ≠ 0 ∧ s.change.purge = .empty ∧ s.working = false ∧
     (queuePurge s).change.purge = .queued false) := by decide +kernel

/-- What APPLY CHANGES asks of the state. -/
def applies (t : Strip) (s : State) : Bool :=
  !s.resetLow && s.mayApply t && decide ((s.strip t).position < s.stripCount t) && Memory.wf s.mem

/-- BAD_PARAM, no image, SPENT, 4096 items accepted at the end of the address space, and a rebuild that gives way. -/
theorem witness_ApplyChangesTakenUp :
    let ask (n list : Nat) (s : State) : State := holds .priority 1 (leBytes 4 list ++ leBytes 2 n) s
    (∀ s ∈ [ask 0 0x30000 (image 7 up), ask 4097 0x30000 (image 7 up), ask 1 0x30008 (image 7 up),
        ask 4096 0xFFFF0010 (image 7 up), ask 1 0x30000 up, ask 1 0x30000 (image 0xFFFFFF00 up),
        ask 4096 0xFFFF0000 (image 7 up),
        ask 1 0x30000 { image 7 up with change := { (image 7 up).change with rebuild := some { rebuild65 with look := true } } }],
        applies .priority s = true) ∧
    2 ^ 32 < 0xFFFF0010 + 16 * 4096 ∧ ¬ 2 ^ 32 < 0xFFFF0000 + 16 * 4096 := by decide +kernel

/-- A batch of an item runs. -/
def itemDue (s : State) (b : Batch) : Prop :=
  s.resetLow = false ∧ s.working = true ∧ Memory.wf s.mem = true ∧ s.change.batch = some b ∧ b.next < b.count ∧
  (s.strip b.strip).position < s.stripCount b.strip

/-- The batch of one item. -/
def batch1 : Batch := ⟨.priority, 0x30000, 1, 0, 0, false, []⟩

/-- A bad item, one expired on day 2, a key absent, a full window, an entry that is there already. -/
theorem witness_ItemWithoutChange :
    let full (s : State) : State := { s with change := { s.change with table := List.replicate 64 ⟨1, 0, 0, 20⟩ } }
    let day2 (s : State) : State := { s with clock := ⟨true, 2, 0, 0, 0, 0, false⟩ }
    let there (s : State) : State :=
      { s with
        mem := Memory.writeBytes s.mem (0x100000 + 256 * 63 + 16) (entryBytes ⟨0xFC001234, 1, 5, 0⟩)
        change := { s.change with table := s.change.table.set 63 ⟨1, 0, 0, 1⟩ } }
    ∀ x ∈ [(batching (itemBytes 5 1 1 64 0) (image 7 up), (8 : Byte)),
        (day2 (batching (itemBytes 5 1 1 63 1) (image 7 up)), 7), (batching (itemBytes 5 2 0 0 0) (image 7 up), 5),
        (full (batching (itemBytes 5 1 1 5 0) (image 7 up)), 6),
        (there (batching (itemBytes 0xFC001234 1 1 5 0) (image 7 up)), 3)],
      itemDue x.1 batch1 ∧ (x.1.strip batch1.strip).scan = .holding ⟨1, true, []⟩ true true ∧ batch1.anyFull = false ∧
      batch1.next + 1 = batch1.count ∧ Memory.read (after .changeItem x.1).mem (0x30000 + 11) = x.2 := by
  unfold itemDue; decide +kernel

/-- An entry of page 63. -/
def withEntry (s : State) : State :=
  { s with
    mem := Memory.writeBytes s.mem (0x100000 + 256 * 63 + 16) (entryBytes ⟨0xFC001234, 1, 5, 0⟩)
    change := { s.change with table := s.change.table.set 63 ⟨1, 0, 0, 1⟩ } }

/-- R8, R147: a PAGE goes with the page CRC of the stamp table, whatever the region's CRC field holds. -/
theorem test_page_crc_of_stamp_table :
    let s := withEntry (image 7 up)
    let s := { s with change := { s.change with table := s.change.table.set 63 ⟨1, 0, 77, 1⟩ } }
    (s.blockPage 63).map (·.2.2) = some ⟨63, false, 77, 77⟩ := by decide +kernel

/-- ADDED into page 63, UPDATED and REMOVED there, each with the page that results. -/
theorem witness_ItemChangesOnePage :
    ∀ x ∈ [(batching (itemBytes 0xFC001234 1 1 5 0) (image 7 up), (1 : Byte), insertEntry ⟨0xFC001234, 1, 5, 0⟩ []),
        (withEntry (batching (itemBytes 0xFC001234 1 2 5 0) (image 7 up)), 2, [⟨0xFC001234, 2, 5, 0⟩]),
        (withEntry (batching (itemBytes 0xFC001234 2 0 0 0) (image 7 up)), 4, [])],
      let s := x.1
      let i := parseItem (Memory.readBytes s.mem 0x30000 16)
      itemDue s batch1 ∧ i.bad = false ∧ i.isExpired s.serviceDay? = false ∧ 63 < s.change.table.length ∧
      liveCount s.change.table 63 ≤ 20 ∧ s.change.rebuild = none ∧ 0x30000 + 11 < 0x100000 + 256 * 63 ∧
      Memory.read (after .changeItem s).mem (0x30000 + 11) = x.2.1 ∧
      readEntries (after .changeItem s).mem 0x100000 63 x.2.2.length = x.2.2 := by
  unfold itemDue; decide +kernel

/-- A rebuild to 65 pages has copied page 63, its new image as `table` counts it. -/
def mirroring (table : List WorkRec) (phase : Phase) (s : State) : State :=
  { s with change := { s.change with
      copyCursor := 64, rebuild := some { rebuild65 with phase := phase, finished := 65, table := table } } }

/-- The same ADD while a rebuild has copied page 63: into an empty new image, being copied and finished, and into a full
one. -/
theorem witness_ItemMirrored :
    let some' := List.replicate 65 ⟨0, 0, false⟩
    let full := List.replicate 65 ⟨20, 0, false⟩
    ∀ x ∈ [(some', Phase.copying), (some', .finishing), (full, .copying)],
      let s := mirroring x.1 x.2 (batching (itemBytes 0xFC001234 1 1 5 0) (image 7 up))
      let r := { rebuild65 with phase := x.2, finished := 65, table := x.1 }
      itemDue s batch1 ∧ s.change.rebuild = some r ∧ 63 < s.change.copyCursor ∧ r.table.length = r.pages ∧
      (∀ w ∈ r.table, w.live ≤ 20) ∧ 0x100000 + 256 * 63 + 256 ≤ s.imageBase s.change.region.other ∧
      0x30000 + 11 < s.imageBase s.change.region.other ∧
      ((after .changeItem s).change.rebuild.map fun r => (workCount r.table 63, r.unplaced))
        = some (if x.1 = full then (20, 1) else (1, 0)) := by
  unfold itemDue; decide +kernel

/-- A routine batch with a FULL item; a priority batch during a DELTA and during a CLOSING one, with a ROUTINE group
and a held CHECK REPORT. -/
theorem witness_BatchEndStampsChangedPages :
    let b (t : Strip) : Batch := ⟨t, 0x30000, 1, 1, 1, true, [0, 63]⟩
    let run (t : Strip) (s : State) : State := { s with change := { s.change with batch := some (b t) } }
    let g : Group := ⟨0, 0, .routine, [0], [], some 7, true, [0, 5], none, 0⟩
    let d := opened .delta [5]
    let u := ((delivering d (bound .behind (image 7 up))).setGroups [g]).setSweep 0 ⟨0, [], 0, some ⟨0, [0, 1]⟩⟩
    (∀ x ∈ [(Strip.routine, image 7 up), (.priority, u), (.priority, delivering { d with phase := .closing } u)],
      let s := run x.1 x.2
      s.resetLow = false ∧ s.working = true ∧ Memory.wf s.mem = true ∧ s.change.batch = some (b x.1) ∧
      (b x.1).next = (b x.1).count ∧ (b x.1).changed ≠ [] ∧ (∀ p ∈ (b x.1).changed, p < s.change.table.length) ∧
      s.change.table.length ≤ 4096 ∧ s.change.gen < Config.spentG ∧ (∀ l, s.portReady l = false) ∧ s.heldOk) ∧
    d.mode = .delta ∧ d.phase ≠ .closing ∧ d.urgent.Pairwise (· < ·) := by
  unfold State.heldOk; decide +kernel

/-- What taking a request up asks of the state, as a Boolean. -/
def mayBeTaken (s : State) (t : Strip) (o : Owner) (k : Nat) : Bool :=
  !s.resetLow && s.mayTake t o k && decide ((s.strip t).position < s.stripCount t) && Memory.wf s.mem

/-- It is what the statements ask. -/
theorem canTake_of_mayBeTaken {s : State} {t : Strip} {o : Owner} {k : Nat} (h : mayBeTaken s t o k = true) :
    s.canTake t o k := by
  simp only [mayBeTaken, Bool.and_eq_true, Bool.not_eq_true', decide_eq_true_eq] at h
  exact ⟨h.1.1.1, h.1.1.2, h.1.2, h.2⟩

/-- A strip's request of a kind, as `holds` has it. -/
def asked (o : Owner) (k : Nat) (params : List Byte) (s : State) : Bool :=
  mayBeTaken (holds .routine k params s) .routine o k

/-- P of 63 and 4097, the identity in use, the identity 0, and P of 64 and 4096 accepted. -/
theorem witness_FormatImageTakenUp :
    ∀ x ∈ [(63, 5), (4097, 5), (64, 9), (64, 0), (64, 5), (4096, 5)],
      asked .change Kind.formatImage (leBytes 2 x.1 ++ leBytes 4 3 ++ leBytes 4 x.2) (image 7 up) = true := by decide +kernel

/-- A CURRENT slot holds another identity. -/
theorem witness_FormatSwitchGoesLive :
    let f : Format := ⟨.routine, .b, 64, 3, 5, List.replicate 64 ⟨1, 0, 2, 0⟩⟩
    let u := bound .current (image 7 up)
    let s := { u with change := { u.change with format := some f } }
    s.resetLow = false ∧ s.working = true ∧ s.change.format = some f ∧ (s.slot 0).state = .current ∧
    (s.slot 0).heldId ≠ f.identity := by decide +kernel

/-- P of 63 and 4097 and identity 0, no image, the identity in use, and P of 64 and 4096 accepted. -/
theorem witness_RebuildImageTakenUp :
    (∀ x ∈ [(63, 5), (4097, 5), (64, 0), (64, 9), (64, 5), (4096, 5)],
      asked .change Kind.rebuildImage (leBytes 2 x.1 ++ leBytes 4 3 ++ leBytes 4 x.2) (image 7 up) = true) ∧
    asked .change Kind.rebuildImage (leBytes 2 64 ++ leBytes 4 3 ++ leBytes 4 5) up = true := by decide +kernel

/-- A rebuild runs. -/
def rebuilding (r : Rebuild) : State := { image 7 up with change := { (image 7 up).change with rebuild := some r } }

/-- The first and the last clearing slice; a copy slice that is not the last, the last one, and one with an entry that found
no room; a finishing slice that is not the last, one that swaps, one that fails. -/
theorem witness_RebuildSliceKeepsLiveImage :
    let more (s : State) : State := { s with change := { s.change with
      pages := 65, table := List.replicate 65 ⟨1, 0, 0, 0⟩ } }
    let copies := { rebuild65 with phase := Phase.copying, cleared := 65 }
    let ends := { rebuild65 with phase := Phase.finishing, cleared := 65 }
    ∀ x ∈ [(rebuilding rebuild65, rebuild65, some Phase.clearing),
        (rebuilding { rebuild65 with cleared := 64 }, { rebuild65 with cleared := 64 }, some .copying),
        (more (rebuilding copies), copies, some .copying), (withEntry (rebuilding copies), copies, some .finishing),
        (rebuilding { copies with unplaced := 2 }, { copies with unplaced := 2 }, none),
        (rebuilding ends, ends, some .finishing),
        (rebuilding { ends with finished := 64 }, { ends with finished := 64 }, none),
        (rebuilding { ends with finished := 64, unplaced := 2 }, { ends with finished := 64, unplaced := 2 }, none)],
      let s := x.1
      s.resetLow = false ∧ s.change.rebuild = some x.2.1 ∧ s.sliceReady = true ∧ Memory.wf s.mem = true ∧
      64 ≤ x.2.1.pages ∧ x.2.1.pages ≤ 4096 ∧ x.2.1.table.length = x.2.1.pages ∧
      (x.2.1.phase = .copying → s.change.copyCursor < s.change.pages ∧
        s.imageBase s.change.region + 256 * s.change.pages ≤ s.imageBase s.change.region.other ∧
        (∀ w ∈ x.2.1.table, w.live ≤ 20) ∧ (∀ r ∈ s.change.table, r.live ≤ 20) ∧
        s.change.table.length ≤ s.change.pages) ∧
      (after .rebuildSlice s).change.rebuild.map (·.phase) = x.2.2 := by decide +kernel

/-- The slice that swaps, with a CURRENT slot of the old identity and its blocklist delivery open. -/
theorem witness_SwapIsFollowed :
    let r := { rebuild65 with phase := Phase.finishing, cleared := 65, finished := 64 }
    let s := delivering (opened .delta [3]) ((rebuilding r).setSlot 0 ((bound .current up).slot 0))
    let t := after .rebuildSlice s
    s.resetLow = false ∧ s.change.rebuild = some r ∧ s.sliceReady = true ∧ Memory.wf s.mem = true ∧
    (s.slot 0).state = .current ∧ (s.slot 0).heldId ≠ r.identity ∧ (s.delivery 0).isSome = true ∧
    t.change.identity = r.identity ∧ (t.slot 0).state = .behind ∧ t.delivery 0 = none := by decide +kernel

/-- A purge job waits. -/
def purging (s : State) : State := { s with change := { s.change with purge := .queued true } }

theorem witness_PurgeJobSkippedAtLimit :
    let s := purging (image 0xFFFFFF00 up)
    s.resetLow = false ∧ s.mayPurge = true ∧ s.change.gen = 4294967040 ∧
    (image 7 up).change.pages ≠ 0 ∧ (image 7 up).change.purge = .empty := by decide +kernel

/-- An image with an entry that expired on day 1, on day 2 and on day 1; a CURRENT slot with a held CHECK REPORT. -/
theorem witness_PurgeJobRemovesExpired :
    let day (d : Nat) : State :=
      let s := (purging (withEntry (bound .current (image 7 up)))).setSweep 0 ⟨0, [], 0, some ⟨0, [0, 1]⟩⟩
      { s with
        mem := Memory.writeBytes s.mem (0x100000 + 256 * 63 + 26) [1]
        clock := ⟨true, d, 0, 0, 0, 0, false⟩ }
    (∀ s ∈ [day 1, day 2], s.resetLow = false ∧ s.mayPurge = true ∧ s.change.gen < 4294967040 ∧ Memory.wf s.mem = true ∧
      s.change.table.length = s.change.pages ∧ s.change.pages ≤ 4096 ∧ (∀ r ∈ s.change.table, r.live ≤ 20) ∧
      (∀ l, s.portReady l = false) ∧ s.heldOk) ∧
    liveCount (after .purgeJob (day 1)).change.table 63 = 1 ∧ liveCount (after .purgeJob (day 2)).change.table 63 = 0 := by
  unfold State.heldOk; decide +kernel

/-- WRONG_STATE, counts of 0 and 961, an unaligned list, 960 records accepted at the end of the address space; with no
edition pending and with one. -/
theorem witness_LoadEditionTakenUp :
    ∀ s ∈ [up, pendingFour up], ∀ x ∈ [(0x30000, 1, 0), (0x30000, 0, 5), (0x30000, 961, 5), (0x30008, 1, 5),
        (0xFFFFC400, 960, 5), (0xFFFFC410, 960, 5)],
      asked .edition Kind.loadEdition (leBytes 4 x.1 ++ leBytes 2 x.2.1 ++ leBytes 2 x.2.2 ++ leBytes 4 9) s = true := by
  decide +kernel

/-- The first record, refused and stored; the last of a page; the last of the load, with the clock unset and set. -/
theorem witness_ProductRecordRead :
    let good := leBytes 2 1 ++ [0, 0] ++ leBytes 4 100 ++ leBytes 4 250 ++ leBytes 2 0 ++ leBytes 2 9
    let at14 (s : State) (n : Nat) : State := { s with
      mem := Memory.writeBytes s.mem (0x30000 + 16 * 14) good
      editions := { s.editions with load := some ⟨.routine, 0x30000, n, 14, 0, 0⟩ } }
    ∀ x ∈ [(loading (List.replicate 16 0), (⟨.routine, 0x30000, 2, 0, 0, 0⟩ : Load)),
        (loading good, ⟨.routine, 0x30000, 2, 0, 0, 0⟩), (at14 (loading good) 16, ⟨.routine, 0x30000, 16, 14, 0, 0⟩),
        (at14 (loading good) 15, ⟨.routine, 0x30000, 15, 14, 0, 0⟩),
        ({ at14 (loading good) 15 with clock := ⟨true, 1, 0, 0, 0, 0, false⟩ }, ⟨.routine, 0x30000, 15, 14, 0, 0⟩)],
      x.1.resetLow = false ∧ x.1.working = true ∧ Memory.wf x.1.mem = true ∧ x.1.editions.load = some x.2 := by
  decide +kernel

/-- Another number and the pending one, with the clock unset, and the minute 11 ahead. -/
theorem witness_RescheduleAndWithdraw :
    (∀ k ∈ [3, 4], asked .edition Kind.rescheduleEdition (leBytes 2 k ++ leBytes 4 6000) (pendingFour up) = true ∧
      asked .edition Kind.withdrawEdition (leBytes 2 k) (pendingFour up) = true) ∧
    asked .edition Kind.rescheduleEdition (leBytes 2 4 ++ leBytes 4 1451)
      (pendingFour { up with clock := ⟨true, 1, 0, 0, 0, 0, false⟩ }) = true ∧
    (⟨true, 1, 0, 0, 0, 0, false⟩ : Clock).absolute + 10 < 1451 := by decide +kernel

/-- Minute and day start of 1440 and of 1439; the first setting, and one that moves the service day on. -/
theorem witness_SetClockTakesTime :
    ∀ s ∈ [lined (image 7 up), { image 7 up with clock := ⟨true, 1, 0, 0, 0, 0, false⟩ }],
      ∀ x ∈ [(1440, 0), (0, 1440), (1439, 1439)],
        asked .edition Kind.setClock (leBytes 2 2 ++ leBytes 2 x.1 ++ leBytes 2 x.2) s = true := by decide +kernel

/-- No edition-manager job runs with no load and nothing waiting for a record. -/
theorem not_busy_of_nothing_waiting {s : State} (h : s.editions.load = none) (w : s.report.waiting = []) :
    ¬ s.busyWith .edition := by
  rintro (h' | ⟨v, hv, -⟩)
  · exact h' h
  · simp [w] at hv

/-- SET CLOCK's outcome waits for the summary record on day 3, edition 4 pending for minute 680. -/
def handingOver (minute : Nat) : State :=
  pendingFour { completeAfterSummary .routine ⟨1, false, 0⟩ (holds .routine 0x13 [] (lined (bound .behind up))) with
    clock := ⟨true, 3, minute, 59, 0, 0, false⟩ }

/-- The tests of a tick put off to that outcome: an activation due, a warning due, neither. -/
theorem witness_MinuteTickDuringJob :
    (∀ m, (handingOver m).busyWith .edition) ∧ (loading []).busyWith .edition ∧
    (∀ m ∈ [679, 670, 600], (handingOver m).resetLow = false ∧ (handingOver m).working = true ∧
      (let s := after .minuteTick (handingOver m)
       s.resetLow = false ∧ s.working = true ∧ Memory.wf s.mem = true ∧ s.report.wanted[summaryRec] = true ∧
       s.editions.testsDue = true ∧ s.report.waiting = [⟨[summaryRec], .outcome .routine ⟨1, false, 0⟩⟩] ∧
       (s.strip .routine).kind = some 0x13 ∧ (s.strip .routine).position < s.stripCount .routine ∧
       (s.activationDue = true ↔ m = 679) ∧ ((s.riskWindow && allSlots.any s.lacks) = true ↔ m = 670))) := by
  refine ⟨fun m => Or.inr ⟨⟨[summaryRec], .outcome .routine ⟨1, false, 0⟩⟩, List.mem_singleton.mpr rfl, .routine, ⟨1, false, 0⟩, _, true, true,
    rfl, rfl, by decide⟩, Or.inl (by decide), ?_⟩
  decide +kernel

/-- The clock unset, at its end running and stopped, at midnight's eve, and within a day; no job running. -/
theorem witness_MinuteTickMovesClock :
    ∀ c ∈ [Clock.cold, ⟨true, 65535, 1439, 59, 0, 0, false⟩, ⟨true, 65535, 1439, 59, 0, 0, true⟩,
        ⟨true, 3, 1439, 59, 0, 0, false⟩, ⟨true, 65535, 1438, 59, 0, 0, false⟩],
      (let s := { lined (image 7 up) with clock := c }
       s.resetLow = false ∧ s.isFaulted = false ∧ s.working = true ∧ s.editions.load = none ∧ s.report.waiting = []) := by
  decide +kernel

/-- A STAGE group of slot 0, its OPEN answered, page 0 planned. -/
def stageGroup (toOpen : List (Fin 24)) : Group := ⟨4, 0, .stage, [0], toOpen, none, true, [0], none, 0⟩

/-- With a STAGE delivery open, alone in its group, and in its turn. -/
theorem witness_ActivationAtMinuteTick :
    let d := { opened .stage [0] with edition := ⟨4, 0⟩ }
    let w := (delivering d (inHand (begun (.poll 0) 0x01) .awaiting (lined (bound .behind up)))).setGroups [stageGroup []]
    let u := w.modArbiter 0 fun a => { a with turn := some ⟨.stage, .slot 0, 3⟩ }
    let s := pendingFour { u with clock := ⟨true, 3, 679, 59, 0, 0, false⟩ }
    s.delivery 0 = some d ∧ s.sched.groups = [stageGroup []] ∧ (∀ l, s.portReady l = false) ∧ s.resetLow = false ∧ s.working = true ∧
    s.editions.load = none ∧ s.report.waiting = [] ∧ s.clock.isSet = true ∧ ¬ (s.clock.day = 65535 ∧ s.clock.minute = 1439) ∧
    s.editions.pending.state = .pending ∧ s.clock.minute ≤ 1439 ∧
    s.editions.pending.effective.toNat = s.clock.day * 1440 + s.clock.minute + 1 ∧
    (s.arbiter 0).turn = some ⟨.stage, .slot 0, 3⟩ ∧ ((after .minuteTick s).arbiter 0).turn = none := by decide +kernel

/-- Slot 24, line 4, drop addresses 0 and 31; a binding another slot has; drop addresses 1 and 30. -/
theorem witness_PinSlotBinds :
    ∀ x ∈ [[24, 0, 1], [0, 4, 1], [0, 0, 0], [0, 0, 31], [23, 0, 1], [0, 0, 1], [23, 3, (30 : Byte)]],
      asked .atOnce Kind.pinSlot (x ++ leBytes 8 0 ++ [0]) serving = true := by decide +kernel

/-- Slots 24, 23 and 0, the last in service and QUARANTINED. -/
theorem witness_FreeReleaseResync :
    ∀ n ∈ [24, 23, (0 : Byte)], ∀ s ∈ [serving, bound .quarantined up],
      asked .atOnce Kind.freeSlot [n] s = true ∧ asked .atOnce Kind.releaseSlot [n] s = true ∧
      asked .atOnce Kind.resyncSlot [n] s = true := by decide +kernel

/-- Slots 0 and 23 and line 3; no bit set. -/
theorem witness_ClearCountersByMask :
    asked .atOnce Kind.clearCounters (leBytes 4 0x800001 ++ [8]) up = true ∧
    asked .atOnce Kind.clearCounters [] up = true := by decide +kernel

theorem witness_TimersFallDue :
    let s := (lined (bound .identifying up)).modSlot 0 fun v => { v with identify := some 1 }
    let t := s.modPort 3 fun p => { p with recordTimer := some 1 }
    s.resetLow = false ∧ s.engine = .running ∧ s.lineOf 0 = some 0 ∧ s.lineOn 0 = true ∧ (s.slot 0).keepalive ≠ none ∧
    (s.slot 0).state = .identifying ∧ (s.slot 0).identify ≠ none ∧ t.working = true ∧ (t.port 3).recordTimer ≠ none := by
  decide +kernel

/-- Profile 4, rate code 7 and write mode 2; every field below its range, and above it. -/
theorem witness_SetProfileStoresClamped :
    (2 : Word).getLsbD 1 = true ∧
    ∀ x ∈ [[4, 0, 1, 2, 0, 1, 1, 1, 0, 0], [0, 7, 1, 2, 0, 1, 1, 1, 0, 0], [0, 0, 1, 2, 0, 1, 1, 1, 2, 0],
        [0, 0, 0, 1, 0, 0, 0, 0, 0, 0], [3, 6, 255, 33, 4, 16, 241, 16, 1, (1 : Byte)]],
      asked .atOnce Kind.setProfile x serving = true ∧ serving.lineOf 0 = some 0 ∧ (serving.port 0).profile = 0 := by
  decide +kernel

/-- Line 4, mode 3, profile 4, a pair at an odd line; OFF, SINGLE and PAIR, with a clash list and with the slot QUARANTINED;
equal bindings on both lines, and a slot that a new pair binds anew; the odd line OFF while the split takes a frame from it. -/
theorem witness_SetLineRecordsMode :
    (∀ s ∈ [serving, (lined (bound .quarantined up)).modLineRoster 0 fun r => { r with clash := [1] }],
      ∀ x ∈ [[4, 1, 0], [0, 3, 0], [0, 1, 4], [1, 2, 0], [0, 0, 3], [3, 1, 3], [0, 2, (0 : Byte)]],
        asked .atOnce Kind.setLine x s = true) ∧
    (∀ d ∈ [1, 2], asked .atOnce Kind.setLine [0, 2, 0] (serving.setSlot 5 { Slot.cold with binding := some (1, d) }) = true) ∧
    ∀ o ∈ [From.awaiting, .idle, .gap], asked .atOnce Kind.setLine [1, 0, 0] (splitting o) = true ∧
      (splitting o).paired 1 = false ∧ (splitting o).looped 0 = true ∧ ((splitting o).port 0).xstate = .receiving o ∧
      ((splitting o).port 0).rxSide = .secondary := by
  decide +kernel

/-- A line comes on, a pair comes into force, and one accepted again while its split waited starts. -/
theorem witness_LineModeTakesEffect :
    let one := up.modPort 3 fun p => { p with mode := .single }
    let two := (up.modPort 0 fun p => { p with mode := .pairPrimary }).modPort 1 fun p => { p with mode := .pairSecondary }
    let again := (pairUp up).modPort 0 fun p => { p with forming := true, broken := true }
    again.looped 0 = true ∧ (again.port 0).forming = true ∧ ((after (.lineModeChangeApplied 1) again).port 0).broken = false ∧
    ∀ x ∈ [(one, (3 : Fin 4)), (two, 1), (again, 1)], x.1.resetLow = false ∧ x.1.working = true ∧
      ((x.1.port x.2).applied ≠ (x.1.port x.2).mode ∨ (x.1.port (evenLine x.2)).forming = true) ∧
      ∀ k ∈ x.1.modeLines x.2, (x.1.port k).xstate = .idle ∧ (x.1.port k).exchange = none := by decide +kernel

/-- A POLL is ready, on a line idle long enough and not; the CLOSE of a delivery not there has no frame. -/
theorem witness_FrameStartDrivesRequest :
    ∀ x ∈ [(Work.poll 0, true), (Work.close 0, false)], ∀ u ∈ [serving, serving.modPort 0 fun p => { p with idleTime := 0 }],
      let s := inHand (handed x.1) .idle u
      s.resetLow = false ∧ s.working = true ∧ (s.port 0).xstate = .idle ∧ (s.port 0).exchange = some (handed x.1) ∧
      (handed x.1).started = false ∧ (s.requestFrame 0 x.1).isSome = x.2 ∧
      (∀ a ∈ (s.requestFrame 0 x.1).map (·.addr), a < 32) := by decide +kernel

/-- Edition 3 is active. -/
def activeThree (s : State) : State :=
  { s with editions := { s.editions with active := { s.editions.active with present := true, number := 3, total := 1 } } }

/-- Slot 0 holds an edition as pending and complete, its validator of level 2. -/
def holding (number : BitVec 16) (s : State) : State := s.modSlot 0 fun v =>
  { v with heldPending := some ⟨⟨number, 0⟩, true, 1⟩, cap := some ⟨7, 4096, 128, 0, 2⟩ }

/-- Every request of slot 0 with the code of its frame: each meets what the statement asks for its content. -/
theorem witness_RequestContents :
    let behind := lined (bound .behind (image 8 up))
    let mends (s : State) : State := s.modSlot 0 fun v => { v with repair := true }
    let drops (s : State) : State := s.modSlot 0 fun v => { v with heldId := 1 }
    let changing (s : State) : State := { s with change := { s.change with changing := true } }
    let stage := { opened .stage [] with edition := ⟨4, 0⟩ }
    ∀ x ∈ [(lined (bound .identifying up), Work.identify 0, (2 : Byte), 0), (drops behind, .openTo 0 .blocklist, 0x10, 21),
        (behind, .openTo 0 .blocklist, 0x10, 21), (holding 3 (mends serving), .openTo 0 .repair, 0x10, 21),
        (mends serving, .openTo 0 .repair, 0x10, 21), (pendingFour serving, .openTo 0 .stage, 0x10, 14),
        (activeThree serving, .openTo 0 .install, 0x10, 14), (delivering (opened .delta []) serving, .close 0, 0x13, 16),
        (delivering (opened .delta []) (changing serving), .close 0, 0x13, 16), (delivering stage serving, .close 0, 0x13, 16),
        (delivering { stage with mode := .install } serving, .close 0, 0x13, 16),
        (delivering (opened .repair []) serving, .check 0, 0x14, 3), (holding 3 (activeThree serving), .activate 0, 0x20, 2),
        (holding 5 (pendingFour serving), .discard 0, 0x21, 2), (serving, .time, 0x22, 4), (serving, .discovery, 0x02, 0),
        (behind.setGroups [⟨4, 0, .routine, [0, 1], [0, 1], none, false, [], none, 0⟩], .openTo 0 .blocklist, 0x10, 21),
        (serving.modArbiter 0 fun a => { a with activateDue := some 3 }, .activateAll, 0x20, 2)],
      (x.1.slot 0).binding = some (0, 1) ∧
      (x.1.requestFrame 0 x.2.1).map (fun f => (f.code, f.content.length)) = some x.2.2 := by decide +kernel

/-- A STAGE OPEN with a DISCARD due; a discovery visit at drop address 2, address 1 being bound, and with every address
clashed. -/
theorem witness_RequestsWithoutFrame :
    (holding 5 (pendingFour serving)).needsDiscard 0 ∧
    (holding 5 (pendingFour serving)).requestFrame 0 (.openTo 0 .stage) = none ∧ serving.visits 0 2 ∧
    ∀ b, ¬ ((lined up).modLineRoster 0 fun r => { r with clash := List.range' 1 30 }).visits 0 b := by
  refine ⟨⟨_, rfl, by decide, by decide⟩, by decide +kernel, ⟨1, by decide, by decide, by decide +kernel, by decide +kernel⟩,
    ?_⟩
  rintro b ⟨i, -, rfl, hp, -⟩
  have h (k : Nat) : k % 30 + 1 ∈ List.range' 1 30 := by rw [List.mem_range'_1]; omega
  exact hp (Or.inl (h _))

/-- The next page of a DELTA, a VOID and with an entry; of a REPAIR; of a STAGE. -/
theorem witness_PageFrameCarriesPage :
    let stage := { opened .stage [] with rest := [0], total := 1 }
    ∀ x ∈ [(serving, opened .delta [63]), (withEntry serving, opened .delta [63]),
        (serving.setSweep 0 ⟨3, [63], 0, none⟩, opened .repair []), (pendingFour serving, { stage with urgent := [63] })],
      let s := inHand (handed (.page 0)) .idle (delivering x.2 x.1)
      s.resetLow = false ∧ s.working = true ∧ (s.port 0).xstate = .idle ∧ (s.port 0).exchange = some (handed (.page 0)) ∧
      s.lineOf 0 = some 0 ∧ s.delivery 0 = some x.2 ∧ x.2.phase = .opened ∧ s.change.changing = false ∧
      (if x.2.mode = .repair then (s.sweep 0).list else x.2.urgent ++ x.2.rest).head? = some 63 ∧
      2 * (10 * Config.second / baud (s.slot 0).served) ≤ (s.port 0).idleTime := by decide +kernel

/-- The next page of a group: of a blocklist, a VOID and with an entry; of a STAGE. -/
theorem witness_GroupPageFrame :
    let group : Group := ⟨4, 0, .routine, [0], [], some 7, true, [63], none, 0⟩
    let stage := { opened .stage [] with edition := ⟨4, 0⟩ }
    ∀ x ∈ [(serving, opened .delta [], group), (withEntry serving, opened .delta [], group),
        (pendingFour serving, stage, { group with cls := .stage })],
      let s := inHand (handed (.groupPage 4)) .idle ((delivering x.2.1 x.1).setGroups [x.2.2])
      s.resetLow = false ∧ s.working = true ∧ (s.port 0).xstate = .idle ∧
      (s.port 0).exchange = some (handed (.groupPage 4)) ∧ s.group 4 = some x.2.2 ∧ x.2.2.plan.head? = some 63 ∧
      s.delivery 0 = some x.2.1 ∧ s.change.changing = false ∧ (∀ m, s.portReady m = false) ∧
      2 * (10 * Config.second / baud x.2.2.rate) ≤ (s.port 0).idleTime := by decide +kernel

/-- A POLL, a PAGE with NO REPLY, a group page, its second copy, and a frame that ends in FAULTED or on a line gone OFF. -/
theorem witness_FrameSentAwaitsOrEnds :
    let page := { pageOut with noReply := true }
    let group := { page with work := .groupPage 0, members := [0] }
    let off (s : State) : State := s.modPort 0 fun p => { p with mode := .off }
    ∀ x ∈ [(serving, begun (.poll 0) 0x01), (serving, page), (serving, group),
        (pairUp serving, { group with twice := true }), (pairUp serving, { group with twice := true, repeated := true }),
        (off serving, group), (serving.modSlot 0 fun v => { v with unconfirmed := true }, { begun .activateAll 0x20 with noReply := true }),
        (lined (bound .behind (at' (.faulted .memory))), begun (.poll 0) 0x01)],
      let g : Group := ⟨0, 0, .routine, [0], [], some 7, true, [3, 5], some 3, 0⟩
      let s := inHand x.2 .sending ((delivering (opened .delta [3]) x.1).setGroups [g])
      s.resetLow = false ∧ (s.port 0).xstate = .sending ∧ (s.port 0).exchange = some x.2 ∧ s.group 0 = some g ∧
      (g.inFlight = x.2.page.map (·.page) ∨ x.2.page = none) ∧ x.2.members.Nodup ∧ (∀ m, s.portReady m = false) ∧
      ∀ m : Fin 24, x.2.work.slot = some m → s.lineOf m = some 0 := by decide +kernel

/-- INTACT and BROKEN, the runs at 0 and 1; the copy right, and late. -/
theorem witness_EchoMovesLoopState :
    ∀ b ∈ [false, true], ∀ k ∈ [0, 1],
      let s := (pairUp up).modPort 0 fun p => { p with echoDue := true, broken := b, missRun := k, goodRun := k, tx := [0xB4] }
      s.resetLow = false ∧ s.working = true ∧ (s.port 0).echoDue = true ∧ s.looped 0 = true ∧ (s.port 0).tx = [0xB4] := by
  decide +kernel

/-- A mark in IDLE, AWAITING and the gap; a frame taken from IDLE, garbled, from a validator and not. -/
theorem witness_FrameWithNoExchangeAwaiting :
    (∀ x ∈ [(XState.idle, From.idle), (.awaiting, .awaiting), (.gap, .gap)],
      let s := inHand (begun (.poll 0) 0x01) x.1 serving
      s.resetLow = false ∧ s.hears 0 .primary = true ∧ s.readSide 0 = .primary ∧ (s.port 0).xstate.origin = some x.2 ∧
      (begun (.poll 0) 0x01).work.slot = some 0 ∧ s.lineOf 0 = some 0) ∧
    (∀ o ∈ [From.idle, .gap],
      let s := serving.modPort 0 fun p => { p with xstate := .receiving o }
      s.resetLow = false ∧ s.hears 0 (s.port 0).rxSide = true ∧ (s.port 0).xstate = .receiving o ∧ o ≠ .awaiting) ∧
    frameIntact (answer 0x9F []) .complete = true ∧ frameIntact [0xB4] .complete = false ∧
    (let s := (splitting .gap).modPort 1 fun p => { p with applied := .off }
     s.resetLow = false ∧ s.hears 0 (s.port 0).rxSide = false) := by decide +kernel

/-- A good fit reply, a good unfit one, a stale frame and a garbled one, with a retry left and with none; slot 1 suspect at
drop address 2. -/
theorem witness_AwaitedFrameJudged :
    ∀ k ∈ [0, 1], ∀ x ∈ [SlotState.silent, .identifying, .behind, .quarantined],
      let ex := { begun (.poll 0) 0x01 with retries := k }
      let s := inHand ex (.receiving .awaiting) ((lined (bound x (image 7 up))).setSlot 1
        { Slot.cold with state := .behind, binding := some (0, 2), garbleRun := 4 })
      s.resetLow = false ∧ s.hears 0 (s.port 0).rxSide = true ∧ (s.port 0).xstate = .receiving .awaiting ∧ (s.port 0).exchange = some ex ∧
      ex.work.slot = some 0 ∧ s.lineOf 0 = some 0 ∧ ex.detached = false ∧ ex.withdrawn = false ∧
      (s.slot 0).binding = some (s.actingLine 0, ex.addr) ∧ (s.slot 1).binding = some (s.actingLine 0, 2) ∧
      judge (answer 0x9F []) .complete (some ex) = .good ∧ fits ex 0x9F [] = true ∧
      judge (answer 0x90 []) .complete (some ex) = .good ∧ fits ex 0x90 [] = false ∧
      judge (frameBytes 0x82 0x9F 0 []) .complete (some ex) = .stale ∧ judge [0xB4] .idle (some ex) = .garbled := by
  decide +kernel

/-- Each reply of section 6.1 to a request that admits it, and with another page, another count, serial 0 or another length
(R118). -/
theorem witness_RepliesFit :
    let page := { begun (.page 0) 0x11 with page := some ⟨3, false, 0, 0⟩ }
    let check := { begun (.check 0) 0x14 with content := [0, 0, 1] }
    (∀ x ∈ [(begun (.poll 0) 0x01, (0x81 : Byte), List.replicate 42 0), (begun (.identify 0) 0x02, 0x82, identBytes 5),
        (begun (.openTo 0 .blocklist) 0x10, 0x90, List.replicate 8 0), (page, 0x91, [4]), (page, 0x92, [3, 0, 0, 0, 0, 0]),
        (begun (.close 0) 0x13, 0x93, List.replicate 8 0), (check, 0x94, [0, 0, 1, 0, 0, 0, 0])],
      fits x.1 x.2.1 x.2.2 = true ∧ fits x.1 x.2.1 (0 :: x.2.2) = false) ∧
    fits page 0x92 [4, 0, 0, 0, 0, 0] = false ∧ fits check 0x94 [0, 0, 2, 0, 0, 0, 0] = false ∧
    fits (begun (.identify 0) 0x02) 0x82 (identBytes 0) = false ∧ fits (begun (.close 0) 0x13) 0x91 [4] = false := by
  decide +kernel

/-- A reply to discovery at address 9, its count 2 and 3: one that ended early and an IDENT with serial 0, the fourth of which lists
the address (R90, R91); an IDENT and a BUSY, which clear the count; one from another address. -/
theorem witness_ClashListed :
    let ex := { begun .discovery 0x02 with addr := 9, retries := 0 }
    let sent (a : Byte) (code : Byte) (c : List Byte) : List Byte := frameBytes a code 0 c
    ∀ k ∈ [2, 3],
      let s := inHand ex (.receiving .awaiting) ((lined up).modLineRoster 0 fun r => { r with garbles := r.garbles.set 9 k })
      let t (b : List Byte) (e : FrameEnd) : LineRoster := (after (.frameReceived 0 b e) s).lineRoster 0
      s.resetLow = false ∧ s.hears 0 (s.port 0).rxSide = true ∧ (s.port 0).xstate = .receiving .awaiting ∧ (s.port 0).exchange = some ex ∧
      ex.work = .discovery ∧
      (∀ x ∈ [t [0xB4] .idle, t (sent 0x89 0x82 (identBytes 0)) .complete], x.clash = if k = 3 then [9] else []) ∧
      (∀ x ∈ [t (sent 0x89 0x82 (identBytes 5)) .complete, t (sent 0x89 0x9F []) .complete],
        x.clash = [] ∧ x.garbles[9]? = some 0) ∧
      (t (sent 0x88 0x9F []) .complete).garbles[9]? = some k := by decide +kernel

/-- A retry left; the last miss below the limit and the one that reaches it; SILENT, IDENTIFYING and QUARANTINED. -/
theorem witness_TimeoutRetriesOrMisses :
    ∀ x ∈ [(SlotState.behind, 1, 0), (.behind, 0, 0), (.behind, 0, 2), (.silent, 0, 0), (.identifying, 0, 0),
        (.quarantined, 0, 0)],
      let ex := { begun (.page 0) 0x11 with retries := x.2.1 }
      let s := inHand ex .awaiting (delivering (opened .delta [3])
        ((lined (bound x.1 (image 7 up))).modSlot 0 fun v => { v with misses := x.2.2 }))
      s.resetLow = false ∧ s.working = true ∧ (s.port 0).xstate = .awaiting ∧ (s.port 0).exchange = some ex ∧
      ex.work.slot = some 0 ∧ s.lineOf 0 = some 0 ∧ ex.detached = false ∧ ex.withdrawn = false ∧
      (s.slot 0).state = x.1 := by decide +kernel

/-- A discovery visit to address 9 that times out, on a line of its own and, by the primary, on a broken loop. -/
theorem witness_VisitTimesOut :
    let ex := { begun .discovery 0x02 with addr := 9, retries := 0 }
    ∀ b ∈ [false, true],
      let u := ((if b then pairUp (lined up) else lined up).modPort 0 fun p => { p with broken := b }).modLineRoster 0
        fun r => { r with garbles := r.garbles.set 9 3 }
      let s := inHand ex .awaiting u
      let t := after (.replyTimeout 0) s
      s.resetLow = false ∧ s.working = true ∧ (s.port 0).xstate = .awaiting ∧ (s.port 0).exchange = some ex ∧
      s.brokenLoop 0 = b ∧ (t.lineRoster 0).garbles[9]? = some 0 ∧ (t.port 0).exchange.isSome = b := by decide +kernel

/-- Nothing left, another attempt, a second copy, an exchange withdrawn, and discovery's second IDENTIFY, the loop INTACT
and BROKEN. -/
theorem witness_GapEndGoesOn :
    ∀ ex ∈ [begun (.poll 0) 0x01, { begun (.poll 0) 0x01 with after := .attempt },
        { begun .time 0x22 with after := .copy }, { begun (.poll 0) 0x01 with after := .attempt, withdrawn := true },
        { begun .discovery 0x02 with after := .attempt }],
      ∀ b ∈ [false, true],
        let s := inHand ex .gap ((pairUp serving).modPort 0 fun p => { p with broken := b })
        s.resetLow = false ∧ s.working = true ∧ (s.port 0).xstate = .gap ∧ (s.port 0).reply = none ∧
        (s.port 0).exchange = some ex ∧ ex.started = true ∧ s.brokenLoop 0 = b := by decide +kernel

/-- The odd line is set OFF after the first copy of an ACTIVATE broadcast: no second copy, the mark cleared (R96, R98). -/
theorem witness_CopyOfALineSetOff :
    let ex := { begun .activateAll 0x20 with after := .copy, addr := 31, noReply := true }
    let u := (inHand ex .gap (pairUp serving)).modArbiter 0 fun a => { a with activateDue := some 3 }
    let s := (u.modPort 0 fun p => { p with broken := true }).modPort 1 fun p => { p with mode := .off, applied := .off }
    let t := after (.gapEnd 0) s
    s.looped 0 = false ∧ (s.port 0).reply = none ∧ ex.withdrawn = false ∧ (t.port 0).xstate = .idle ∧
    (t.port 1).counters = (s.port 1).counters ∧ (t.arbiter 0).activateDue = none := by decide +kernel

/-- What the statements on replies ask of line 0's exchange with slot 0. -/
def taken (s : State) (ex : Exchange) (code : Byte) (content : List Byte) : Bool :=
  !s.resetLow && decide (s.replyHeld 0 code = some (ex, content)) && decide (ex.work.slot = some 0) && !ex.detached &&
  !ex.withdrawn && decide ((s.port 0).xstate = .gap) && decide (s.lineOf 0 = some 0)

/-- The POLL of line 0 and the STATUS to it. -/
def polled (s : State) (content : List Byte) : Bool :=
  taken (replied (begun (.poll 0) 0x01) 0x81 content s) (begun (.poll 0) 0x01) 0x81 content

/-- Every state of a slot with its own serial, another, a store fault, BUSY, and another digest; a STATUS that holds the
pending edition complete; a QUARANTINED slot that records no serial. -/
theorem witness_StatusTaken :
    (∀ x ∈ [SlotState.silent, .identifying, .behind, .current, .quarantined],
      ∀ c ∈ [statusBytes 5 9 7 0 0, statusBytes 6 9 7 0 0, statusBytes 5 9 7 0 2, statusBytes 5 9 7 0 4, statusBytes 5 9 7 1 0],
        polled (lined (bound x (image 7 up))) c = true) ∧
    (let c := (statusBytes 5 9 7 0 0).take 26 ++ leBytes 2 4 ++ leBytes 4 0 ++ [1] ++ leBytes 8 1 ++ [0]
     polled (pendingFour serving) c = true ∧
     ((after (.status 0) (replied (begun (.poll 0) 0x01) 0x81 c (pendingFour serving))).slot 0).state = .current) ∧
    polled ((lined (bound .quarantined (image 7 up))).modSlot 0 fun v => { v with serial := 0 })
      (statusBytes 5 9 7 0 0) = true := by
  decide +kernel

/-- Accepted, with a store fault kept and without; frozen, a replacement, its window still open, a serial another slot has. -/
theorem witness_IdentTaken :
    let ex := begun (.identify 0) 0x02
    let s (f : Slot → Slot) : State := (lined (bound .identifying (image 7 up))).modSlot 0 f
    let kept (v : Slot) : Slot := { v with kept := some (parseStatus (statusBytes 5 9 7 0 2)) }
    ∀ x ∈ [(s id, 5), (s kept, 5), (s fun v => { v with frozen := true }, 6), (s id, 6),
        (s fun v => { v with window := some 1 }, 6), ((s id).setSlot 5 { Slot.cold with binding := some (1, 1), serial := 6 }, 6)],
      taken (replied ex 0x82 (identBytes x.2) x.1) ex 0x82 (identBytes x.2) = true ∧
      ((replied ex 0x82 (identBytes x.2) x.1).slot 0).state = .identifying := by decide +kernel

/-- A discovery at address 9 with room and with none; the serial in a SILENT LEARNED slot, in a PINNED one, and in two. -/
theorem witness_Discovered :
    let d := { begun .discovery 0x02 with addr := 9 }
    let full := forSlots (fun n s => s.modSlot n fun v => { v with state := .silent }) allSlots (lined up)
    let v : Slot := { Slot.cold with state := .silent, binding := some (1, 5), mode := .learned, serial := 77 }
    ∀ u ∈ [lined up, full, (lined up).setSlot 3 v, (lined up).setSlot 3 { v with mode := .pinned },
        ((lined up).setSlot 3 v).setSlot 4 { v with binding := some (1, 6) }],
      let t := replied d 0x82 (identBytes 77) u
      t.resetLow = false ∧ t.replyHeld 0 0x82 = some (d, identBytes 77) ∧ d.work = .discovery ∧
      ∀ m : Fin 24, (t.slot m).binding ≠ some (0, 9) := by decide +kernel

/-- A delivery in OPENING, of every mode and with every reason of a REFUSE; alone, and in a group whose last OPEN it is. -/
theorem witness_OpenAnswered :
    let ex := begun (.openTo 0 .blocklist) 0x10
    let g : Group := ⟨0, 0, .routine, [0, 1], [0], some 7, false, [], none, 0⟩
    ∀ m ∈ [Mode.delta, .reload, .repair, .stage, .install], ∀ gs ∈ [[], [g]],
      let s := ((delivering { opened m [3] with phase := .opening } serving).setDelivery 1 (some (opened m [4]))).setGroups gs
      taken (replied ex 0x90 (List.replicate 8 0) s) ex 0x90 (List.replicate 8 0) = true ∧
      (∀ r ∈ [1, 2, 3, 4], taken (replied ex 0x91 [r] s) ex 0x91 [r] = true) ∧
      (s.slot 0).state ≠ .quarantined ∧ s.groupOf 0 = gs.head? ∧
      ∀ l, (replied ex 0x90 [] s).portReady l = false := by decide +kernel

/-- An ACK of the part's CRC and of another; a CHECK REPORT of two pages, with the image still and changing. -/
theorem witness_PageAckAndCheckReport :
    (∀ c ∈ [[3, 0, 0x44, 0x33, 0x22, 0x11], [3, 0, 0, 0, 0, (0 : Byte)]],
      let s := replied pageOut 0x92 c (delivering { opened .delta [3] with inFlight := some 3 } serving)
      taken s pageOut 0x92 c = true ∧ (s.delivery 0).isSome = true ∧ pageOut.page.isSome = true) ∧
    (let ex := { begun (.check 0) 0x14 with content := [0, 0, 2] }
     let c := [0, 0, 2] ++ leBytes 4 0 ++ leBytes 4 1
     ∀ b ∈ [false, true],
       let u := { serving with change := { serving.change with changing := b } }
       taken (replied ex 0x94 c (delivering (opened .repair []) u)) ex 0x94 c = true) := by decide +kernel

/-- Each result and verdict, with the part's tally and another, in every mode, MAKE ACTIVE set and clear; a RELOAD that mends;
the first failed sweep and the second. -/
theorem witness_CloseAckTaken :
    let ex := begun (.close 0) 0x13
    ∀ m ∈ [Mode.delta, .reload, .repair, .stage, .install], ∀ b ∈ [false, true], ∀ k ∈ [0, 1],
      ∀ c ∈ [[1, 1, 0, 0, 0, 0, 0, 0], [1, 0, 0, 0, 0, 0, 0, 0], [1, 2, 0, 0, 0, 0, 0, 0], [1, 1, 1, 0, 0, 0, 0, 0],
          [2, 0, 0, 0, 0, 0, 0, 0], [3, 0, 0, 0, 0, 0, 0, (0 : Byte)]],
        let s := (delivering { opened m [] with phase := .closing, makeActive := b, repairReload := b } serving).setSweep 0
          ⟨3, [], k, none⟩
        taken (replied ex 0x93 c s) ex 0x93 c = true := by
  decide +kernel

/-- BUSY to a POLL, an IDENTIFY, an OPEN, a PAGE, a CHECK and a CLOSE. -/
theorem witness_BusyLeavesWorkDue :
    ∀ w ∈ [Work.poll 0, .identify 0, .openTo 0 .blocklist, .page 0, .check 0, .close 0],
      taken (replied (begun w 0x01) 0x9F [] (delivering (opened .delta [3]) serving)) (begun w 0x01) 0x9F [] = true := by
  decide +kernel

/-- A line with nothing to do, one whose first class is UPKEEP, and one in its turnaround gap. -/
theorem witness_ArbiterServesFirstClass :
    (lined up).portReady 0 = true ∧
    (∀ c ∈ [Cls.urgent, .activation, .upkeep, .install, .stage, .routine, .repair], (lined up).offer 0 c = none) ∧
    (let s := lined (up.modArbiter 0 fun a => { a with discoveryDue := true })
     s.portReady 0 = true ∧ s.offer 0 .urgent = none ∧ s.offer 0 .activation = none ∧ s.offer 0 .upkeep ≠ none) ∧
    (let s := (lined up).modPort 0 fun p => { p with xstate := .gap, gapLeft := 7 }
     s.resetLow = false ∧ s.engine = .running ∧ (s.port 0).xstate = .gap ∧ (s.port 0).reply = none ∧
     (s.port 0).exchange = none ∧ ∀ k, k ≠ 0 → s.portReady k = false) := by
  decide +kernel

/-- Slots 0 and 1 on line 0 are BEHIND by a page, of protocol level 2. -/
def twoBehind : State :=
  let v (a : Nat) : Slot := { (serving.slot 0) with binding := some (0, a), cap := some ⟨7, 4096, 128, 0, 2⟩ }
  ((lined (image 8 up)).setSlot 0 (v 1)).setSlot 1 (v 2)

/-- A group of slots 0 and 1, its OPENs answered, its common plan page 3. -/
def grouped : State :=
  (((twoBehind.setDelivery 0 (some { opened .delta [] with grouped := true })).setDelivery 1
    (some { opened .delta [] with grouped := true })).setGroups [⟨4, 0, .routine, [0, 1], [], some 8, true, [3], none, 0⟩])

/-- ROUTINE: a group forms; a group waits for its page; one slot alone, after the pointer; a turn of slot 0 goes on; the turn
of the group. -/
theorem witness_TurnsBegin :
    let turn (x : Target) (s : State) : State := s.modArbiter 0 fun a => { a with turn := some ⟨.routine, x, 1⟩ }
    let alone := (twoBehind.modSlot 1 fun v => { v with cap := none }).modArbiter 0 fun a =>
      { a with pointers := a.pointers.put .routine 0 }
    let paging := twoBehind.setDelivery 0 (some { opened .delta [] with rest := [3] })
    (∀ x ∈ [(twoBehind, [0, 1], some (some 0, (⟨.openTo 0 .blocklist, .slot 0⟩ : Choice))),
        (grouped, [], some (some 0, ⟨.groupPage 4, .group 4⟩)), (alone, [], some (some 1, ⟨.openTo 1 .blocklist, .slot 1⟩)),
        (turn (.slot 0) paging, [], some (some 0, ⟨.page 0, .slot 0⟩))],
      x.1.portReady 0 = true ∧ (∀ c ∈ [Cls.urgent, .activation, .upkeep, .install, .stage], x.1.offer 0 c = none) ∧
      x.1.offer 0 .routine = x.2.2 ∧ ∀ ch ∈ x.2.2.map (·.2), x.1.groupFor 0 .routine ch = x.2.1) ∧
    (turn (.slot 0) paging).turnGoesOn 0 ⟨.routine, .slot 0, 1⟩ = some (.page 0) ∧
    (turn (.group 4) grouped).turnGoesOn 0 ⟨.routine, .group 4, 1⟩ = some (.groupPage 4) := by decide +kernel

/-- R163 and turn 7 of the worked line (chapter 7, section 7.9): after the last page of a plan that was wholly urgent the CLOSE follows
in the same turn, though the image is changing (R148). With a rest left the turn ends, and ROUTINE sends it (R149). -/
theorem test_close_in_the_urgent_turn :
    let acked (rest : List Nat) (changing : Bool) : State :=
      let u := delivering { opened .delta [] with rest := rest } serving
      ({ u with change := { u.change with changing := changing } }.modArbiter 0 fun a =>
        { a with turn := some ⟨.urgent, .slot 0, 2⟩ }).modPort 0 fun p => { p with xstate := .gap }
    let sent (s : State) : Option (Option Work × Cls × Nat) :=
      let t := after (.gapEnd 0) s
      (t.arbiter 0).turn.map fun u => ((t.port 0).exchange.map (·.work), u.cls, u.burst)
    (∀ b ∈ [false, true], sent (acked [] b) = some (some (.close 0), .urgent, 2)) ∧
    sent (acked [5] false) = some (some (.page 0), .routine, 0) := by decide +kernel

/-- An urgent OPEN to a slot with an open STAGE delivery, and to one in a STAGE group that has not opened it; a routine OPEN to
such a member; a group's turn with its plan sent. -/
theorem witness_WayCleared :
    let hot := { twoBehind with change := { twoBehind.change with table := List.replicate 64 ⟨8, 8, 0, 0⟩ } }
    let staging := hot.setDelivery 0 (some (opened .stage []))
    let waits (s : State) : State := (s.modSlot 0 fun v => { v with edIncapable := true }).setGroups
      [⟨4, 0, .stage, [0], [0], none, false, [], none, 0⟩]
    let closing := grouped.setGroups (grouped.sched.groups.map fun g => { g with plan := [] })
    (∀ s ∈ [staging, waits hot], s.portReady 0 = true ∧ s.offer 0 .urgent = some (some 0, ⟨.openTo 0 .blocklist, .slot 0⟩) ∧
      (s.arbiter 0).turn = none ∧ (arbitrate 0 s).delivery 0 = none ∧ (arbitrate 0 s).groupOf 0 = none) ∧
    (let s := (waits twoBehind).modSlot 1 fun v => { v with cap := none }
     s.portReady 0 = true ∧ (∀ c ∈ [Cls.urgent, .activation, .upkeep, .install, .stage], s.offer 0 c = none) ∧
     s.offer 0 .routine = some (some 0, ⟨.openTo 0 .blocklist, .slot 0⟩) ∧ s.groupIn .routine 0 = none ∧
     (s.groupOf 0).isSome = true ∧ (arbitrate 0 s).groupOf 0 = none) ∧
    closing.turnGoesOn 0 ⟨.routine, .group 4, 16⟩ = some (.close 0) ∧
    grouped.turnGoesOn 0 ⟨.routine, .group 4, 16⟩ = none := by
  decide +kernel

/-- The first and the last record, in STARTING and in RUNNING; a completion waits for the first, no tests put off. -/
theorem witness_RewriteShowsState :
    (∀ r ∈ [(0 : Fin 29), 28], ∀ e ∈ [Engine.starting, .running],
      let s := want r (at' e)
      s.resetLow = false ∧ Memory.wf s.mem = true ∧ s.report.wanted[r] = true ∧
      (s.working = true ∨ (s.engine = .starting ∧ ∀ q : Fin 29, q < r → s.report.wanted[q] = false))) ∧
    (let s := completeAfterSummary .routine ⟨1, false, 0⟩ (holds .routine 0x13 [] up)
     s.report.waiting = [⟨[0], .outcome .routine ⟨1, false, 0⟩⟩] ∧ (s.strip .routine).position < s.stripCount .routine ∧
     s.editions.testsDue = false) := by
  decide +kernel

theorem witness_ResetMeetsInvariants :
    Memory.wf up.mem = true ∧ up.memoryOk ∧ up.resetLow = false ∧ (2 : Word).getLsbD 1 = true := by
  unfold State.memoryOk; decide +kernel

theorem witness_MemoryAndRegionsKept :
    up.memoryOk ∧ up.regionsOk ∧ step up = .next (idle up) := by
  refine ⟨?_, ?_, rfl⟩
  · unfold State.memoryOk; decide +kernel
  · unfold State.regionsOk; decide +kernel

theorem witness_GenerationsKept :
    serving.genOk ∧ serving.heldOk ∧ serving.digestOk ∧ step serving = .next (idle serving) := by
  refine ⟨?_, ?_, ?_, rfl⟩
  · unfold State.genOk; decide +kernel
  · unfold State.heldOk; decide +kernel
  · unfold State.digestOk; decide +kernel

end Sys2Proof.Tests
end

/-!
The home page of a key (R14). The fold of the model takes the halves of the key by `extractLsb'`; the mix and the scale
are about words and page counts alone.
-/
namespace Sys2Proof.Machine

/-- The fold of R14. -/
def foldKey (K : BitVec 64) (S : Word) : Word := (K >>> 32).setWidth 32 ^^^ K.setWidth 32 ^^^ S

/-- The mix of R14. -/
def mixWord (F : Word) : Word := F ^^^ (F >>> 16)

theorem homePage_eq_mixWord_foldKey (K : BitVec 64) (P : Nat) (S : Word) :
    homePage K P S = (mixWord (foldKey K S)).toNat * P / 2 ^ 32 := by
  have upper : (K >>> 32).setWidth 32 = K.extractLsb' 32 32 := BitVec.setWidth_ushiftRight_eq_extractLsb
  have lower : K.setWidth 32 = K.extractLsb' 0 32 := BitVec.setWidth_eq_extractLsb' (by decide)
  simp only [homePage, mixWord, foldKey, upper, lower]

/-- The shifted copy of `F` reaches the lower 16 bits only: shifted right by 16 once more it is 0. -/
theorem mixWord_upper (F : Word) : mixWord F >>> 16 = F >>> 16 := by
  have gone : F >>> 16 >>> 16 = 0#32 :=
    (BitVec.shiftRight_add F 16 16).symm.trans (BitVec.ushiftRight_eq_zero (by decide))
  rw [mixWord, BitVec.ushiftRight_xor_distrib, gone, BitVec.xor_zero]

/-- The division by `2 ^ 32` undoes the scale by `2 ^ k` and drops the other `32 - k` bits. -/
theorem scale_two_pow (M : Word) {k : Nat} (hk : k ≤ 32) : M.toNat * 2 ^ k / 2 ^ 32 = (M >>> (32 - k)).toNat := by
  have split32 : 2 ^ 32 = 2 ^ (32 - k) * 2 ^ k := by rw [← pow_add, Nat.sub_add_cancel hk]
  calc M.toNat * 2 ^ k / 2 ^ 32
      = M.toNat * 2 ^ k / (2 ^ (32 - k) * 2 ^ k) := by rw [split32]
    _ = M.toNat / 2 ^ (32 - k) := Nat.mul_div_mul_right _ _ (Nat.two_pow_pos k)
    _ = (M >>> (32 - k)).toNat := by rw [BitVec.toNat_ushiftRight, Nat.shiftRight_eq_div_pow]

/-- Settles O17: every part reads off the fold and mix of the model, with `M < 2 ^ 32` for the bounds and `P ≤ 2 ^ 12`
for the 44 bits. -/
theorem homePageComputation : Obligations.HomePageComputation := by
  intro K P S hlow hhigh F M
  have scaled : homePage K P S = M.toNat * P / 2 ^ 32 := homePage_eq_mixWord_foldKey K P S
  have below : M.toNat * P < 2 ^ 32 * P := Nat.mul_lt_mul_of_pos_right M.isLt (by omega)
  have width : M.toNat * P < 2 ^ 44 := by omega
  refine ⟨mixWord_upper F, width, scaled, scaled ▸ Nat.div_lt_of_lt_mul below, fun k hk => ?_⟩
  have hk32 : k ≤ 32 := (Nat.pow_le_pow_iff_right (by decide : 1 < 2)).1 (by omega)
  rw [scaled, hk, scale_two_pow M hk32]

end Sys2Proof.Machine

/-!
APPLY CHANGES and the purge job as they are taken up (R22, R38): what leaving a holder does to the strips and to the
change engine, what shows that a request may be taken up, and then the two jobs.
-/
namespace Sys2Proof.Machine

/-! ### A request leaves its holder -/

@[simp] theorem boundStrip_change (s : State) (t : Strip) (o : Owner) : (boundStrip t o s).change = s.change := by
  unfold boundStrip
  split
  · split
    · exact State.setStrip_change ..
    · rfl
  · rfl

@[simp] theorem boundStrip_roster (s : State) (t : Strip) (o : Owner) : (boundStrip t o s).roster = s.roster := by
  unfold boundStrip
  split
  · split
    · exact State.setStrip_roster ..
    · rfl
  · rfl

@[simp] theorem leaveHolder_change (s : State) (t : Strip) : (leaveHolder t s).change = s.change := by
  unfold leaveHolder
  split
  · exact State.setStrip_change ..
  · rfl

/-- What waits on another strip is marked there alone. -/
theorem boundStrip_strip_of_ne {t u : Strip} (ne : t ≠ u) (o : Owner) (s : State) :
    (boundStrip t o s).strip u = s.strip u := by
  unfold boundStrip
  split
  · split
    · rw [State.setStrip_strip, if_neg ne]
    · rfl
  · rfl

@[simp] theorem boundPurge_strip (s : State) (u : Strip) : (boundPurge s).strip u = s.strip u := by
  unfold boundPurge
  split <;> cases u <;> rfl

theorem otherStrip_ne (t : Strip) : otherStrip t ≠ t := by cases t <;> decide

/-- A request taken up stands in its strip slot as before, out of its holder. -/
theorem takeUp_strip {s : State} {t : Strip} {r : Request} {h f : Bool} (o : Owner)
    (hold : (s.strip t).scan = .holding r h f) :
    (takeUp t o s).strip t = ⟨(s.strip t).position, .holding r false f⟩ := by
  have left : (leaveHolder t s).strip t = ⟨(s.strip t).position, .holding r false f⟩ := by
    simp [leaveHolder, hold]
  have other := (boundStrip_strip_of_ne (otherStrip_ne t) o (leaveHolder t s)).trans left
  unfold takeUp
  split
  · exact (boundPurge_strip _ t).trans other
  · exact other

/-- Of the change engine only the waiting purge job can be marked. -/
theorem takeUp_change (s : State) (t : Strip) :
    ∃ p, (takeUp t .change s).change = { s.change with purge := p } := by
  have bound : ∀ v : State, ∃ p, (boundPurge v).change = { v.change with purge := p } := fun v => by
    unfold boundPurge
    split
    · exact ⟨_, rfl⟩
    · exact ⟨v.change.purge, rfl⟩
  simpa [takeUp] using bound (boundStrip (otherStrip t) .change (leaveHolder t s))

theorem takePurge_change (s : State) : (takePurge s).change = { s.change with purge := .empty } := by
  simp [takePurge]

theorem takePurge_roster (s : State) : (takePurge s).roster = s.roster := by simp [takePurge]

/-! ### When a request may be taken up -/

theorem not_isFaulted_of_working {s : State} (h : s.working = true) : s.isFaulted = false := by
  unfold State.isFaulted
  split
  · next e => simp [State.working, e] at h
  · rfl

theorem isFaulted_of_spine {s u : State} (h : u.spine = s.spine) : u.isFaulted = s.isFaulted := by
  simp only [State.isFaulted, show u.engine = s.engine from congrArg Spine.engine h]

theorem stripCount_of_spine {s u : State} (h : u.spine = s.spine) (t : Strip) : u.stripCount t = s.stripCount t :=
  (stripAddr_of_desc (congrArg Spine.descriptor h) t).2

theorem heldRequest_eq_some {s : State} {t : Strip} {r : Request} (h : s.heldRequest t = some r) :
    ∃ f, (s.strip t).scan = .holding r true f := by
  unfold State.heldRequest at h
  split at h
  · next q f e => exact ⟨f, Option.some.inj h ▸ e⟩
  · cases h

theorem mayTake_holds {s : State} {t : Strip} {o : Owner} {k : Nat} (h : s.mayTake t o k = true) :
    s.working = true ∧ ∃ r f, (s.strip t).scan = .holding r true f := by
  simp only [State.mayTake, Bool.and_eq_true] at h
  obtain ⟨⟨⟨work, -⟩, -⟩, kind⟩ := h
  split at kind
  · next r e => exact ⟨work, r, heldRequest_eq_some e⟩
  · cases kind

theorem yields_holds {s : State} (h : s.yields = true) : ∃ r f, (s.strip .priority).scan = .holding r true f := by
  simp only [State.yields, State.holdsApply, Bool.and_eq_true] at h
  obtain ⟨-, kind⟩ := h
  split at kind
  · next r e => exact ⟨r, heldRequest_eq_some e⟩
  · cases kind

/-- By the job order or between two slices of a rebuild: the part works, and the strip holds the request. -/
theorem mayApply_holds {s : State} {t : Strip} (h : s.mayApply t = true) :
    s.working = true ∧ ∃ r f, (s.strip t).scan = .holding r true f := by
  simp only [State.mayApply, Bool.or_eq_true, Bool.and_eq_true, decide_eq_true_eq] at h
  rcases h with turn | ⟨⟨rfl, work⟩, gap⟩
  · exact mayTake_holds turn
  · exact ⟨work, yields_holds gap⟩

/-! ### APPLY CHANGES (R22) -/

/-- The state in which the parameters of an APPLY CHANGES are checked: its request is taken up, and a rebuild that gave way
no longer looks to it. -/
def applyTaken (t : Strip) (s : State) : State := resumeRebuild (takeUp t .change s)

theorem applyTaken_spine (t : Strip) (s : State) : (applyTaken t s).spine = s.spine := by simp [applyTaken]

theorem applyTaken_mem (t : Strip) (s : State) : (applyTaken t s).mem = s.mem := by simp [applyTaken]

theorem applyTaken_strip {s : State} {t : Strip} {r : Request} {h f : Bool}
    (hold : (s.strip t).scan = .holding r h f) :
    (applyTaken t s).strip t = ⟨(s.strip t).position, .holding r false f⟩ := by
  have same : (applyTaken t s).strip t = (takeUp t .change s).strip t := by cases t <;> rfl
  rw [same, takeUp_strip .change hold]

theorem refuseBatch_applyTaken (list n : Nat) (t : Strip) (s : State) :
    refuseBatch list n (applyTaken t s).change = refuseBatch list n s.change := by
  obtain ⟨p, change⟩ := takeUp_change s t
  simp only [refuseBatch, applyTaken, resumeRebuild, change]

/-- A refused APPLY CHANGES is answered with its outcome, and nothing else happens. -/
theorem exec_applyChanges_refused {s : State} {t : Strip} {o : Byte} (high : s.resetLow = false)
    (may : s.mayApply t = true) (pos : (s.strip t).position < s.stripCount t) (wf : Memory.wf s.mem = true)
    (refuse : refuseBatch ((s.request t).param 8 4) ((s.request t).param 12 2) s.change = some o) :
    ∃ t', exec (.applyChanges t) s = .next t' ∧ Answers t (.plain o) (applyTaken t s) t' := by
  obtain ⟨work, r, f, hold⟩ := mayApply_holds may
  have strip := applyTaken_strip hold
  have spine := applyTaken_spine t s
  have run : exec (.applyChanges t) s =
      .next (settle s (boundaries (completeRequest t (.plain o) (applyTaken t s)))) := by
    rw [← refuseBatch_applyTaken _ _ t] at refuse
    unfold applyTaken at refuse ⊢
    simp only [exec, execApplyChanges, scheduled_next high, may, if_true, refuse]
  refine ⟨_, run, completes_settled (congrArg StripState.scan strip) ?_ ?_ ?_⟩
  · rw [isFaulted_of_spine spine]
    exact not_isFaulted_of_working work
  · rw [strip, stripCount_of_spine spine]
    exact pos
  · rw [applyTaken_mem]
    exact wf

/-- The batch of an accepted APPLY CHANGES, at item 0. -/
def firstBatch (t : Strip) (s : State) : Batch :=
  ⟨t, (s.request t).param 8 4, (s.request t).param 12 2, 0, 0, false, []⟩

theorem exec_applyChanges_accepted {s : State} {t : Strip} (high : s.resetLow = false) (may : s.mayApply t = true)
    (accept : refuseBatch ((s.request t).param 8 4) ((s.request t).param 12 2) s.change = none) :
    ∃ t', exec (.applyChanges t) s = .next t' ∧ Settled { applyTaken t s with
      change := { (applyTaken t s).change with batch := some (firstBatch t s) } } t' := by
  refine ⟨_, ?_, settled_boundaries s _⟩
  rw [← refuseBatch_applyTaken _ _ t] at accept
  unfold applyTaken at accept ⊢
  simp only [exec, execApplyChanges, scheduled_next high, may, if_true, accept, firstBatch]

/-- Settles O19: the four clauses are the branches of the model's check, first failing condition first. -/
theorem applyChangesTakenUp : Obligations.ApplyChangesTakenUp := by
  intro s t high may pos wf list n u badParam noImage spent
  have refused {o : Byte} (h : refuseBatch list n s.change = some o) :=
    exec_applyChanges_refused high may pos wf h
  by_cases bad : badParam
  · obtain ⟨t', run, answer⟩ := refused (o := Outcome.badParam) (if_pos bad)
    exact ⟨t', run, fun _ => answer, absurd bad, absurd bad, absurd bad⟩
  have checked : refuseBatch list n s.change =
      if noImage then some Outcome.wrongState else if spent then some Outcome.spent else none := if_neg bad
  by_cases empty : noImage
  · obtain ⟨t', run, answer⟩ := refused (checked.trans (if_pos empty))
    exact ⟨t', run, (absurd · bad), fun _ _ => answer, fun _ h => absurd empty h, fun _ h => absurd empty h⟩
  rw [if_neg empty] at checked
  by_cases limit : spent
  · obtain ⟨t', run, answer⟩ := refused (checked.trans (if_pos limit))
    exact ⟨t', run, (absurd · bad), fun _ h => absurd h empty, fun _ _ _ => answer, fun _ _ h => absurd limit h⟩
  · obtain ⟨t', run, started⟩ := exec_applyChanges_accepted high may (checked.trans (if_neg limit))
    exact ⟨t', run, (absurd · bad), fun _ h => absurd h empty, fun _ _ h => absurd h limit, fun _ _ _ => started⟩

/-! ### The purge job at the limit of G (R36, R38) -/

theorem purge_spent {s : State} (limit : s.change.gen = Config.spentG) :
    purge s = want summaryRec
      { takePurge s with change := { s.change with purge := .empty, purgeSkipped := true } } := by
  have spent : (takePurge s).spent = true := by simp [State.spent, takePurge_change, limit]
  simp only [purge, spent, if_true, takePurge_change]

theorem queuePurge_queued {s : State} (image : s.change.pages ≠ 0) (empty : s.change.purge = .empty) :
    (queuePurge s).change.purge = .queued (s.arrivesFree .change) := by
  simp only [queuePurge, if_neg image, empty]

/-- Settles O27: the skipped job by `purge_spent`; the flag is cleared by the new image's own record of the change
engine. -/
theorem purgeJobSkippedAtLimit : Obligations.PurgeJobSkippedAtLimit := by
  refine ⟨fun s high may limit => ?_, fun s image empty => ?_, fun _ _ => rfl, fun _ _ => rfl⟩
  · obtain ⟨t, run, settled⟩ := scheduled_settled (s := s) (f := fun s => if s.mayPurge then purge s else s) high
    simp only [may, if_true, purge_spent limit] at settled
    refine ⟨t, run, ?_, settled.change, settled.wanted summaryRec (by rw [want_wanted]; rfl), ?_⟩
    · rw [settled.mem, want_mem, takePurge_mem]
    · rw [settled.roster, want_roster, takePurge_roster]
  · rw [queuePurge_queued image empty]
    exact PurgeQueue.noConfusion

end Sys2Proof.Machine

/-!
SET PROFILE (R99, R100): what a request acted on at once leaves, the profile its fields give, and how a new rate reaches the
served rates of the roster slots.
-/
namespace Sys2Proof.Machine

/-! ### A request acted on at once (R191) -/

theorem setStrip_eq_exch (s : State) (t : Strip) (v : StripState) : ∃ x, s.setStrip t v = { s with exch := x } := by
  cases t <;> exact ⟨_, rfl⟩

theorem leaveHolder_eq_exch (s : State) (t : Strip) : ∃ x, leaveHolder t s = { s with exch := x } := by
  unfold leaveHolder
  split
  · exact setStrip_eq_exch ..
  · exact ⟨s.exch, rfl⟩

theorem boundStrip_eq_exch (s : State) (t : Strip) (o : Owner) : ∃ x, boundStrip t o s = { s with exch := x } := by
  unfold boundStrip
  split
  · split
    · exact setStrip_eq_exch ..
    · exact ⟨s.exch, rfl⟩
  · exact ⟨s.exch, rfl⟩

/-- The taking up of a request acted on at once shows in the strips alone: no purge job waits for its owner. -/
theorem takeUp_atOnce_eq_exch (s : State) (t : Strip) : ∃ x, takeUp t .atOnce s = { s with exch := x } := by
  obtain ⟨x, left⟩ := leaveHolder_eq_exch s t
  obtain ⟨y, bound⟩ := boundStrip_eq_exch { s with exch := x } (otherStrip t) .atOnce
  exact ⟨y, by simp [takeUp, left, bound]⟩

/-- A completion is about the strips, the registers and the shared memory of the state before it. -/
theorem Completed.of_eq {t : Strip} {r : Result} {u v t' : State} (exch : v.exch = u.exch) (mem : v.mem = u.mem)
    (regs : v.regs = u.regs) (done : Completed t r v t') : Completed t r u t' := by
  cases u
  cases v
  cases exch
  cases mem
  cases regs
  exact ⟨done.mark, done.outcome, done.clamp, done.detailLow, done.detailHigh, done.elsewhere, done.other, done.notices,
    done.done⟩

/-- A request acted on at once completes with its answer, in the state `v` the answer leaves. -/
theorem scheduled_atOnce {s v : State} {t : Strip} {k : Nat} {answer : Request → State → State × Result} {r : Result}
    (take : s.canTake t .atOnce k) (answered : answer (s.request t) (takeUp t .atOnce s) = (v, r))
    (exch : v.exch = (takeUp t .atOnce s).exch) (mem : v.mem = (takeUp t .atOnce s).mem)
    (regs : v.regs = (takeUp t .atOnce s).regs) (engine : v.engine = (takeUp t .atOnce s).engine) :
    ∃ t', scheduled s (atOnce t k answer) = .next t' ∧ Completed t r (takeUp t .atOnce s) t' ∧ Kept v t' := by
  obtain ⟨high, may, pos, wf⟩ := take
  obtain ⟨work, q, f, hold⟩ := mayTake_holds may
  have strip : v.strip t = ⟨(s.strip t).position, .holding q false f⟩ := by
    rw [← takeUp_strip .atOnce hold]
    cases t <;> simp only [State.strip, exch]
  have descriptor : v.exch.descriptor = s.exch.descriptor := by
    rw [exch]
    exact congrArg Spine.descriptor (takeUp_spine s t .atOnce)
  have running : v.isFaulted = false := by
    have same : v.engine = s.engine := engine.trans (congrArg Spine.engine (takeUp_spine s t .atOnce))
    simpa only [State.isFaulted, same] using not_isFaulted_of_working work
  have run : scheduled s (atOnce t k answer) = .next (settle s (boundaries (completeRequest t r v))) := by
    simp only [scheduled_next high, atOnce, may, if_true, answered]
  obtain ⟨completed, kept⟩ := completes_settled (s := s) (r := r) (congrArg StripState.scan strip) running
    (by rw [strip, (stripAddr_of_desc descriptor t).2]; exact pos) (by rw [mem, takeUp_mem]; exact wf)
  exact ⟨_, run, completed.of_eq exch mem regs, kept⟩

/-! ### The fields of a SET PROFILE (R99) -/

theorem param_one_le (r : Request) (off : Nat) : r.param off 1 ≤ 255 := by
  unfold Request.param fieldAt
  cases r.params.drop (off - 8) with
  | nil => exact Nat.zero_le _
  | cons b bs =>
    have byte := b.isLt
    simp only [List.take_succ_cons, List.take_zero, leNat]
    omega

/-- The six fields with a range, each as stored and as given. -/
def Request.clamps (r : Request) : List (Nat × Nat) :=
  [(max 1 (r.param 10 1), r.param 10 1), (max 2 (min 32 (r.param 11 1)), r.param 11 1), (min 3 (r.param 12 1), r.param 12 1),
    (max 1 (min 15 (r.param 13 1)), r.param 13 1), (max 1 (min 240 (r.param 14 1)), r.param 14 1),
    (max 1 (min 15 (r.param 15 1)), r.param 15 1)]

/-- How many fields a clamp changed. -/
def Request.clampCount (r : Request) : Nat := (r.clamps.filter fun x => decide (x.1 ≠ x.2)).length

theorem clampCount_le (r : Request) : r.clampCount ≤ 6 := List.length_filter_le _ r.clamps

/-- The upper end of the timeout's range is the largest byte, so that only its lower end clamps. -/
theorem clampTo_timeout (r : Request) : clampTo 1 255 (r.param 10 1) = max 1 (r.param 10 1) := by
  rw [clampTo, min_eq_right (param_one_le r 10)]

theorem readProfile_fst (r : Request) (rate : Fin 7) :
    (readProfile r rate).1 = ⟨rate, max 1 (r.param 10 1), max 2 (min 32 (r.param 11 1)), min 3 (r.param 12 1),
      max 1 (min 15 (r.param 13 1)), max 1 (min 240 (r.param 14 1)), max 1 (min 15 (r.param 15 1)),
      decide (r.param 16 1 = 1), decide (r.param 17 1 ≠ 0)⟩ := by
  simp only [readProfile, clampTo_timeout]
  rfl

/-- The model pairs the fields the other way round. -/
theorem readProfile_snd (r : Request) (rate : Fin 7) : (readProfile r rate).2 = r.clampCount := by
  have pairs : (readProfile r rate).2 = ((r.clamps.map Prod.swap).filter fun x => decide (x.1 ≠ x.2)).length := by
    simp only [readProfile, clampTo_timeout]
    rfl
  rw [pairs, List.filter_map, List.length_map, Request.clampCount]
  simp only [Function.comp_def, Prod.fst_swap, Prod.snd_swap, ne_comm]

theorem setProfile_refused {r : Request} (bad : 4 ≤ r.param 8 1 ∨ 7 ≤ r.param 9 1 ∨ 2 ≤ r.param 16 1) (s : State) :
    setProfile r s = (s, .plain Outcome.badParam) := by
  unfold setProfile lineOfNat
  split
  · split
    · next line =>
      have index : r.param 8 1 < 4 := by
        by_contra above
        rw [dif_neg above] at line
        cases line
      exact if_pos (by omega)
    · rfl
  · rfl

theorem setProfile_stored {r : Request} {i : Fin 4} {rate : Fin 7} (index : r.param 8 1 = i.val)
    (code : r.param 9 1 = rate.val) (mode : r.param 16 1 < 2) (s : State) :
    setProfile r s =
      (storeProfile i (readProfile r rate).1 s, ⟨Outcome.ok, decide (r.clampCount ≠ 0), r.clampCount⟩) := by
  simp only [setProfile, lineOfNat, code, index, rate.isLt, i.isLt, dif_pos, if_neg (show ¬ 1 < r.param 16 1 by omega),
    readProfile_snd]

/-! ### What a new rate leaves alone (R100) -/

/-- The state apart from the scheduler. -/
def State.offSched (s : State) : State := { s with sched := .cold }

/-- The state apart from the scheduler and the served rates. -/
def State.offServed (s : State) : State :=
  { s with roster := { s.roster with slots := s.roster.slots.map fun v => { v with served := 0 } }, sched := .cold }

theorem dissolve_offSched (s : State) (g : Group) : (dissolve g s).offSched = s.offSched :=
  forSlots_keeps State.offSched (fun n s => s.modDelivery n fun d => { d with rest := restAfterGroup s g n d })
    (fun _ _ => rfl) g.members s

theorem dissolveLine_offSched (s : State) (l : Fin 4) : (dissolveLine l s).offSched = s.offSched :=
  foldl_keeps State.offSched _ dissolve_offSched _ s

theorem dissolveLine_offServed (s : State) (l : Fin 4) : (dissolveLine l s).offServed = s.offServed := by
  have same := congrArg State.offServed (dissolveLine_offSched s l)
  exact same

theorem dissolveLine_slot (s : State) (l : Fin 4) (n : Fin 24) : (dissolveLine l s).slot n = s.slot n := by
  have same := congrArg (State.slot · n) (dissolveLine_offSched s l)
  exact same

theorem refreshServed_offServed (n : Fin 24) (s : State) : (refreshServed n s).offServed = s.offServed := by
  have slots : (s.roster.slots.set n { s.slot n with served := s.servedRate n }).map (fun v => { v with served := 0 }) =
      s.roster.slots.map fun v => { v with served := 0 } := by
    ext i hi : 1
    simp only [Vector.getElem_map, Vector.getElem_set]
    split
    · next same => subst same; rfl
    · rfl
  simp only [State.offServed, refreshServed, State.modSlot, State.setSlot, slots]

theorem refreshLine_offServed (s : State) (l : Fin 4) : (refreshLine l s).offServed = s.offServed :=
  forSlots_keeps State.offServed refreshServed refreshServed_offServed _ s

theorem rateChanged_offServed (old : Fin 7) (l : Fin 4) (s : State) : (rateChanged old l s).offServed = s.offServed := by
  simp only [rateChanged, apply_ite State.offServed, dissolveLine_offServed, refreshLine_offServed, ite_self]

/-- Profile `i` replaced, its lines still served at the old rate. -/
def State.withProfile (s : State) (i : Fin 4) (p : Profile) : State := { s with profiles := s.profiles.set i p }

theorem withProfile_profiles_self (s : State) (i : Fin 4) (p : Profile) : (s.withProfile i p).profiles[i] = p :=
  Vector.getElem_set_self _

theorem withProfile_profiles_of_ne {i j : Fin 4} (ne : j ≠ i) (s : State) (p : Profile) :
    (s.withProfile i p).profiles[j] = s.profiles[j] :=
  Vector.getElem_set_ne i.isLt j.isLt fun same => ne (Fin.ext same.symm)

/-- A stored profile shows in the served rates and the scheduler alone. -/
theorem storeProfile_offServed (i : Fin 4) (p : Profile) (s : State) :
    (storeProfile i p s).offServed = (s.withProfile i p).offServed :=
  forLines_keeps State.offServed _ (rateChanged_offServed _) _ _

/-- What `offServed` shows. -/
theorem of_offServed {s u : State} (h : s.offServed = u.offServed) :
    s.regs = u.regs ∧ s.engine = u.engine ∧ s.exch = u.exch ∧ s.mem = u.mem ∧ s.profiles = u.profiles ∧
    s.change = u.change ∧ s.editions = u.editions ∧ s.clock = u.clock := by
  have e : ∀ {γ : Type} (g : State → γ), g s.offServed = g u.offServed := fun g => congrArg g h
  exact ⟨e State.regs, e State.engine, e State.exch, e State.mem, e State.profiles, e State.change, e State.editions,
    e State.clock⟩

@[simp] theorem offServed_slot (s : State) (n : Fin 24) : s.offServed.slot n = { s.slot n with served := 0 } := by
  simp [State.offServed, State.slot]

@[simp] theorem offServed_lineOf (s : State) (n : Fin 24) : s.offServed.lineOf n = s.lineOf n := by
  simp [State.lineOf]

@[simp] theorem offServed_servedRate (s : State) (n : Fin 24) : s.offServed.servedRate n = s.servedRate n := by
  simp only [State.servedRate, offServed_slot, offServed_lineOf]
  rfl

theorem slot_eq_of_offServed {s u : State} (h : s.offServed = u.offServed) (n : Fin 24) :
    s.slot n = { u.slot n with served := (s.slot n).served } := by
  have bare : ({ s.slot n with served := 0 } : Slot) = { u.slot n with served := 0 } := by
    rw [← offServed_slot, ← offServed_slot, h]
  exact congrArg (fun v : Slot => { v with served := (s.slot n).served }) bare

/-! ### Served rates (R73) -/

/-- The served rate of slot `n` after a fold whose touching steps work it out anew and whose others leave it. It depends on
`w` alone, which every step keeps. -/
theorem foldl_served {β : Type} {f : β → State → State} {touches : β → Prop} [DecidablePred touches] {w : State}
    {n : Fin 24} (keeps : ∀ b s, (f b s).offServed = s.offServed)
    (served : ∀ b s, s.offServed = w →
      ((f b s).slot n).served = if touches b then w.servedRate n else (s.slot n).served) :
    ∀ (bs : List β) (s : State), s.offServed = w →
      ((bs.foldl (fun s b => f b s) s).slot n).served =
        if ∃ b ∈ bs, touches b then w.servedRate n else (s.slot n).served
  | [], s, _ => by simp
  | b :: bs, s, same => by
    rw [List.foldl_cons, foldl_served keeps served bs _ ((keeps b s).trans same), served b s same]
    by_cases here : touches b
    · simp [here]
    · simp [here]

theorem refreshServed_served (m n : Fin 24) (s : State) :
    ((refreshServed m s).slot n).served = if m = n then s.servedRate n else (s.slot n).served := by
  rw [refreshServed, State.modSlot_slot]
  split
  · next same => rw [same]
  · rfl

theorem refreshLine_served (l : Fin 4) (n : Fin 24) (s : State) :
    ((refreshLine l s).slot n).served = if s.lineOf n = some l then s.servedRate n else (s.slot n).served := by
  have fold := foldl_served (touches := (· = n)) (n := n) refreshServed_offServed (w := s.offServed)
    (fun m u same => by rw [refreshServed_served, ← same, offServed_servedRate]) (s.slotsOn l) s rfl
  simpa [refreshLine, forSlots, State.slotsOn, allSlots] using fold

theorem rateChanged_served (old : Fin 7) (l : Fin 4) (n : Fin 24) (s : State) :
    ((rateChanged old l s).slot n).served = if s.lineOf n = some l then s.servedRate n else (s.slot n).served := by
  rw [← refreshLine_served]
  unfold rateChanged
  simp only
  split
  · rfl
  · rw [dissolveLine_slot]

/-- A stored profile reaches the slots of its lines, and no other. -/
theorem storeProfile_served (i : Fin 4) (p : Profile) (n : Fin 24) (s : State) :
    ((storeProfile i p s).slot n).served =
      if ∃ l, (s.port l).profile = i ∧ s.lineOf n = some l then
        (s.withProfile i p).servedRate n
      else (s.slot n).served := by
  have fold := foldl_served (touches := (s.lineOf n = some ·)) (n := n) (rateChanged_offServed (s.profiles[i]).rate)
    (w := (s.withProfile i p).offServed)
    (fun l u same => by
      have line : u.lineOf n = s.lineOf n := by rw [← offServed_lineOf, same, offServed_lineOf]; rfl
      rw [rateChanged_served, ← same, offServed_servedRate, line])
    (s.linesOf i) (s.withProfile i p) rfl
  rw [offServed_servedRate] at fold
  simp only [State.linesOf, allLines, List.mem_filter, List.mem_finRange, true_and, decide_eq_true_eq] at fold
  exact fold

/-- The rate codes rise with the rates they stand for. -/
theorem baud_le_baud : ∀ r q : Fin 7, baud r ≤ baud q ↔ r ≤ q := by decide

/-- The rate the part works out is the served rate of R73. -/
theorem servedAt_servedRate {s : State} {n : Fin 24} {l : Fin 4} {v : Slot} (line : s.lineOf n = some l)
    (cap : v.cap = (s.slot n).cap) (served : v.served = s.servedRate n) : v.servedAt (s.profileOf l).rate := by
  refine ⟨fun noRecord => ?_, fun c record r => ?_⟩
  · rw [served, State.servedRate, ← cap, noRecord]
  · have lower : v.served = min c.rate (s.profileOf l).rate := by rw [served, State.servedRate, ← cap, record, line]
    rw [lower, baud_le_baud, baud_le_baud, baud_le_baud, le_min_iff, and_comm]

/-! ### SET PROFILE -/

theorem coldStart_profiles (regs : Regs) (s : State) (i : Fin 4) :
    (coldStart regs s).profiles[i] = ⟨3, 40, 2, 2, 3, 8, 8, false, true⟩ :=
  Vector.getElem_replicate i.isLt

theorem exec_restart {s : State} {v : Word} (bit : v.getLsbD 1 = true) (high : s.resetLow = false) :
    exec (.restart v) s = .next (restart s) := by
  simp [exec, execRestart, controlWrite, high, bit]

/-- A refused SET PROFILE is answered BAD_PARAM, and nothing else happens. -/
theorem exec_setProfile_refused {s : State} {t : Strip} (take : s.canTake t .atOnce Kind.setProfile)
    (bad : 4 ≤ (s.request t).param 8 1 ∨ 7 ≤ (s.request t).param 9 1 ∨ 2 ≤ (s.request t).param 16 1) :
    ∃ t', exec (.setProfile t) s = .next t' ∧ Answers t (.plain Outcome.badParam) (takeUp t .atOnce s) t' :=
  scheduled_atOnce take (setProfile_refused bad _) rfl rfl rfl rfl

/-- A stored profile is answered OK with what the clamps changed; the rest of the step is `storeProfile`. -/
theorem exec_setProfile_stored {s : State} {t : Strip} {i : Fin 4} {rate : Fin 7}
    (take : s.canTake t .atOnce Kind.setProfile) (index : (s.request t).param 8 1 = i.val)
    (code : (s.request t).param 9 1 = rate.val) (mode : (s.request t).param 16 1 < 2) :
    ∃ t', exec (.setProfile t) s = .next t' ∧
      Completed t ⟨Outcome.ok, decide ((s.request t).clampCount ≠ 0), (s.request t).clampCount⟩ (takeUp t .atOnce s) t' ∧
      Kept (storeProfile i (readProfile (s.request t) rate).1 (takeUp t .atOnce s)) t' := by
  obtain ⟨regs, engine, exch, mem, -⟩ :=
    of_offServed (storeProfile_offServed i (readProfile (s.request t) rate).1 (takeUp t .atOnce s))
  exact scheduled_atOnce take (setProfile_stored index code mode _) exch mem regs engine

/-- A stored profile leaves a slot alone but for its served rate, which follows the new rate on the lines with that
profile. -/
theorem storeProfile_slots (i : Fin 4) (p : Profile) (s : State) (n : Fin 24) :
    (storeProfile i p s).slot n = { s.slot n with served := ((storeProfile i p s).slot n).served } ∧
    (∀ l, s.lineOf n = some l → (s.port l).profile = i → ((storeProfile i p s).slot n).servedAt p.rate) ∧
    ((∀ l, s.lineOf n = some l → (s.port l).profile ≠ i) →
      ((storeProfile i p s).slot n).served = (s.slot n).served) := by
  have slot := slot_eq_of_offServed (storeProfile_offServed i p s) n
  have cap := congrArg Slot.cap slot
  refine ⟨slot, fun l line profile => ?_, fun others => ?_⟩
  · have served := storeProfile_served i p n s
    rw [if_pos ⟨l, profile, line⟩] at served
    have rate : (s.withProfile i p).profileOf l = p := by
      subst profile
      exact withProfile_profiles_self ..
    have at_line := servedAt_servedRate (s := s.withProfile i p) line cap served
    rwa [rate] at at_line
  · rw [storeProfile_served, if_neg]
    rintro ⟨l, profile, line⟩
    exact others l line profile

/-- Settles O39: the defaults are those of the cold state; a request is refused by `setProfile_refused`, and otherwise the
step keeps what `storeProfile` leaves. -/
theorem setProfileStoresClamped : Obligations.SetProfileStoresClamped := by
  refine ⟨fun s => ⟨_, rfl, coldStart_profiles _ s⟩,
    fun s v bit high => ⟨_, exec_restart bit high, coldStart_profiles _ s⟩, ?_⟩
  intro s t take f u bad timeout gap retries miss keepalive quarantine changed count
  by_cases refused : bad
  · obtain ⟨t', run, answer⟩ := exec_setProfile_refused take refused
    exact ⟨t', run, fun _ => answer, fun _ _ fine => absurd refused fine⟩
  have ranges : f 8 < 4 ∧ f 9 < 7 ∧ f 16 < 2 := by
    simp only [bad, not_or, not_le] at refused
    exact refused
  obtain ⟨index, code, mode⟩ := ranges
  obtain ⟨t', run, completed, kept⟩ :=
    exec_setProfile_stored (i := ⟨f 8, index⟩) (rate := ⟨f 9, code⟩) take rfl rfl mode
  refine ⟨t', run, fun h => absurd h refused, fun i rate _ hi hrate => ?_⟩
  obtain rfl : i = ⟨f 8, index⟩ := Fin.ext hi.symm
  obtain rfl : rate = ⟨f 9, code⟩ := Fin.ext hrate.symm
  obtain ⟨x, taken⟩ := takeUp_atOnce_eq_exch s t
  rw [taken] at kept
  obtain ⟨-, -, -, -, profiles, change, editions, clock⟩ := of_offServed
    (storeProfile_offServed ⟨f 8, index⟩ (readProfile (s.request t) ⟨f 9, code⟩).1 { s with exch := x })
  replace profiles := kept.profiles.trans profiles
  refine ⟨completed, clampCount_le _, ?_, fun j other => ?_, fun n => ?_, kept.change.trans change,
    kept.editions.trans editions, kept.clock.trans clock⟩
  · rw [profiles, withProfile_profiles_self]
    exact readProfile_fst _ _
  · rw [profiles, withProfile_profiles_of_ne other]
  · have slot : t'.slot n = (storeProfile ⟨f 8, index⟩ _ { s with exch := x }).slot n :=
      congrArg (·.slots[n]) kept.roster
    rw [slot]
    exact storeProfile_slots _ _ { s with exch := x } n

end Sys2Proof.Machine

/-!
EVENTS, EVMASK and the interrupt output (R194, R195): what the writes and the power-on answer, the bits of the two
registers, and when they assert the output.
-/
namespace Sys2Proof.Machine

/-! ### What the commands answer -/

theorem exec_powerOn (s : State) : exec .powerOn s = .next (coldStart .cold s) := rfl

theorem exec_eventsClear {s : State} (v : Word) (high : s.resetLow = false) :
    exec (.eventsClear v) s =
      .next { s with regs := { s.regs with events := s.regs.events &&& v.setWidth 8 } } := by
  simp [exec, execEventsClear, high]

theorem exec_evmaskWrite {s : State} (v : Word) (high : s.resetLow = false) :
    exec (.evmaskWrite v) s = .next { s with regs := { s.regs with evmask := v.setWidth 8 } } := by
  simp [exec, execEvmaskWrite, high]

/-! ### Bits of the two registers -/

/-- EVENTS has no bit 8 and up, so those bits of the value written do not matter. -/
theorem getLsbD_and_setWidth_word (e : Byte) (v : Word) (i : Nat) :
    (e &&& v.setWidth 8).getLsbD i = (e.getLsbD i && v.getLsbD i) := by
  rw [BitVec.getLsbD_and, BitVec.getLsbD_setWidth]
  by_cases inside : i < 8
  · simp [inside]
  · simp [BitVec.getLsbD_of_ge e i (by omega)]

/-- A byte of a word read back as a word: bits 0-7 alone. -/
theorem setWidth_setWidth_byte (v : Word) : (v.setWidth 8).setWidth 32 = v &&& 0xFF := by
  have low : v.toNat &&& 255 = v.toNat % 2 ^ 8 := Nat.and_two_pow_sub_one_eq_mod v.toNat 8
  refine BitVec.eq_of_toNat_eq ?_
  rw [BitVec.toNat_and, BitVec.toNat_setWidth, BitVec.toNat_setWidth]
  exact (Nat.mod_eq_of_lt (by omega)).trans low.symm

theorem readRegister_evmask (s : State) : s.readRegister 0x18 = s.regs.evmask.setWidth 32 := rfl

/-- FAULT is raised at the entry to FAULTED itself, by `setNotice`, which no engine state silences. -/
theorem fault_raises_fault (c : FaultCause) (s : State) : (fault c s).regs.events.getLsbD 7 = true := by
  rw [fault, setNotice_bit]
  simp [Notice.bit]

/-! ### The interrupt output -/

theorem interrupt_iff (s : State) :
    s.interrupt = true ↔ ∃ i, s.regs.events.getLsbD i = true ∧ s.regs.evmask.getLsbD i = true := by
  calc s.interrupt = true
      ↔ ¬ s.regs.events &&& s.regs.evmask = 0#8 := decide_eq_true_iff
    _ ↔ ∃ i, (s.regs.events &&& s.regs.evmask).getLsbD i = true := by simp [BitVec.zero_iff_eq_false]
    _ ↔ ∃ i, s.regs.events.getLsbD i = true ∧ s.regs.evmask.getLsbD i = true := by simp

/-- With EVENTS 0 the output is deasserted, whatever EVMASK holds. -/
theorem interrupt_of_events_zero {s : State} (zero : s.regs.events = 0) : s.interrupt = false := by
  simp [State.interrupt, zero]

/-! ### The obligations -/

/-- Settles O7: notices by `raise_bit` and `fault_raises_fault`, the write by its equation and its bits; both resets give
EVENTS 0 outright. -/
theorem eventsClearByZero : Obligations.EventsClearByZero := by
  refine ⟨raise_bit, fun n s faulted => if_pos faulted, fault_raises_fault,
    fun s v high => ?_, fun s => ⟨_, exec_powerOn s, rfl⟩, fun s v bit high => ⟨_, exec_restart bit high, rfl⟩⟩
  exact ⟨_, exec_eventsClear v high, getLsbD_and_setWidth_word s.regs.events v, rfl⟩

/-- Settles O8: EVMASK by the equation of its write, the output by `interrupt_iff`; RESTART keeps EVMASK and the output is
deasserted because EVENTS is 0. -/
theorem evmaskGatesInterrupt : Obligations.EvmaskGatesInterrupt := by
  refine ⟨fun s v high => ?_, interrupt_iff, fun s => ⟨_, exec_powerOn s, rfl⟩, fun s v bit high => ?_⟩
  · refine ⟨_, exec_evmaskWrite v high, ?_, rfl⟩
    rw [readRegister_evmask, setWidth_setWidth_byte]
  · exact ⟨_, exec_restart bit high, rfl, interrupt_of_events_zero rfl⟩

end Sys2Proof.Machine

/-!
What a command can do to the engine state and to a FAULTED part (R203, R209): a command without a row of its own in the table
of engine states keeps the spine of the state, and all but a few commands leave a FAULTED part as it is.
-/
namespace Sys2Proof.Machine

/-! ### Commands that keep the spine -/

/-- A command outside the table of engine states answers a next state with the same spine. -/
theorem exec_spine {c : Instr} (plain : plainCmd c = true) (s : State) : ∃ t, exec c s = .next t ∧ t.spine = s.spine := by
  cases c with
  | kick v => exact execKick_spine v s
  | scanIntervalExpiry => exact execScanIntervalExpiry_spine s
  | applyChanges t => exact execApplyChanges_spine t s
  | changeItem => exact execChangeItem_spine s
  | batchEnd => exact execBatchEnd_spine s
  | formatImage t => exact execFormatImage_spine t s
  | formatSwitch => exact execFormatSwitch_spine s
  | rebuildImage t => exact execRebuildImage_spine t s
  | rebuildSlice => exact execRebuildSlice_spine s
  | purgeJob => exact execPurgeJob_spine s
  | loadEdition t => exact execLoadEdition_spine t s
  | productRecord => exact execProductRecord_spine s
  | rescheduleEdition t => exact execRescheduleEdition_spine t s
  | withdrawEdition t => exact execWithdrawEdition_spine t s
  | setClock t => exact execSetClock_spine t s
  | minuteTick => exact execMinuteTick_spine s
  | pinSlot t => exact execPinSlot_spine t s
  | freeSlot t => exact execFreeSlot_spine t s
  | releaseSlot t => exact execReleaseSlot_spine t s
  | resyncSlot t => exact execResyncSlot_spine t s
  | clearCounters t => exact execClearCounters_spine t s
  | setLine t => exact execSetLine_spine t s
  | setProfile t => exact execSetProfile_spine t s
  | lineModeChangeApplied l => exact execLineModeChangeApplied_spine l s
  | keepaliveDue n => exact execKeepaliveDue_spine n s
  | backoffExpiry n => exact execBackoffExpiry_spine n s
  | replacementWindowClose n => exact execReplacementWindowClose_spine n s
  | discoveryVisitDue => exact execDiscoveryVisitDue_spine s
  | identifyDue n => exact execIdentifyDue_spine n s
  | lineRecordTimer l => exact execLineRecordTimer_spine l s
  | frameStart l => exact execFrameStart_spine l s
  | frameSent l => exact execFrameSent_spine l s
  | echoJudged l copy inTime => exact execEchoJudged_spine l copy inTime s
  | headerMark l side => exact execHeaderMark_spine l side s
  | frameReceived l bytes ending => exact execFrameReceived_spine l bytes ending s
  | replyTimeout l => exact execReplyTimeout_spine l s
  | gapEnd l => exact execGapEnd_spine l s
  | status l => exact execStatus_spine l s
  | ident l => exact execIdent_spine l s
  | accept l => exact execAccept_spine l s
  | refuse l => exact execRefuse_spine l s
  | pageAck l => exact execPageAck_spine l s
  | closeAck l => exact execCloseAck_spine l s
  | checkReport l => exact execCheckReport_spine l s
  | busy l => exact execBusy_spine l s
  | reportRewrite r => exact execReportRewrite_spine r s
  | powerOn | run | restart | registerWrite | eventsClear | evmaskWrite | descriptorRead | startingEnd | drainComplete
  | memoryError | resetPinLow => cases plain

/-! ### Commands that leave a FAULTED part as it is -/

/-- The commands that FAULTED makes void: all but those of the reset pin and the registers, and the four by which time
passes. -/
def restsFaulted : Instr → Bool
  | .powerOn | .run _ | .restart _ | .registerWrite _ _ _ | .eventsClear _ | .evmaskWrite _ | .resetPinLow | .minuteTick
  | .replacementWindowClose _ | .frameSent _ => false
  | _ => true

theorem isFaulted_iff (s : State) : s.isFaulted = true ↔ ∃ cause, s.engine = .faulted cause := by
  unfold State.isFaulted
  split
  · next cause e => simp [e]
  · next other =>
    refine ⟨fun h => (Bool.false_ne_true h).elim, fun ⟨cause, e⟩ => absurd e (other cause)⟩

theorem working_of_faulted {s : State} (faulted : s.isFaulted = true) : s.working = false := by
  obtain ⟨cause, e⟩ := (isFaulted_iff s).1 faulted
  simp [State.working, e]

theorem running_of_faulted {s : State} (faulted : s.isFaulted = true) : s.running = false := by
  obtain ⟨cause, e⟩ := (isFaulted_iff s).1 faulted
  simp [State.running, e]

theorem canAccess_of_faulted {s : State} (faulted : s.isFaulted = true) : s.canAccess = false := by
  obtain ⟨cause, e⟩ := (isFaulted_iff s).1 faulted
  simp [State.canAccess, e]

theorem engine_ne_of_faulted {s : State} (faulted : s.isFaulted = true) {e : Engine} (other : ∀ c, e ≠ .faulted c) :
    s.engine ≠ e := by
  obtain ⟨cause, same⟩ := (isFaulted_iff s).1 faulted
  rw [same]
  exact (other cause).symm

theorem recorded_nothing {s : State} {f : State → State} (same : f s = s) : recorded s f = .next s := by
  simp only [recorded, same, settle_self, ite_self]

theorem mayTake_of_not_working {s : State} (rest : s.working = false) (t : Strip) (o : Owner) (k : Nat) :
    s.mayTake t o k = false := by simp [State.mayTake, rest]

theorem mayApply_of_not_working {s : State} (rest : s.working = false) (t : Strip) : s.mayApply t = false := by
  simp [State.mayApply, mayTake_of_not_working rest, rest]

theorem mayPurge_of_not_working {s : State} (rest : s.working = false) : s.mayPurge = false := by
  simp [State.mayPurge, rest]

theorem sliceReady_of_not_working {s : State} (rest : s.working = false) : s.sliceReady = false := by
  simp [State.sliceReady, rest]

theorem atOnce_of_not_working {s : State} (rest : s.working = false) (t : Strip) (k : Nat)
    (answer : Request → State → State × Result) : atOnce t k answer s = s := by
  simp [atOnce, mayTake_of_not_working rest]

theorem replyHeld_of_not_working {s : State} (rest : s.working = false) (l : Fin 4) (code : Byte) :
    s.replyHeld l code = none := by
  unfold State.replyHeld
  split <;> simp [rest]

theorem takeReply_of_not_working {s : State} (rest : s.working = false) (l : Fin 4) (code : Byte)
    (f : Exchange → List Byte → Fin 24 → State → State) : takeReply l code f s = s := by
  simp [takeReply, replyHeld_of_not_working rest]

theorem hears_of_not_working {s : State} (rest : s.working = false) (l : Fin 4) (side : Side) :
    s.hears l side = false := by simp [State.hears, State.listens, rest]

theorem exec_of_faulted {c : Instr} (rests : restsFaulted c = true) {s : State} (faulted : s.isFaulted = true) :
    exec c s = .next s := by
  have idle := working_of_faulted faulted
  have still := running_of_faulted faulted
  have notRunning : s.engine ≠ .running := engine_ne_of_faulted faulted (fun _ => nofun)
  have notStarting : s.engine ≠ .starting := engine_ne_of_faulted faulted (fun _ => nofun)
  have notStopping : s.engine ≠ .stopping := engine_ne_of_faulted faulted (fun _ => nofun)
  have scheduled_rests {f : State → State} (same : f s = s) : scheduled s f = .next s :=
    scheduled_nothing notRunning same
  unfold exec
  cases c with
  | powerOn | run | restart | registerWrite | eventsClear | evmaskWrite | resetPinLow | minuteTick
  | replacementWindowClose | frameSent => cases rests
  | kick v => exact scheduled_rests (by simp [still])
  | scanIntervalExpiry => exact scheduled_rests (by simp [still])
  | descriptorRead => exact recorded_nothing (by simp [notStarting])
  | startingEnd => exact scheduled_rests (by simp [notStarting])
  | drainComplete => exact scheduled_rests (by simp [notStopping])
  | memoryError a => exact recorded_nothing (by simp [canAccess_of_faulted faulted])
  | applyChanges t => exact scheduled_rests (by simp [mayApply_of_not_working idle])
  | changeItem => exact scheduled_rests (by cases s.change.batch <;> simp [idle])
  | batchEnd => exact scheduled_rests (by split <;> simp [idle])
  | formatImage t => exact scheduled_rests (by simp [mayTake_of_not_working idle])
  | formatSwitch => exact scheduled_rests (by split <;> simp [idle])
  | rebuildImage t => exact scheduled_rests (by simp [mayTake_of_not_working idle])
  | rebuildSlice => exact scheduled_rests (by split <;> simp [sliceReady_of_not_working idle])
  | purgeJob => exact scheduled_rests (by simp [mayPurge_of_not_working idle])
  | loadEdition t => exact scheduled_rests (by simp [mayTake_of_not_working idle])
  | productRecord => exact scheduled_rests (by split <;> simp [idle])
  | rescheduleEdition t => exact scheduled_rests (by simp [mayTake_of_not_working idle])
  | withdrawEdition t => exact scheduled_rests (by simp [mayTake_of_not_working idle])
  | setClock t => exact scheduled_rests (by simp [mayTake_of_not_working idle])
  | pinSlot t | freeSlot t | releaseSlot t | resyncSlot t | clearCounters t | setLine t | setProfile t =>
    exact scheduled_rests (atOnce_of_not_working idle _ _ _)
  | lineModeChangeApplied l => exact scheduled_rests (by simp [idle])
  | keepaliveDue n => exact scheduled_rests (by simp [still])
  | backoffExpiry n => exact scheduled_rests (by simp [still])
  | discoveryVisitDue => exact scheduled_rests (by simp [still])
  | identifyDue n => exact scheduled_rests (by simp [still])
  | lineRecordTimer l => exact recorded_nothing (by simp [idle])
  | frameStart l => exact scheduled_rests (by split <;> simp [idle])
  | echoJudged l copy inTime => exact scheduled_rests (by simp [idle])
  | headerMark l side => exact scheduled_rests (by split <;> simp [hears_of_not_working idle])
  | frameReceived l bytes ending => exact scheduled_rests (by split <;> simp [hears_of_not_working idle])
  | replyTimeout l => exact scheduled_rests (by split <;> simp [idle])
  | gapEnd l => exact scheduled_rests (by simp [idle])
  | status l | accept l | pageAck l | closeAck l | checkReport l =>
    exact scheduled_rests (takeReply_of_not_working idle _ _ _)
  | ident l => exact scheduled_rests (by simp [replyHeld_of_not_working idle])
  | refuse l =>
    refine scheduled_rests ?_
    have uncounted : countRefusal l s = s := by simp [countRefusal, replyHeld_of_not_working idle]
    rw [uncounted, takeReply_of_not_working idle]
  | busy l => exact scheduled_rests (by simp [takeBusy, replyHeld_of_not_working idle])
  | reportRewrite r => exact recorded_nothing (by simp [idle, notStarting])

/-! ### What the other commands do to a FAULTED part -/

/-- What FAULTED keeps: no shared-memory access, no frame started, no notice raised, no way out. -/
structure StaysFaulted (s t : State) : Prop where
  mem : t.mem = s.mem
  engine : t.engine = s.engine
  counts : t.report.counts = s.report.counts
  sending : ∀ l, (t.port l).xstate = .sending → (s.port l).xstate = .sending
  events : ∀ i, t.regs.events.getLsbD i = true → s.regs.events.getLsbD i = true

theorem StaysFaulted.refl (s : State) : StaysFaulted s s := ⟨rfl, rfl, rfl, fun _ h => h, fun _ h => h⟩

theorem StaysFaulted.settled {s u t : State} (stays : StaysFaulted s u) (settled : Settled u t) : StaysFaulted s t where
  mem := settled.mem.trans stays.mem
  engine := settled.engine.trans stays.engine
  counts := settled.counts.trans stays.counts
  sending l h := stays.sending l ((congrArg Port.xstate (settled.ports l)).symm.trans h)
  events i h := stays.events i (by rwa [settled.events] at h)

theorem scheduled_staysFaulted {s t : State} {f : State → State} (run : scheduled s f = .next t)
    (stays : StaysFaulted s (f s)) : StaysFaulted s t := by
  cases high : s.resetLow with
  | false =>
    rw [scheduled_next high] at run
    cases run
    exact stays.settled (settled_boundaries s (f s))
  | true =>
    simp only [scheduled, recorded, high, if_true] at run
    cases run
    exact .refl s

theorem recorded_staysFaulted {s t : State} {f : State → State} (run : recorded s f = .next t)
    (stays : StaysFaulted s (f s)) : StaysFaulted s t := by
  cases high : s.resetLow with
  | false =>
    rw [recorded_next high] at run
    cases run
    exact stays.settled (settled_settle s (f s))
  | true =>
    simp only [recorded, high, if_true] at run
    cases run
    exact .refl s

theorem raise_of_faulted {s : State} (faulted : s.isFaulted = true) (n : Notice) : raise n s = s := if_pos faulted

theorem clockNotice_of_faulted {s : State} (faulted : s.isFaulted = true) : clockNotice s = s := by
  simp [clockNotice, running_of_faulted faulted, faulted]

/-- A purge job that is queued shows in the change engine alone. -/
theorem queuePurge_eq_change (s : State) : ∃ c, queuePurge s = { s with change := c } := by
  unfold queuePurge
  split
  · exact ⟨s.change, rfl⟩
  · split
    · exact ⟨_, rfl⟩
    · exact ⟨s.change, rfl⟩

theorem serviceDayEffects_of_faulted {s : State} (faulted : s.isFaulted = true) (old : Option Nat) :
    ∃ c, serviceDayEffects old s = { s with change := c } := by
  obtain ⟨c, queued⟩ := queuePurge_eq_change s
  have purged : clockNotice (queuePurge s) = { s with change := c } := by
    rw [queued]
    exact clockNotice_of_faulted (s := { s with change := c }) faulted
  unfold serviceDayEffects
  simp only
  split
  · exact ⟨c, purged⟩
  · split
    · exact ⟨c, purged⟩
    · split
      · exact ⟨s.change, clockNotice_of_faulted faulted⟩
      · exact ⟨s.change, rfl⟩

theorem tickTests_of_not_working {s : State} (rest : s.working = false) : tickTests s = s := by
  simp [tickTests, editionTests, rest]

/-- In FAULTED the clock goes on, and a new service day still queues a purge job (R209). -/
theorem tickClock_of_faulted {s : State} (faulted : s.isFaulted = true) :
    ∃ c, tickClock s = { s with clock := s.clock.tick, change := c } := by
  obtain ⟨c, effects⟩ := serviceDayEffects_of_faulted (s := { s with clock := s.clock.tick }) faulted (some s.clock.serviceDay)
  have still : ({ s with clock := s.clock.tick, change := c } : State).running = false := running_of_faulted faulted
  have idle : ({ s with clock := s.clock.tick, change := c } : State).working = false := working_of_faulted faulted
  refine ⟨c, ?_⟩
  unfold tickClock
  simp only [effects, still, Bool.false_eq_true, if_false, tickTests_of_not_working idle]

theorem minuteTick_staysFaulted {s t : State} (faulted : s.isFaulted = true) (run : execMinuteTick s = .next t) :
    StaysFaulted s t := by
  unfold execMinuteTick at run
  refine scheduled_staysFaulted run ?_
  split
  · split
    · unfold stopClock
      split
      · exact .refl s
      · rw [raise_of_faulted (s := { s with clock := { s.clock with stopped := true } }) faulted]
        exact ⟨rfl, rfl, rfl, fun _ h => h, fun _ h => h⟩
    · obtain ⟨c, ticked⟩ := tickClock_of_faulted faulted
      rw [ticked]
      exact ⟨rfl, rfl, rfl, fun _ h => h, fun _ h => h⟩
  · exact .refl s

/-- A frame that FAULTED found on the wire ends, and its port is IDLE (R116). -/
theorem frameSent_staysFaulted {s t : State} {l : Fin 4} (faulted : s.isFaulted = true)
    (run : execFrameSent l s = .next t) : StaysFaulted s t := by
  unfold execFrameSent at run
  refine scheduled_staysFaulted run ?_
  split
  · split
    · exact .refl s
    · refine ⟨rfl, rfl, rfl, fun k h => ?_, fun _ h => h⟩
      rw [State.modPort_port] at h
      split at h
      · cases h
      · exact h
  · exact .refl s

theorem eventsClear_staysFaulted {s t : State} {v : Word} (run : execEventsClear v s = .next t) : StaysFaulted s t := by
  cases run
  split
  · exact .refl s
  · refine ⟨rfl, rfl, rfl, fun _ h => h, fun i h => ?_⟩
    simp only [BitVec.getLsbD_and, Bool.and_eq_true] at h
    exact h.1

theorem evmaskWrite_staysFaulted {s t : State} {v : Word} (run : execEvmaskWrite v s = .next t) : StaysFaulted s t := by
  cases run
  split
  · exact .refl s
  · exact ⟨rfl, rfl, rfl, fun _ h => h, fun _ h => h⟩

/-- Only bit 1 of a write to CONTROL does anything in FAULTED. -/
theorem controlWrite_of_faulted {s t : State} {v : Word} (faulted : s.isFaulted = true)
    (run : controlWrite v s = .next t) : t.mem = s.mem ∧ (v.getLsbD 1 = true ∨ t = s) := by
  unfold controlWrite at run
  split at run
  · cases run
    exact ⟨rfl, .inr rfl⟩
  · split at run
    · next bit =>
      cases run
      exact ⟨rfl, .inl bit⟩
    · cases run
      exact ⟨rfl, .inr rfl⟩

/-- The ways out of FAULTED: power-on and RESTART. -/
def leavesFaulted (c : Instr) : Prop :=
  c = .powerOn ∨ ∃ v, v.getLsbD 1 = true ∧ (c = .restart v ∨ c = .run v ∨ ∃ st, c = .registerWrite 0x04 v st)

theorem registerPort_of_faulted {s t : State} {o v : Word} (faulted : s.isFaulted = true)
    (run : registerPort o v s = .next t) :
    t.mem = s.mem ∧ ((o = 0x04 ∧ v.getLsbD 1 = true) ∨ StaysFaulted s t) := by
  unfold registerPort at run
  split at run
  · next control =>
    obtain ⟨mem, restart | same⟩ := controlWrite_of_faulted faulted run
    · exact ⟨mem, .inl ⟨control, restart⟩⟩
    · exact ⟨mem, .inr (same ▸ .refl s)⟩
  · suffices stays : StaysFaulted s t from ⟨stays.mem, .inr stays⟩
    split at run
    · have rests : execKick v s = .next s := exec_of_faulted (c := .kick v) rfl faulted
      cases rests.symm.trans run
      exact .refl s
    · split at run
      · exact eventsClear_staysFaulted run
      · split at run
        · exact evmaskWrite_staysFaulted run
        · cases run
          split
          · exact .refl s
          · split
            · exact ⟨rfl, rfl, rfl, fun _ h => h, fun _ h => h⟩
            · exact .refl s

theorem replacementWindowClose_staysFaulted {s t : State} {n : Fin 24}
    (run : execReplacementWindowClose n s = .next t) : StaysFaulted s t := by
  unfold execReplacementWindowClose at run
  exact recorded_staysFaulted run ⟨rfl, rfl, rfl, fun _ h => h, fun _ h => h⟩

/-- Settles O15: most commands leave a FAULTED part alone (`exec_of_faulted`), and the others one by one. -/
theorem faultedTouchesNoMemory : Obligations.FaultedTouchesNoMemory := by
  intro s c t faulted run unstored
  suffices goal : t.mem = s.mem ∧ (leavesFaulted c ∨ StaysFaulted s t) by
    obtain ⟨mem, (rfl | out) | stays⟩ := goal
    · exact ⟨mem, .inl rfl⟩
    · exact ⟨mem, .inr (.inl out)⟩
    · exact ⟨mem, .inr (.inr ⟨stays.engine, stays.counts, stays.sending, stays.events⟩)⟩
  have stays (h : StaysFaulted s t) : t.mem = s.mem ∧ (leavesFaulted c ∨ StaysFaulted s t) := ⟨h.mem, .inr h⟩
  have control {v : Word} (written : controlWrite v s = .next t) (named : c = .restart v ∨ c = .run v) :
      t.mem = s.mem ∧ (leavesFaulted c ∨ StaysFaulted s t) := by
    obtain ⟨mem, bit | same⟩ := controlWrite_of_faulted faulted written
    · exact ⟨mem, .inl (.inr ⟨v, bit, named.imp_right .inl⟩)⟩
    · exact ⟨mem, .inr (same ▸ .refl s)⟩
  by_cases rests : restsFaulted c = true
  · cases (exec_of_faulted rests faulted).symm.trans run
    exact stays (.refl s)
  · cases c with
    | powerOn =>
      cases run
      exact ⟨rfl, .inl (.inl rfl)⟩
    | run v => exact control run (.inr rfl)
    | restart v => exact control run (.inl rfl)
    | registerWrite o v st =>
      cases unstored o v st rfl
      obtain ⟨mem, ⟨rfl, bit⟩ | rest⟩ := registerPort_of_faulted (s := s) faulted run
      · exact ⟨mem, .inl (.inr ⟨v, bit, .inr (.inr ⟨_, rfl⟩)⟩)⟩
      · exact stays rest
    | eventsClear v => exact stays (eventsClear_staysFaulted run)
    | evmaskWrite v => exact stays (evmaskWrite_staysFaulted run)
    | resetPinLow =>
      cases run
      exact stays ⟨rfl, rfl, rfl, fun _ h => h, fun _ h => h⟩
    | minuteTick => exact stays (minuteTick_staysFaulted faulted run)
    | replacementWindowClose n => exact stays (replacementWindowClose_staysFaulted run)
    | frameSent l => exact stays (frameSent_staysFaulted faulted run)
    | _ => exact absurd rfl rests

/-! ### The table of engine states (R203) -/

/-- What the spine shows. -/
theorem of_spine {s : State} {p : Spine} (h : s.spine = p) :
    s.engine = p.engine ∧ s.resetLow = p.resetLow ∧ s.pending = p.pending ∧ s.regs.run = p.run ∧
    s.regs.xbase = p.xbase ∧ s.regs.evmask = p.evmask ∧ s.exch.descriptor = p.descriptor := by
  subst h
  exact ⟨rfl, rfl, rfl, rfl, rfl, rfl, rfl⟩

theorem scheduled_next_engine {s t : State} {f : State → State} (run : scheduled s f = .next t) :
    t.engine = s.engine ∨ t.engine = (f s).engine := by
  cases high : s.resetLow with
  | false =>
    rw [scheduled_next high] at run
    cases run
    exact .inr (settled_boundaries s (f s)).engine
  | true =>
    simp only [scheduled, recorded, high, if_true] at run
    cases run
    exact .inl rfl

theorem recorded_next_engine {s t : State} {f : State → State} (run : recorded s f = .next t) :
    t.engine = s.engine ∨ t.engine = (f s).engine := by
  cases high : s.resetLow with
  | false =>
    rw [recorded_next high] at run
    cases run
    exact .inr (settled_settle s (f s)).engine
  | true =>
    simp only [recorded, high, if_true] at run
    cases run
    exact .inl rfl

/-- Where RUN, taken as `run`, leads from an engine state. -/
def Engine.takeRun : Engine → Bool → Engine
  | .haltedCold, true => .starting
  | .starting, false => .haltedCold
  | .running, false => .stopping
  | .haltedResumable, true => .running
  | e, _ => e

theorem takeRun_engine (run : Bool) (s : State) : (takeRun run s).engine = s.engine.takeRun run := by
  have resumed (u : State) : (resume u).engine = .running := congrArg Spine.engine (resume_spine u)
  unfold takeRun
  cases e : s.engine <;> cases run <;> simp [Engine.takeRun, resumed, stopScan]

/-- The rows of the table that a write to CONTROL takes. -/
def controlMoves (v : Word) (old new : Engine) : Prop :=
  (v.getLsbD 1 = true ∧ new = .haltedCold) ∨
  (v.getLsbD 1 = false ∧ v.getLsbD 0 = true ∧
    ((old = .haltedCold ∧ new = .starting) ∨ (old = .haltedResumable ∧ new = .running))) ∨
  (v.getLsbD 1 = false ∧ v.getLsbD 0 = false ∧
    ((old = .starting ∧ new = .haltedCold) ∨ (old = .running ∧ new = .stopping)))

theorem controlMoves_takeRun {v : Word} {e : Engine} (bit : v.getLsbD 1 = false)
    (moved : e.takeRun (v.getLsbD 0) ≠ e) : controlMoves v e (e.takeRun (v.getLsbD 0)) := by
  unfold controlMoves
  cases b : v.getLsbD 0 <;> cases e <;> simp_all [Engine.takeRun]

theorem controlWrite_moves {s t : State} {v : Word} (run : controlWrite v s = .next t) (moved : t.engine ≠ s.engine) :
    controlMoves v s.engine t.engine := by
  unfold controlWrite at run
  split at run
  · cases run
    exact absurd rfl moved
  · split at run
    · next bit =>
      cases run
      exact .inl ⟨bit, rfl⟩
    · next bit =>
      split at run
      · cases run
        exact absurd rfl moved
      · obtain same | same := scheduled_next_engine run
        · exact absurd same moved
        · rw [takeRun_engine] at same
          rw [same] at moved ⊢
          exact controlMoves_takeRun (by simpa using bit) moved

theorem registerWrite_moves {s t : State} {o v : Word} {st : List (Word × Byte)}
    (run : execRegisterWrite o v st s = .next t) (moved : t.engine ≠ s.engine) :
    o = 0x04 ∧ controlMoves v s.engine t.engine := by
  unfold execRegisterWrite registerPort at run
  split at run
  · next control => exact ⟨control, controlWrite_moves (s := { s with mem := Memory.storeAll s.mem st }) run moved⟩
  · refine absurd ?_ moved
    split at run
    · obtain ⟨x, kicked, spine⟩ := execKick_spine v { s with mem := Memory.storeAll s.mem st }
      cases kicked.symm.trans run
      exact congrArg Spine.engine spine
    · split at run
      · cases run
        split <;> rfl
      · split at run
        · cases run
          split <;> rfl
        · cases run
          split
          · rfl
          · split <;> rfl

theorem descriptorRead_moves {s t : State} (run : execDescriptorRead s = .next t) (moved : t.engine ≠ s.engine) :
    s.engine = .starting ∧ t.engine = .faulted .descriptor := by
  unfold execDescriptorRead at run
  obtain same | same := recorded_next_engine run
  · exact absurd same moved
  · simp only at same
    split at same
    · next due =>
      split at same
      · exact absurd same moved
      · exact ⟨due.1, same⟩
    · exact absurd same moved

theorem startingEnd_moves {s t : State} (run : execStartingEnd s = .next t) (moved : t.engine ≠ s.engine) :
    s.engine = .starting ∧ t.engine = .running := by
  unfold execStartingEnd at run
  obtain same | same := scheduled_next_engine run
  · exact absurd same moved
  · split at same
    · next due => exact ⟨due.1, same.trans (congrArg Spine.engine (enterRunning_spine s))⟩
    · exact absurd same moved

theorem flushRecords_spine (s : State) : (flushRecords s).spine = s.spine := by
  unfold flushRecords
  generalize List.finRange 29 = records
  refine foldl_keeps State.spine (fun u r => if u.report.wanted[r] then rewriteRecord r u else u) (fun u r => ?_) records s
  split
  · exact rewriteRecord_spine r u
  · rfl

theorem halted_spine (s : State) : (halted s).spine = { s.spine with engine := .haltedResumable } := by
  have flushed := flushRecords_spine s
  unfold halted
  generalize flushRecords s = u at flushed ⊢
  rw [rewriteRecord_spine, ← flushed]
  rfl

theorem drainComplete_moves {s t : State} (run : execDrainComplete s = .next t) (moved : t.engine ≠ s.engine) :
    s.engine = .stopping ∧ t.engine = if s.regs.run then .running else .haltedResumable := by
  unfold execDrainComplete at run
  obtain same | same := scheduled_next_engine run
  · exact absurd same moved
  · simp only at same
    split at same
    · next due =>
      obtain ⟨halts, -, -, kept, -⟩ := of_spine (halted_spine s)
      obtain ⟨resumes, -⟩ := of_spine (resume_spine (halted s))
      refine ⟨due.1, same.trans ?_⟩
      rw [kept, apply_ite State.engine, halts, resumes]
      rfl
    · exact absurd same moved

theorem memoryError_moves {s t : State} {a : Access} (run : execMemoryError a s = .next t) (moved : t.engine ≠ s.engine) :
    s.engine ≠ .haltedCold ∧ s.isFaulted = false ∧ t.engine = .faulted .memory := by
  unfold execMemoryError at run
  obtain same | same := recorded_next_engine run
  · exact absurd same moved
  · split at same
    · next access =>
      refine ⟨fun cold => by simp [State.canAccess, cold] at access, ?_, same⟩
      by_contra faulted
      simp [canAccess_of_faulted (by simpa using faulted : s.isFaulted = true)] at access
    · exact absurd same moved

/-- Settles O16: a command without a row of its own keeps the spine, and each of the others moves by its row. -/
theorem engineMovesByTable : Obligations.EngineMovesByTable := by
  intro s c t run moved written
  have control {v : Word} (row : controlMoves v s.engine t.engine) (named : written v) :
      (∃ v, written v ∧ v.getLsbD 1 = true ∧ t.engine = .haltedCold) ∨
      (∃ v, written v ∧ v.getLsbD 1 = false ∧ v.getLsbD 0 = true ∧
        ((s.engine = .haltedCold ∧ t.engine = .starting) ∨ (s.engine = .haltedResumable ∧ t.engine = .running))) ∨
      (∃ v, written v ∧ v.getLsbD 1 = false ∧ v.getLsbD 0 = false ∧
        ((s.engine = .starting ∧ t.engine = .haltedCold) ∨ (s.engine = .running ∧ t.engine = .stopping))) :=
    row.imp (fun h => ⟨v, named, h⟩) (.imp (fun h => ⟨v, named, h⟩) fun h => ⟨v, named, h⟩)
  by_cases plain : plainCmd c = true
  · obtain ⟨x, answer, spine⟩ := exec_spine plain s
    cases answer.symm.trans run
    exact absurd (congrArg Spine.engine spine) moved
  · cases c with
    | powerOn =>
      cases run
      exact .inl ⟨rfl, rfl⟩
    | run v =>
      rcases control (controlWrite_moves run moved) (.inl rfl) with row | row | row
      exacts [.inr (.inl row), .inr (.inr (.inl row)), .inr (.inr (.inr (.inl row)))]
    | restart v =>
      rcases control (controlWrite_moves run moved) (.inr (.inl rfl)) with row | row | row
      exacts [.inr (.inl row), .inr (.inr (.inl row)), .inr (.inr (.inr (.inl row)))]
    | registerWrite o v st =>
      obtain ⟨rfl, moves⟩ := registerWrite_moves run moved
      rcases control moves (.inr (.inr ⟨st, rfl⟩)) with row | row | row
      exacts [.inr (.inl row), .inr (.inr (.inl row)), .inr (.inr (.inr (.inl row)))]
    | eventsClear v =>
      cases run
      refine absurd ?_ moved
      split <;> rfl
    | evmaskWrite v =>
      cases run
      refine absurd ?_ moved
      split <;> rfl
    | resetPinLow =>
      cases run
      exact absurd rfl moved
    | descriptorRead => exact .inr (.inr (.inr (.inr (.inl ⟨rfl, descriptorRead_moves run moved⟩))))
    | startingEnd => exact .inr (.inr (.inr (.inr (.inr (.inl ⟨rfl, startingEnd_moves run moved⟩)))))
    | drainComplete => exact .inr (.inr (.inr (.inr (.inr (.inr (.inl ⟨rfl, drainComplete_moves run moved⟩))))))
    | memoryError a => exact .inr (.inr (.inr (.inr (.inr (.inr (.inr ⟨⟨a, rfl⟩, memoryError_moves run moved⟩))))))
    | _ => exact absurd rfl plain

end Sys2Proof.Machine

/-!
Reset, power-on, RESTART and the registers without a row of their own (R183 to R185, R203, R204), and that no command stops
the model.
-/
namespace Sys2Proof.Machine

/-- Settles O1: a step takes the front of the queue, by its definition. -/
theorem stepRunsFrontCommand : Obligations.StepRunsFrontCommand := fun _ _ _ => rfl

/-! ### The state after power-on -/

theorem reset_readRegister {o : Word} (other : o ≠ 0) : State.reset.readRegister o = 0 := by
  have first : (o = 0x00) = False := eq_false other
  simp only [State.readRegister, first, if_false]
  repeat' split
  all_goals rfl

theorem reset_slot (n : Fin 24) : State.reset.slot n = .cold := Vector.getElem_replicate _
theorem reset_delivery (n : Fin 24) : State.reset.delivery n = none := Vector.getElem_replicate _
theorem reset_sweep (n : Fin 24) : State.reset.sweep n = .cold := Vector.getElem_replicate _
theorem reset_port (l : Fin 4) : State.reset.port l = .cold := Vector.getElem_replicate _
theorem reset_profile (l : Fin 4) : State.reset.profiles[l] = .default := Vector.getElem_replicate l.isLt
theorem reset_count (r : Fin 29) : State.reset.report.counts[r] = 0 := Vector.getElem_replicate r.isLt

/-- Settles O3: the roster slots, the lines and the records by the value their table is filled with. -/
theorem resetState : Obligations.ResetState := by
  refine ⟨fun o other => reset_readRegister other, rfl, rfl, rfl, rfl, rfl, rfl, rfl, fun n => ?_, fun l => ?_, rfl, rfl,
    fun u => ?_, reset_count, rfl⟩
  · rw [reset_slot, reset_delivery, reset_sweep]
    exact ⟨rfl, rfl, rfl, rfl, rfl⟩
  · rw [reset_port]
    exact ⟨rfl, rfl, rfl, reset_profile l⟩
  · cases u <;> rfl

/-! ### The reset pin, power-on and RESTART -/

theorem driverEnable_of_resetLow {s : State} (low : s.resetLow = true) (l : Fin 4) : s.driverEnable l = false := by
  simp only [State.driverEnable, List.any_eq_false]
  intro a _
  split <;> simp [low]

theorem recorded_of_resetLow {s : State} (low : s.resetLow = true) (f : State → State) : recorded s f = .next s := by
  simp [recorded, low]

theorem scheduled_of_resetLow {s : State} (low : s.resetLow = true) (f : State → State) : scheduled s f = .next s :=
  recorded_of_resetLow low _

theorem controlWrite_of_resetLow {s : State} (low : s.resetLow = true) (v : Word) : controlWrite v s = .next s := by
  simp [controlWrite, low]

theorem registerPort_of_resetLow {s : State} (low : s.resetLow = true) (o v : Word) : registerPort o v s = .next s := by
  unfold registerPort
  split
  · exact controlWrite_of_resetLow low v
  · split
    · exact scheduled_of_resetLow low _
    · simp [execEventsClear, execEvmaskWrite, low]

/-- With the reset pin low a command does nothing, POWER_ON apart (log 23). -/
theorem exec_of_resetLow {s : State} (low : s.resetLow = true) {c : Instr} (held : c ≠ .powerOn)
    (unstored : ∀ o v st, c = .registerWrite o v st → st = []) : exec c s = .next s := by
  unfold exec
  cases c with
  | powerOn => exact absurd rfl held
  | run v => exact controlWrite_of_resetLow low v
  | restart v => exact controlWrite_of_resetLow low v
  | registerWrite o v st =>
    cases unstored o v st rfl
    exact registerPort_of_resetLow (s := s) low o v
  | eventsClear v => simp [execEventsClear, low]
  | evmaskWrite v => simp [execEvmaskWrite, low]
  | resetPinLow => cases s; cases low; rfl
  | descriptorRead | memoryError | replacementWindowClose | lineRecordTimer | reportRewrite =>
    exact recorded_of_resetLow low _
  | _ => exact scheduled_of_resetLow low _

theorem exec_restart_eq {s : State} {v : Word} (bit : v.getLsbD 1 = true) (high : s.resetLow = false) :
    exec (.restart v) s = .next { State.reset with
      regs := { run := false, xbase := s.regs.xbase, events := 0, evmask := s.regs.evmask }
      mem := s.mem, pending := s.pending } := exec_restart bit high

/-- Settles O4. -/
theorem powerOnAndRestart : Obligations.PowerOnAndRestart :=
  ⟨fun _ => rfl, fun _ l low => driverEnable_of_resetLow low l, fun _ _ low held unstored => exec_of_resetLow low held unstored,
    exec_powerOn, fun _ _ bit high => exec_restart_eq bit high⟩

/-! ### Registers without a row of their own -/

theorem hasOwnRow_eq_false {o : Word} (own : hasOwnRow o = false) : o ≠ 0x04 ∧ o ≠ 0x10 ∧ o ≠ 0x14 ∧ o ≠ 0x18 := by
  simpa [hasOwnRow, and_assoc] using own

/-- Bits 0-11 of what XBASE takes are 0. -/
theorem toNat_and_pageMask (v : Word) : (v &&& 0xFFFFF000).toNat % 4096 = 0 := by
  have low : (v &&& 0xFFFFF000) &&& 0xFFF = 0 := by
    rw [BitVec.and_assoc]
    exact BitVec.and_zero
  have bits : (v &&& 0xFFFFF000).toNat &&& 4095 = 0 := by
    have read := congrArg BitVec.toNat low
    rwa [BitVec.toNat_and] at read
  rw [← bits]
  exact (Nat.and_two_pow_sub_one_eq_mod _ 12).symm

/-- Settles O6. -/
theorem xbaseKeepsPageAligned : Obligations.XbaseKeepsPageAligned := by
  intro s o v st high own
  obtain ⟨notControl, notKick, notEvents, notMask⟩ := hasOwnRow_eq_false own
  refine ⟨?_, toNat_and_pageMask v⟩
  unfold exec
  simp only [execRegisterWrite, registerPort, if_neg notControl, if_neg notKick, if_neg notEvents, if_neg notMask, high]
  by_cases base : o = 0x0C
  · simp [base, writeXbase]
  · simp only [if_neg base, Bool.false_eq_true, if_false]

/-! ### The invariants after reset -/

/-- What a cold start answers meets the invariants, whatever the memory it leaves. -/
theorem coldStart_invariants {s : State} {regs : Regs} (wf : Memory.wf s.mem = true) (aligned : regs.xbase &&& 0xFFF = 0) :
    (coldStart regs s).memoryOk ∧ (coldStart regs s).regionsOk ∧ (coldStart regs s).genOk ∧ (coldStart regs s).heldOk ∧
      (coldStart regs s).digestOk := by
  refine ⟨⟨wf, aligned⟩, nofun, ⟨by change (0 : Word) ≤ _; decide, nofun⟩, fun n _ => ?_, rfl⟩
  have cold : (coldStart regs s).slot n = .cold := reset_slot n
  rw [cold]
  exact BitVec.le_refl _

/-- Settles O58: the three states are cold starts. -/
theorem resetMeetsInvariants : Obligations.ResetMeetsInvariants :=
  ⟨coldStart_invariants (s := State.reset) (regs := .cold) rfl rfl,
    fun s wf => ⟨_, exec_powerOn s, coldStart_invariants wf rfl⟩,
    fun _ _ ok high bit => ⟨_, exec_restart bit high, coldStart_invariants ok.1 ok.2⟩⟩

end Sys2Proof.Machine

/-!
The visits of the request strips (R190 to R193): one visit of one strip, and the two visits of a KICK or of an expiry of the
scan interval, which do not meet where the strips are apart.
-/
namespace Sys2Proof.Machine

/-! ### What a visit finds -/

/-- The strip is STOPPED and the slot at its position is POSTED. -/
def State.finds (s : State) (t : Strip) : Prop := (s.strip t).scan = .stopped ∧ Memory.read s.mem (s.slotAddr t) = 1

/-- The byte with the kind and the notify bit at the strip's position. -/
def State.kindByte (s : State) (t : Strip) : Byte := Memory.read s.mem (s.slotAddr t + 1)

/-- The kind of the request at the strip's position. -/
def State.postedKind (s : State) (t : Strip) : Nat := (s.kindByte t).toNat % 128

/-- The request at the strip's position. -/
def State.posted (s : State) (t : Strip) : Request :=
  { kind := s.postedKind t, notify := (s.kindByte t).getLsbD 7, params := Memory.readBytes s.mem (s.slotAddr t + 8) 56 }

theorem writeSlotBytes_strip (s : State) (t u : Strip) (off : Nat) (bs : List Byte) :
    (writeSlotBytes t off bs s).strip u = s.strip u := by cases u <;> rfl

theorem writeSlotBytes_slotAddr (s : State) (t u : Strip) (off : Nat) (bs : List Byte) :
    (writeSlotBytes t off bs s).slotAddr u = s.slotAddr u := by cases u <;> rfl

theorem writeSlotBytes_stripCount (s : State) (t u : Strip) (off : Nat) (bs : List Byte) :
    (writeSlotBytes t off bs s).stripCount u = s.stripCount u := by cases u <;> rfl

theorem read_writeMark {s : State} {t : Strip} {a : Nat} (other : a ≠ s.slotAddr t) (b : Byte) :
    Memory.read (writeSlotBytes t 0 [b] s).mem a = Memory.read s.mem a := by
  simp only [writeSlotBytes, Nat.add_zero]
  exact Memory.read_writeBytes_outside _ _ _ (by simp only [List.length_singleton]; omega)

theorem read_writeMark_self {s : State} (wf : Memory.wf s.mem = true) (t : Strip) (b : Byte) :
    Memory.read (writeSlotBytes t 0 [b] s).mem (s.slotAddr t) = b := by
  simp only [writeSlotBytes, Nat.add_zero, Memory.writeBytes]
  exact Memory.read_write_self wf _ _

/-- Writing TAKEN does not change the request read after it. -/
theorem readRequest_writeMark (s : State) (t : Strip) (b : Byte) :
    readRequest (writeSlotBytes t 0 [b] s) t = s.posted t := by
  have other (a : Nat) (h : s.slotAddr t < a) : Memory.read (writeSlotBytes t 0 [b] s).mem a = Memory.read s.mem a :=
    read_writeMark (by omega) b
  unfold readRequest State.posted State.postedKind State.kindByte
  simp only [writeSlotBytes_slotAddr]
  rw [other _ (by omega), Memory.readBytes_congr _ _ fun c low _ => other c (by omega)]

/-! ### One visit -/

/-- The POSTED request taken: its mark TAKEN, and the request held. -/
def takePosted (t : Strip) (s : State) : State :=
  (writeSlotBytes t 0 [2] s).setStrip t
    ⟨(s.strip t).position, .holding (s.posted t) true ((writeSlotBytes t 0 [2] s).arrivesFree
      ((ownerOf (s.postedKind t)).getD .atOnce))⟩

/-- The POSTED request of a kind not in the table completed. -/
def completeUnknown (t : Strip) (s : State) : State :=
  finish t (s.posted t).notify (.plain Outcome.badKind) (writeSlotBytes t 0 [2] s)

theorem visitN_passes {s : State} {t : Strip} (none : ¬ s.finds t) (k : Nat) : visitN t k s = s := by
  cases k with
  | zero => rfl
  | succ k =>
    unfold visitN
    refine if_neg fun found => none ?_
    simp only [Bool.and_eq_true, decide_eq_true_eq] at found
    exact ⟨found.1.2, found.2⟩

theorem visitN_takes {s : State} {t : Strip} (running : s.running = true) (found : s.finds t)
    (known : ownerOf (s.postedKind t) ≠ none) (k : Nat) : visitN t (k + 1) s = takePosted t s := by
  obtain ⟨o, owner⟩ := Option.ne_none_iff_exists'.1 known
  have posted : s.running && (s.strip t).scan = .stopped && Memory.read s.mem (s.slotAddr t) = 1 := by
    simp [running, found.1, found.2]
  have kind : ownerOf (s.posted t).kind = some o := owner
  unfold visitN takePosted
  simp only [posted, if_true, readRequest_writeMark, kind, owner, writeSlotBytes_strip, Option.getD_some]

theorem visitN_completes {s : State} {t : Strip} (running : s.running = true) (found : s.finds t)
    (unknown : ownerOf (s.postedKind t) = none) (k : Nat) : visitN t (k + 1) s = visitN t k (completeUnknown t s) := by
  have posted : s.running && (s.strip t).scan = .stopped && Memory.read s.mem (s.slotAddr t) = 1 := by
    simp [running, found.1, found.2]
  have kind : ownerOf (s.posted t).kind = none := unknown
  conv_lhs => unfold visitN
  simp only [posted, if_true, readRequest_writeMark, kind, completeUnknown]

/-- What one visit of strip `t` does. -/
structure StripVisit (t : Strip) (u v : State) : Prop where
  offStrip : v.offStrip t = u.offStrip t
  elsewhere : ∀ a, u.outsideStrip t a = true → Memory.read v.mem a = Memory.read u.mem a
  high : ∀ i, 1 ≤ i → v.regs.events.getLsbD i = u.regs.events.getLsbD i
  kept : ∀ i, u.regs.events.getLsbD i = true → v.regs.events.getLsbD i = true
  passed : ¬ u.finds t → v = u
  taken : u.finds t → ownerOf (u.postedKind t) ≠ none →
    Memory.read v.mem (u.slotAddr t) = 2 ∧ (∀ a, a ≠ u.slotAddr t → Memory.read v.mem a = Memory.read u.mem a) ∧
    ∃ free, v.strip t = ⟨(u.strip t).position, .holding (u.posted t) true free⟩
  unknown : u.finds t → ownerOf (u.postedKind t) = none →
    Memory.readBytes v.mem (u.slotAddr t) 8 = 3 :: Memory.readBytes u.mem (u.slotAddr t + 1) 3 ++ [Outcome.badKind, 0, 0, 0] ∧
    (∀ i, 8 ≤ i → i < 64 → Memory.read v.mem (u.slotAddr t + i) = Memory.read u.mem (u.slotAddr t + i)) ∧
    ((u.kindByte t).getLsbD 7 = true → v.regs.events.getLsbD 0 = true)

/-- The slot of a completed request keeps its bytes but for mark, outcome, clamp flag and detail count. -/
theorem completeUnknown_slot {s : State} (wf : Memory.wf s.mem = true) (t : Strip) :
    let v := completeUnknown t s
    Memory.read v.mem (s.slotAddr t) = 3 ∧ Memory.read v.mem (s.slotAddr t + 4) = Outcome.badKind ∧
    (∀ i, 5 ≤ i → i < 8 → Memory.read v.mem (s.slotAddr t + i) = 0) ∧
    (∀ i, (1 ≤ i ∧ i < 4) ∨ 8 ≤ i → Memory.read v.mem (s.slotAddr t + i) = Memory.read s.mem (s.slotAddr t + i)) := by
  intro v
  have mem := finish_mem t (s.posted t).notify (.plain Outcome.badKind) (writeSlotBytes t 0 [2] s)
  simp only [writeSlotBytes_slotAddr] at mem
  set m0 := (writeSlotBytes t 0 [2] s).mem with m0_eq
  have w0 : Memory.wf m0 = true := Memory.writeBytes_wf _ _ wf
  set m1 := Memory.writeBytes m0 (s.slotAddr t + 4) [(Result.plain Outcome.badKind).outcome] with m1_eq
  have w1 : Memory.wf m1 = true := Memory.writeBytes_wf _ _ w0
  set m2 := Memory.writeBytes m1 (s.slotAddr t + 5) [if (Result.plain Outcome.badKind).clamp then 1 else 0] with m2_eq
  have w2 : Memory.wf m2 = true := Memory.writeBytes_wf _ _ w1
  set m3 := Memory.writeBytes m2 (s.slotAddr t + 6) (leBytes 2 (Result.plain Outcome.badKind).detail) with m3_eq
  have w3 : Memory.wf m3 = true := Memory.writeBytes_wf _ _ w2
  have vmem : v.mem = Memory.writeBytes m3 (s.slotAddr t + 0) [3] := mem
  have last {a : Nat} (off : a ≠ s.slotAddr t) : Memory.read v.mem a = Memory.read m3 a := by
    rw [vmem]
    exact Memory.read_writeBytes_outside _ _ _ (by simp only [List.length_singleton]; omega)
  have third {a : Nat} (off : a < s.slotAddr t + 6 ∨ s.slotAddr t + 8 ≤ a) : Memory.read m3 a = Memory.read m2 a :=
    Memory.read_writeBytes_outside _ _ _ (by rw [leBytes_length]; omega)
  have second {a : Nat} (off : a ≠ s.slotAddr t + 5) : Memory.read m2 a = Memory.read m1 a :=
    Memory.read_writeBytes_outside _ _ _ (by simp only [List.length_singleton]; omega)
  have first {a : Nat} (off : a ≠ s.slotAddr t + 4) : Memory.read m1 a = Memory.read m0 a :=
    Memory.read_writeBytes_outside _ _ _ (by simp only [List.length_singleton]; omega)
  refine ⟨?_, ?_, fun i low up => ?_, fun i off => ?_⟩
  · rw [vmem]
    exact Memory.read_writeBytes_inside (s.slotAddr t) [3] 0 w3 (by simp)
  · rw [last (by omega), third (by omega), second (by omega)]
    exact Memory.read_writeBytes_inside (s.slotAddr t + 4) _ 0 w0 (by simp)
  · rw [last (by omega)]
    by_cases five : i = 5
    · subst five
      rw [third (by omega)]
      exact Memory.read_writeBytes_inside (s.slotAddr t + 5) _ 0 w1 (by simp)
    · obtain ⟨j, rfl⟩ : ∃ j, i = 6 + j := ⟨i - 6, by omega⟩
      rw [← Nat.add_assoc, m3_eq, Memory.read_writeBytes_inside _ _ j w2 (by rw [leBytes_length]; omega)]
      have small : j < 2 := by omega
      interval_cases j <;> rfl
  · rw [last (by omega), third (by omega), second (by omega), first (by omega), m0_eq]
    exact read_writeMark (by omega) 2

theorem completeUnknown_strip (t : Strip) (s : State) :
    (completeUnknown t s).strip t = ⟨((s.strip t).position + 1) % s.stripCount t, .stopped⟩ := by
  rw [completeUnknown, finish_strip, writeSlotBytes_strip, writeSlotBytes_stripCount]

theorem completeUnknown_offStrip (t : Strip) (s : State) : (completeUnknown t s).offStrip t = s.offStrip t := by
  simp [completeUnknown]

theorem isFaulted_of_running {s : State} (running : s.running = true) : s.isFaulted = false :=
  not_isFaulted_of_working (by simpa [State.running, State.working] using .inl (by simpa [State.running] using running))

/-- The notify bit of a completed request raises DONE (R193). -/
theorem completeUnknown_done {s : State} {t : Strip} (running : s.running = true) (notify : (s.kindByte t).getLsbD 7 = true) :
    (completeUnknown t s).regs.events.getLsbD 0 = true := by
  have asked : (s.posted t).notify = true := notify
  have healthy : (writeSlotBytes t 0 [2] s).isFaulted = false := isFaulted_of_running (s := s) running
  rw [completeUnknown, finish_events, if_pos asked, raise_bit _ _ _ healthy]
  simp [Notice.bit]

theorem visit_stripVisit {s : State} {t : Strip} (running : s.running = true) (wf : Memory.wf s.mem = true)
    (pos : (s.strip t).position < s.stripCount t) : StripVisit t s (visit t s) where
  offStrip := visit_offStrip t s
  elsewhere := (visitN_mem t 257 s pos).2.1
  high i := (visitN_events t 257 s i).1
  kept i := (visitN_events t 257 s i).2
  passed none := visitN_passes none 257
  taken found known := by
    rw [show visit t s = takePosted t s from visitN_takes running found known 256]
    refine ⟨?_, fun a other => ?_, ⟨_, State.setStrip_strip .. |>.trans (if_pos rfl)⟩⟩
    · rw [takePosted, State.setStrip_mem]
      exact read_writeMark_self wf t 2
    · rw [takePosted, State.setStrip_mem]
      exact read_writeMark other 2
  unknown found unknown := by
    rw [show visit t s = visitN t 256 (completeUnknown t s) from visitN_completes running found unknown 256]
    obtain ⟨mark, outcome, zeros, others⟩ := completeUnknown_slot wf t
    have strip := completeUnknown_strip t s
    obtain ⟨-, -, descriptor, -⟩ := offStrip_eq (completeUnknown_offStrip t s)
    obtain ⟨addr, cnt⟩ := stripAddr_of_desc descriptor t
    have stays (i : Nat) (inside : i < 64) :
        Memory.read (visitN t 256 (completeUnknown t s)).mem (s.slotAddr t + i) =
          Memory.read (completeUnknown t s).mem (s.slotAddr t + i) := by
      have after := (visitN_mem t 256 (completeUnknown t s) (by rw [strip, cnt]; exact Nat.mod_lt _ (by omega))).2.2
        (s.strip t).position i
      rw [cnt, addr] at after
      refine after pos inside ?_
      rw [show s.stripAddr t + 64 * (s.strip t).position = s.slotAddr t from rfl, mark]
      decide
    refine ⟨?_, fun i low up => (stays i up).trans (others i (.inr low)), fun notify => ?_⟩
    · have zero := stays 0 (by omega)
      simp only [Memory.readBytes, Nat.add_assoc, List.cons_append, List.nil_append]
      rw [Nat.add_zero] at zero
      rw [zero, mark, stays 1 (by omega), stays 2 (by omega), stays 3 (by omega), stays 4 (by omega), stays 5 (by omega),
        stays 6 (by omega), stays 7 (by omega), outcome, zeros 5 (by omega) (by omega), zeros 6 (by omega) (by omega),
        zeros 7 (by omega) (by omega), others 1 (by omega), others 2 (by omega), others 3 (by omega)]
    · exact (visitN_events t 256 (completeUnknown t s) 0).2 (completeUnknown_done running notify)

/-! ### The two visits -/

/-- The bytes of strip `t`. -/
def State.inStrip (s : State) (t : Strip) (a : Nat) : Prop :=
  s.stripAddr t ≤ a ∧ a < s.stripAddr t + 64 * s.stripCount t

/-- Two states agree on strip `t`: its place, its state and its bytes. -/
structure SameStrip (t : Strip) (u v : State) : Prop where
  strip : v.strip t = u.strip t
  addr : v.stripAddr t = u.stripAddr t
  count : v.stripCount t = u.stripCount t
  bytes : ∀ a, u.inStrip t a → Memory.read v.mem a = Memory.read u.mem a

theorem SameStrip.refl (t : Strip) (u : State) : SameStrip t u u := ⟨rfl, rfl, rfl, fun _ _ => rfl⟩

theorem SameStrip.slotAddr {t : Strip} {u v : State} (same : SameStrip t u v) : v.slotAddr t = u.slotAddr t := by
  rw [State.slotAddr, State.slotAddr, same.addr, same.strip]

theorem SameStrip.slotByte {t : Strip} {u v : State} (same : SameStrip t u v) (pos : (u.strip t).position < u.stripCount t)
    {i : Nat} (inside : i < 64) : Memory.read v.mem (u.slotAddr t + i) = Memory.read u.mem (u.slotAddr t + i) := by
  refine same.bytes _ ⟨?_, ?_⟩ <;> rw [State.slotAddr] <;> omega

theorem SameStrip.finds_iff {t : Strip} {u v : State} (same : SameStrip t u v)
    (pos : (u.strip t).position < u.stripCount t) : v.finds t ↔ u.finds t := by
  have mark := same.slotByte pos (i := 0) (by omega)
  rw [Nat.add_zero] at mark
  rw [State.finds, State.finds, same.strip, same.slotAddr, mark]

theorem SameStrip.kindByte {t : Strip} {u v : State} (same : SameStrip t u v)
    (pos : (u.strip t).position < u.stripCount t) : v.kindByte t = u.kindByte t := by
  rw [State.kindByte, State.kindByte, same.slotAddr, same.slotByte pos (by omega)]

theorem SameStrip.postedKind {t : Strip} {u v : State} (same : SameStrip t u v)
    (pos : (u.strip t).position < u.stripCount t) : v.postedKind t = u.postedKind t := by
  rw [State.postedKind, State.postedKind, same.kindByte pos]

theorem SameStrip.slotBytes {t : Strip} {u v : State} (same : SameStrip t u v)
    (pos : (u.strip t).position < u.stripCount t) {i n : Nat} (inside : i + n ≤ 64) :
    Memory.readBytes v.mem (u.slotAddr t + i) n = Memory.readBytes u.mem (u.slotAddr t + i) n := by
  refine Memory.readBytes_congr _ _ fun c low up => ?_
  obtain ⟨k, rfl⟩ : ∃ k, c = u.slotAddr t + k := ⟨c - u.slotAddr t, by omega⟩
  exact same.slotByte pos (by omega)

theorem SameStrip.posted {t : Strip} {u v : State} (same : SameStrip t u v)
    (pos : (u.strip t).position < u.stripCount t) : v.posted t = u.posted t := by
  rw [State.posted, State.posted, same.postedKind pos, same.kindByte pos, same.slotAddr, same.slotBytes pos (by omega)]

/-- What a visit shows in strip `t` itself. -/
structure Seen (t : Strip) (u v : State) : Prop where
  passed : ¬ u.finds t → v.strip t = u.strip t ∧ ∀ a, u.inStrip t a → Memory.read v.mem a = Memory.read u.mem a
  taken : u.finds t → ownerOf (u.postedKind t) ≠ none →
    Memory.read v.mem (u.slotAddr t) = 2 ∧
    (∀ i, 1 ≤ i → i < 64 → Memory.read v.mem (u.slotAddr t + i) = Memory.read u.mem (u.slotAddr t + i)) ∧
    ∃ free, v.strip t = ⟨(u.strip t).position, .holding (u.posted t) true free⟩
  unknown : u.finds t → ownerOf (u.postedKind t) = none →
    Memory.readBytes v.mem (u.slotAddr t) 8 = 3 :: Memory.readBytes u.mem (u.slotAddr t + 1) 3 ++ [Outcome.badKind, 0, 0, 0] ∧
    ∀ i, 8 ≤ i → i < 64 → Memory.read v.mem (u.slotAddr t + i) = Memory.read u.mem (u.slotAddr t + i)

theorem StripVisit.seen {t : Strip} {u v : State} (one : StripVisit t u v) : Seen t u v where
  passed none := by
    rw [one.passed none]
    exact ⟨rfl, fun _ _ => rfl⟩
  taken found known := by
    obtain ⟨mark, others, strip⟩ := one.taken found known
    exact ⟨mark, fun i low _ => others _ (by omega), strip⟩
  unknown found kind := ⟨(one.unknown found kind).1, (one.unknown found kind).2.1⟩

/-- What shows in the strip is about the strip alone: it stands between states that agree on it. -/
theorem Seen.congr {t : Strip} {u v u' v' : State} (seen : Seen t u v) (before : SameStrip t u' u) (after : SameStrip t v v')
    (place : v.stripAddr t = u.stripAddr t ∧ v.stripCount t = u.stripCount t)
    (pos : (u'.strip t).position < u'.stripCount t) : Seen t u' v' := by
  have inside {a : Nat} (h : u'.inStrip t a) : v.inStrip t a := by
    rwa [State.inStrip, place.1, place.2, before.addr, before.count]
  have slot {i : Nat} (small : i < 64) : u'.inStrip t (u'.slotAddr t + i) := by
    constructor <;> rw [State.slotAddr] <;> omega
  have final {i : Nat} (small : i < 64) :
      Memory.read v'.mem (u'.slotAddr t + i) = Memory.read v.mem (u'.slotAddr t + i) := after.bytes _ (inside (slot small))
  have first {i : Nat} (small : i < 64) :
      Memory.read u.mem (u'.slotAddr t + i) = Memory.read u'.mem (u'.slotAddr t + i) := before.slotByte pos small
  refine ⟨fun none => ?_, fun found known => ?_, fun found kind => ?_⟩
  · obtain ⟨strip, bytes⟩ := seen.passed (mt (before.finds_iff pos).1 none)
    refine ⟨after.strip.trans (strip.trans before.strip), fun a h => ?_⟩
    rw [after.bytes a (inside h), bytes a (by rw [State.inStrip, before.addr, before.count]; exact h), before.bytes a h]
  · obtain ⟨mark, others, free, strip⟩ :=
      seen.taken ((before.finds_iff pos).2 found) (by rwa [before.postedKind pos])
    rw [before.slotAddr] at mark others
    refine ⟨?_, fun i low up => ?_, free, ?_⟩
    · have zero := final (i := 0) (by omega)
      rw [Nat.add_zero] at zero
      rw [zero, mark]
    · rw [final up, others i low up, first up]
    · rw [after.strip, strip, before.strip, before.posted pos]
  · obtain ⟨bytes, others⟩ := seen.unknown ((before.finds_iff pos).2 found) (by rwa [before.postedKind pos])
    rw [before.slotAddr] at bytes others
    refine ⟨?_, fun i low up => ?_⟩
    · rw [Memory.readBytes_congr (m' := v'.mem) (m := v.mem) _ _ fun c low up => ?_, bytes, before.slotBytes pos (by omega)]
      obtain ⟨k, rfl⟩ : ∃ k, c = u'.slotAddr t + k := ⟨c - u'.slotAddr t, by omega⟩
      exact final (by omega)
    · rw [final up, others i low up, first up]

theorem Seen.visited {t : Strip} {u v : State} (seen : Seen t u v) : Visited t u v where
  passed none := by
    have nothing : ¬ u.finds t := fun found => none.elim (· found.1) (· found.2)
    obtain ⟨strip, bytes⟩ := seen.passed nothing
    exact ⟨strip, fun i inside => bytes _ ⟨by omega, by omega⟩⟩
  taken stopped mark known := by
    obtain ⟨done, -, free, strip⟩ := seen.taken ⟨stopped, mark⟩ known
    exact ⟨done, by rw [strip], free, by rw [strip]; rfl⟩
  unknown stopped mark kind := (seen.unknown ⟨stopped, mark⟩ kind).1

theorem outsideStrip_of_inStrip {s : State} {t : Strip} {a : Nat} (apart : s.stripsApart) (inside : s.inStrip t a) :
    s.outsideStrip (otherStrip t) a = true := by
  obtain ⟨low, up⟩ := inside
  simp only [State.outsideStrip, Bool.or_eq_true, decide_eq_true_eq]
  cases t <;> rcases apart with apart | apart <;> simp only [otherStrip] <;> omega

/-- A visit of one strip leaves the other alone. -/
theorem StripVisit.other {t : Strip} {u v : State} (one : StripVisit t u v) (apart : u.stripsApart) :
    SameStrip (otherStrip t) u v := by
  obtain ⟨-, -, descriptor, -, -, -, -, strip, -⟩ := offStrip_eq one.offStrip
  obtain ⟨addr, cnt⟩ := stripAddr_of_desc descriptor (otherStrip t)
  refine ⟨strip, addr, cnt, fun a inside => one.elsewhere a ?_⟩
  cases t <;> exact outsideStrip_of_inStrip apart inside

/-- The state apart from both strips, shared memory and EVENTS. -/
def State.offStrips (s : State) : State := (s.offStrip .priority).offStrip .routine

/-- What the visits of both strips do. -/
structure BothVisited (u v : State) : Prop where
  offStrips : v.offStrips = u.offStrips
  elsewhere : ∀ a, u.outsideStrip .priority a = true → u.outsideStrip .routine a = true →
    Memory.read v.mem a = Memory.read u.mem a
  high : ∀ i, 1 ≤ i → v.regs.events.getLsbD i = u.regs.events.getLsbD i
  seen : ∀ t, Seen t u v
  done : ∀ t, u.finds t → ownerOf (u.postedKind t) = none → (u.kindByte t).getLsbD 7 = true →
    v.regs.events.getLsbD 0 = true
  nothing : (∀ t, ¬ u.finds t) → v = u

/-- The frame of the visits, whether or not the strips are apart. -/
theorem visitBoth_frame {s : State} (pos : ∀ t, (s.strip t).position < s.stripCount t) :
    (visitBoth s).offStrips = s.offStrips ∧
    (∀ a, s.outsideStrip .priority a = true → s.outsideStrip .routine a = true →
      Memory.read (visitBoth s).mem a = Memory.read s.mem a) ∧
    ∀ i, 1 ≤ i → (visitBoth s).regs.events.getLsbD i = s.regs.events.getLsbD i := by
  have first := visit_offStrip .priority s
  obtain ⟨-, -, descriptor, -, -, -, -, other, -⟩ := offStrip_eq first
  have place := stripAddr_of_desc descriptor .routine
  have outside (a : Nat) (h : s.outsideStrip .routine a = true) : (visit .priority s).outsideStrip .routine a = true := by
    simpa only [State.outsideStrip, place.1, place.2] using h
  have strip : (visit .priority s).strip .routine = s.strip .routine := other
  refine ⟨?_, fun a priority routine => ?_, fun i low => ?_⟩
  · have second := congrArg (State.offStrip .priority) (visit_offStrip .routine (visit .priority s))
    have swap (u : State) : (u.offStrip .routine).offStrip .priority = u.offStrips := rfl
    rw [swap, swap] at second
    exact second.trans (congrArg (State.offStrip .routine) first)
  · refine ((visitN_mem .routine 257 _ ?_).2.1 a (outside a routine)).trans ((visitN_mem .priority 257 s (pos _)).2.1 a priority)
    rw [strip, place.2]
    exact pos .routine
  · exact ((visitN_events .routine 257 _ i).1 low).trans ((visitN_events .priority 257 s i).1 low)

theorem visitBoth_visited {s : State} (running : s.running = true) (wf : Memory.wf s.mem = true) (apart : s.stripsApart)
    (pos : ∀ t, (s.strip t).position < s.stripCount t) : BothVisited s (visitBoth s) := by
  have first := visit_stripVisit running wf (pos .priority)
  have across : SameStrip .routine s (visit .priority s) := first.other apart
  obtain ⟨-, engine, descriptor, -⟩ := offStrip_eq first.offStrip
  have running' : (visit .priority s).running = true := by simpa only [State.running, engine] using running
  have apart' : (visit .priority s).stripsApart := by
    have place (t : Strip) := stripAddr_of_desc descriptor t
    simpa only [State.stripsApart, (place _).1, (place _).2] using apart
  have second := visit_stripVisit (t := .routine) running' (visit_wf _ _ wf) (by
    rw [across.count, across.strip]
    exact pos .routine)
  have placed (t u : Strip) (w : State) : (visit t w).stripAddr u = w.stripAddr u ∧ (visit t w).stripCount u = w.stripCount u :=
    stripAddr_of_desc (offStrip_eq (visit_offStrip t w)).2.2.1 u
  have seen (t : Strip) : Seen t s (visitBoth s) := by
    cases t with
    | priority => exact first.seen.congr (.refl _ s) (second.other apart') (placed .priority .priority s) (pos .priority)
    | routine => exact second.seen.congr across (.refl _ _) (placed .routine .routine _) (pos .routine)
  obtain ⟨frame, elsewhere, high⟩ := visitBoth_frame pos
  refine ⟨frame, elsewhere, high, seen, fun t found kind notify => ?_, fun none => ?_⟩
  · cases t with
    | priority => exact second.kept 0 ((first.unknown found kind).2.2 notify)
    | routine =>
      refine (second.unknown ((across.finds_iff (pos .routine)).2 found) ?_).2.2 ?_
      · exact (congrArg ownerOf (across.postedKind (pos .routine))).trans kind
      · exact (congrArg (BitVec.getLsbD · 7) (across.kindByte (pos .routine))).trans notify
  · have rest := first.passed (none .priority)
    have last : visitBoth s = visit .routine s := congrArg (visit .routine) rest
    rw [last]
    exact visitN_passes (none .routine) 257

/-- What the state apart from the strips shows. -/
theorem offStrips_eq {u v : State} (h : v.offStrips = u.offStrips) :
    v.engine = u.engine ∧ v.exch.descriptor = u.exch.descriptor ∧ v.exch.scanTimer = u.exch.scanTimer ∧ v.ports = u.ports ∧
    v.change = u.change ∧ v.editions = u.editions ∧ v.clock = u.clock ∧ v.roster = u.roster ∧ v.profiles = u.profiles ∧
    v.sched = u.sched ∧ v.sweeps = u.sweeps ∧ v.report = u.report := by
  have e : ∀ {γ : Type} (g : State → γ), g v.offStrips = g u.offStrips := fun g => congrArg g h
  exact ⟨e State.engine, e (fun s => s.exch.descriptor), e (fun s => s.exch.scanTimer), e State.ports, e State.change,
    e State.editions, e State.clock, e State.roster, e State.profiles, e State.sched, e State.sweeps, e State.report⟩

/-- The visits keep all that `Kept` names. -/
theorem kept_of_offStrips {u v : State} (h : v.offStrips = u.offStrips) : Kept u v := by
  have e : ∀ {γ : Type} (g : State → γ), g v.offStrips = g u.offStrips := fun g => congrArg g h
  obtain ⟨engine, descriptor, scanTimer, ports, change, editions, clock, roster, profiles, sched, sweeps, report⟩ :=
    offStrips_eq h
  exact {
    run := e (fun s => s.regs.run), xbase := e (fun s => s.regs.xbase), evmask := e (fun s => s.regs.evmask),
    engine, resetLow := e State.resetLow, descriptor, scanTimer, change, editions, clock, roster, profiles,
    pending := e State.pending, counts := by rw [report], waiting := by rw [report],
    wanted := fun r h => by rw [report]; exact h, ports := fun l => by rw [State.port, State.port, ports],
    quiet := fun _ => ⟨sched, sweeps, fun l => by rw [State.port, State.port, ports]⟩ }

/-- The visits, then the exchange boundary. -/
theorem kept_visits {s u v t : State} (h : v.offStrips = u.offStrips) (settled : Settled v t) (same : s = u) : Kept s t := by
  subst same
  obtain ⟨engine, -, -, ports, -⟩ := offStrips_eq h
  exact (kept_of_offStrips h).settled settled fun ready l => by rw [portReady_congr engine ports]; exact ready l

/-- What shows in a strip is the same after the exchange boundary. -/
theorem Seen.settled {t : Strip} {u v w : State} (seen : Seen t u v) (settled : Settled v w) : Seen t u w := by
  have strip : w.strip t = v.strip t := by
    cases t
    · exact settled.priority
    · exact settled.routine
  constructor
  · rw [strip, settled.mem]
    exact seen.passed
  · rw [strip, settled.mem]
    exact seen.taken
  · rw [settled.mem]
    exact seen.unknown

/-! ### KICK and the expiry of the scan interval -/

/-- The scan interval timer after command `c`. -/
def State.scanTimerAfter (s : State) (c : Instr) : Option Time :=
  match c with
  | .scanIntervalExpiry => if s.desc.scanInterval = 0 then none else some (s.desc.scanInterval * Config.ms)
  | _ => s.exch.scanTimer

/-- The state of a visiting command before the visits, its timer as after them. -/
def State.timed (s : State) (c : Instr) : State := { s with exch := { s.exch with scanTimer := s.scanTimerAfter c } }

/-- `v` is the state after the two visits of `s`, its scan interval timer aside. -/
def State.visitedWith (s : State) (timer : Option Time) : State :=
  { visitBoth s with exch := { (visitBoth s).exch with scanTimer := timer } }

theorem visitedWith_offStrips {s : State} (pos : ∀ t, (s.strip t).position < s.stripCount t) (c : Instr) :
    (s.visitedWith (s.scanTimerAfter c)).offStrips = (s.timed c).offStrips :=
  congrArg (fun u : State => ({ u with exch := { u.exch with scanTimer := s.scanTimerAfter c } } : State))
    (visitBoth_frame pos).1

theorem exec_visits {s : State} {c : Instr} (high : s.resetLow = false) (engine : s.engine = .running)
    (visits : (∃ v, c = .kick v) ∨ (c = .scanIntervalExpiry ∧ s.exch.scanTimer ≠ none)) :
    ∃ t, exec c s = .next t ∧ Settled (s.visitedWith (s.scanTimerAfter c)) t := by
  have running : s.running = true := by simp [State.running, engine]
  obtain ⟨v, rfl⟩ | ⟨rfl, timer⟩ := visits
  · obtain ⟨t, run, settled⟩ := scheduled_settled (s := s) (f := fun s => if s.running then visitBoth s else s) high
    refine ⟨t, run, ?_⟩
    have same : (visitBoth s).exch.scanTimer = s.exch.scanTimer := by
      rw [visitBoth, (offStrip_eq (visit_offStrip .routine _)).2.2.2.2.2.2.1, (offStrip_eq (visit_offStrip .priority s)).2.2.2.2.2.2.1]
    simp only [running, if_true] at settled
    have whole : s.visitedWith (s.scanTimerAfter (.kick v)) = visitBoth s := by
      simp only [State.visitedWith, State.scanTimerAfter, ← same]
    rwa [whole]
  · obtain ⟨t, run, settled⟩ := scheduled_settled (s := s)
      (f := fun s => if s.running && s.exch.scanTimer.isSome then startScan (visitBoth s) else s) high
    refine ⟨t, run, ?_⟩
    have desc : (visitBoth s).desc = s.desc := by
      simp only [State.desc, show (visitBoth s).exch.descriptor = s.exch.descriptor from
        congrArg Spine.descriptor (visitBoth_spine s)]
    simp only [running, Option.isSome_iff_ne_none.2 timer, Bool.and_self, if_true, startScan, desc] at settled
    exact settled

theorem read_seen_slot {t : Strip} {u v : State} (seen : Seen t u v) (found : u.finds t) (known : ownerOf (u.postedKind t) ≠ none) :
    Memory.read v.mem (u.slotAddr t) = 2 ∧
    (∀ i, 1 ≤ i → i < 64 → Memory.read v.mem (u.slotAddr t + i) = Memory.read u.mem (u.slotAddr t + i)) ∧
    (v.strip t).position = (u.strip t).position ∧ ∃ free, (v.strip t).scan = .holding (u.posted t) true free := by
  obtain ⟨mark, others, free, strip⟩ := seen.taken found known
  exact ⟨mark, others, by rw [strip], free, by rw [strip]⟩

/-- Settles O9: the two visits by `visitBoth_visited`, and outside RUNNING no visit is made. -/
theorem visitTakesPostedRequest : Obligations.VisitTakesPostedRequest := by
  refine ⟨?_, fun s v rest => ?_⟩
  · intro s c high engine wf visits apart pos finds u
    have running : s.running = true := by simp [State.running, engine]
    obtain ⟨s', run, settled⟩ := exec_visits high engine visits
    have both := visitBoth_visited running wf apart pos
    have seen (t : Strip) : Seen t s s' := by
      have within : Seen t s (s.visitedWith (s.scanTimerAfter c)) := by
        cases t <;> exact ⟨(both.seen _).passed, (both.seen _).taken, (both.seen _).unknown⟩
      exact within.settled settled
    refine ⟨s', run, kept_visits (visitedWith_offStrips pos c) settled ?_, fun a priority routine => ?_, fun i low => ?_,
      fun t found known => read_seen_slot (seen t) found known, fun t none => ?_, fun none => ?_⟩
    · cases c <;> rfl
    · rw [settled.mem]
      exact both.elsewhere a priority routine
    · rw [settled.events]
      exact both.high i low
    · obtain ⟨strip, bytes⟩ := (seen t).passed none
      exact ⟨strip, fun a low up => bytes a ⟨low, up⟩⟩
    · have same : s.visitedWith (s.scanTimerAfter c) = u := by
        rw [State.visitedWith, both.nothing none]
        cases c <;> rfl
      rwa [same] at settled
  · exact scheduled_nothing rest (by simp [State.running, rest])

/-- Settles O10: the visit of the strip, by KICK. -/
theorem unknownKindCompletesBadKind : Obligations.UnknownKindCompletesBadKind := by
  intro s t v high engine wf apart pos stopped mark kind
  have running : s.running = true := by simp [State.running, engine]
  obtain ⟨s', run, settled⟩ := exec_visits (c := .kick v) high engine (.inl ⟨v, rfl⟩)
  have both := visitBoth_visited running wf apart pos
  obtain ⟨bytes, others⟩ := (both.seen t).unknown ⟨stopped, mark⟩ kind
  refine ⟨s', run, ?_, ?_, fun notify => ?_, kept_visits (visitedWith_offStrips pos (.kick v)) settled rfl⟩
  · rw [settled.mem]
    exact bytes
  · rw [settled.mem]
    exact others
  · rw [settled.events]
    exact both.done t ⟨stopped, mark⟩ kind notify

end Sys2Proof.Machine

/-!
STARTING (R186, R187, R205): the descriptor and what it must satisfy, and the end of STARTING in RUNNING.
-/
namespace Sys2Proof.Machine

/-! ### The descriptor -/

theorem apart_iff (x y : Nat × Nat) : apart x y = true ↔ x.1 + x.2 ≤ y.1 ∨ y.1 + y.2 ≤ x.1 := by simp [apart]

theorem allApart_iff (xs : List (Nat × Nat)) :
    allApart xs = true ↔ xs.Pairwise (fun x y => x.1 + x.2 ≤ y.1 ∨ y.1 + y.2 ≤ x.1) := by
  induction xs with
  | nil => simp [allApart]
  | cons x xs ih => simp only [allApart, Bool.and_eq_true, List.all_eq_true, apart_iff, ih, List.pairwise_cons]

/-- R187: what the descriptor bytes `b` at `xbase` must satisfy. -/
def goodDescriptor (b : List Byte) (xbase : Nat) : Prop :=
  let f (o n : Nat) : Nat := leNat ((b.drop o).take n)
  let extents : List (Nat × Nat) :=
    [(xbase, 64), (f 8 4, 64 * f 16 2), (f 12 4, 64 * f 18 2), (f 20 4, 4096), (f 24 4, 1048576), (f 28 4, 1048576),
      (f 32 4, 16384), (f 36 4, 16384)]
  f 0 4 = 0x4A444C47 ∧ f 4 2 = 1 ∧ (4 ≤ f 16 2 ∧ f 16 2 ≤ 256) ∧ (4 ≤ f 18 2 ∧ f 18 2 ≤ 256) ∧
  f 8 4 % 64 = 0 ∧ f 12 4 % 64 = 0 ∧
  (∀ o, o = 20 ∨ o = 24 ∨ o = 28 ∨ o = 32 ∨ o = 36 → f o 4 % 4096 = 0) ∧
  (∀ x ∈ extents, x.1 + x.2 ≤ 2 ^ 32) ∧ extents.Pairwise (fun x y => x.1 + x.2 ≤ y.1 ∨ y.1 + y.2 ≤ x.1)

theorem validDescriptor_iff (b : List Byte) (xbase : Nat) : validDescriptor b xbase = true ↔ goodDescriptor b xbase := by
  have aligned :
      [(parseDescriptor b).report, (parseDescriptor b).imageA, (parseDescriptor b).imageB, (parseDescriptor b).editionA,
        (parseDescriptor b).editionB].all (fun a => decide (a % 4096 = 0)) = true ↔
      ∀ o, o = 20 ∨ o = 24 ∨ o = 28 ∨ o = 32 ∨ o = 36 → fieldAt b o 4 % 4096 = 0 := by
    simp [forall_eq_or_imp, parseDescriptor]
  simp only [goodDescriptor, validDescriptor, Bool.and_eq_true, decide_eq_true_eq, aligned, allApart_iff]
  simp only [List.all_eq_true, decide_eq_true_eq, and_assoc]
  exact Iff.rfl

theorem stateRegister_of_faulted {s : State} {c : FaultCause} (engine : s.engine = .faulted c) :
    s.readRegister 0x08 = match c with
      | .descriptor => 0x104
      | .memory => 0x204 := by
  cases c <;> simp [State.readRegister, State.stateRegister, engine, Engine.code, Engine.resumable, Engine.causeCode]

/-- Settles O11: the model's check is the list of R187, and each of its answers is what the obligation gives. -/
theorem descriptorReadValidates : Obligations.DescriptorReadValidates := by
  intro s high engine unread b f extents good
  obtain ⟨t, run, settled⟩ := recorded_settled (s := s) (f := fun s =>
    if s.engine = .starting ∧ s.exch.descriptor = none then
      let b := s.descriptorBytes
      if validDescriptor b s.regs.xbase.toNat then
        allRecordsDue { s with exch := { s.exch with descriptor := some (parseDescriptor b) } }
      else fault .descriptor s
    else s) high
  have answer : exec .descriptorRead s = .next t := run
  simp only [engine, unread, and_self, if_true] at settled
  have valid : validDescriptor s.descriptorBytes s.regs.xbase.toNat = true ↔ good := validDescriptor_iff _ _
  by_cases passes : good
  · rw [if_pos (valid.2 passes)] at settled
    refine ⟨t, answer, settled.mem, settled.xbase, settled.run, settled.evmask, fun _ => ⟨settled.engine,
      settled.events, settled.descriptor, fun r => settled.wanted r (Vector.getElem_replicate r.isLt)⟩, (absurd passes)⟩
  · rw [if_neg (mt valid.1 passes)] at settled
    refine ⟨t, answer, settled.mem, settled.xbase, settled.run, settled.evmask, (absurd · passes), fun _ =>
      ⟨settled.engine, stateRegister_of_faulted settled.engine, ?_, settled.descriptor.trans unread⟩⟩
    rw [settled.events]
    exact fault_raises_fault .descriptor s

/-! ### The end of STARTING -/

theorem sameStrip_of_exch {s u : State} (t : Strip) (strips : u.exch.priority = s.exch.priority ∧ u.exch.routine = s.exch.routine)
    (descriptor : u.exch.descriptor = s.exch.descriptor) (mem : u.mem = s.mem) : SameStrip t s u where
  strip := by
    cases t
    · exact strips.1
    · exact strips.2
  addr := (stripAddr_of_desc descriptor t).1
  count := (stripAddr_of_desc descriptor t).2
  bytes _ _ := by rw [mem]

/-- Starting the scan interval timer shows in no strip. -/
theorem Seen.startScan {t : Strip} {u v : State} (seen : Seen t u v) : Seen t u (startScan v) := by
  cases t <;> exact ⟨seen.passed, seen.taken, seen.unknown⟩

/-- The visits that an entry to RUNNING makes, seen from the state `s` before the entry `u`. -/
theorem startStrips_visited {s u t : State} (settled : Settled (startStrips u) t) (running : u.running = true)
    (strips : ∀ k, SameStrip k s u) (wf : Memory.wf s.mem = true) (mem : u.mem = s.mem) (apart : s.stripsApart)
    (pos : ∀ k, (s.strip k).position < s.stripCount k) (k : Strip) : Visited k s t := by
  have apart' : u.stripsApart := by simpa only [State.stripsApart, (strips _).addr, (strips _).count] using apart
  have both := visitBoth_visited running (by rwa [mem]) apart' fun k => by rw [(strips k).strip, (strips k).count]; exact pos k
  have place : ∀ k, (startStrips u).stripAddr k = u.stripAddr k ∧ (startStrips u).stripCount k = u.stripCount k :=
    stripAddr_of_desc (congrArg Spine.descriptor (startStrips_spine u))
  have seen : Seen k s (startStrips u) := (both.seen k).startScan.congr (strips k) (.refl k _) (place k) (pos k)
  exact (seen.settled settled).visited

theorem recordsDone_of_wanted {s : State} (done : ∀ r : Fin 29, s.report.wanted[r] = false) : s.recordsDone = true := by
  simp only [State.recordsDone, List.all_eq_true, done, Bool.not_false, implies_true]

/-- The scan interval timer set to `timer`. -/
def State.withScanTimer (s : State) (timer : Option Time) : State := { s with exch := { s.exch with scanTimer := timer } }

/-- Settles O12: the entry to RUNNING is the summary record made due, and then the visits. -/
theorem startingEndEntersRunning : Obligations.StartingEndEntersRunning := by
  intro s high engine present done pos
  obtain ⟨t, run, settled⟩ := scheduled_settled (s := s) (f := fun s =>
    if s.engine = .starting ∧ s.exch.descriptor.isSome = true ∧ s.recordsDone = true then enterRunning s else s) high
  simp only [engine, Option.isSome_iff_ne_none.2 present, recordsDone_of_wanted done, and_self, if_true] at settled
  have strips (k : Strip) : SameStrip k s (entered s) := sameStrip_of_exch k ⟨rfl, rfl⟩ rfl rfl
  have pos' (k : Strip) : ((entered s).strip k).position < (entered s).stripCount k := by
    rw [(strips k).strip, (strips k).count]
    exact pos k
  obtain ⟨frame, elsewhere, -⟩ := visitBoth_frame pos'
  refine ⟨t, run, kept_visits ?_ settled rfl, fun a priority routine => ?_, fun wf apart k =>
    startStrips_visited settled rfl strips wf rfl apart pos k⟩
  · have desc : (visitBoth (entered s)).desc = s.desc := by
      simp only [State.desc, (offStrips_eq frame).2.1]
      rfl
    have timed := congrArg (State.withScanTimer ·
      (if s.desc.scanInterval = 0 then none else some (s.desc.scanInterval * Config.ms))) frame
    rw [enterRunning, startStrips, startScan, desc]
    exact timed
  · rw [settled.mem]
    refine elsewhere a ?_ ?_ <;> simpa only [State.outsideStrip, (strips _).addr, (strips _).count]

end Sys2Proof.Machine

/-!
The tests of the edition manager (R60 to R63): what an activation and a warning leave of the rest of the part, and the entry
to RUNNING from HALTED, which makes them.
-/
namespace Sys2Proof.Machine

/-! ### What roster and scheduler work leaves alone -/

/-- The state apart from the roster slots, the scheduler, the sweeps, the exchanges and record timers of the ports, and which
records are due. -/
def State.frame (s : State) : State :=
  { s.bare with roster := { s.roster with slots := Vector.replicate 24 .cold } }

theorem frame_of_bare {s u : State} (h : s.bare = u.bare) : s.frame = u.frame := by
  have roster : s.roster = u.roster := by
    have same := congrArg State.roster h
    exact same
  rw [State.frame, State.frame, h, roster]

/-- What the frame shows. -/
theorem of_frame {s u : State} (h : s.frame = u.frame) :
    s.regs = u.regs ∧ s.engine = u.engine ∧ s.resetLow = u.resetLow ∧ s.exch = u.exch ∧ s.change = u.change ∧
    s.editions = u.editions ∧ s.clock = u.clock ∧ s.profiles = u.profiles ∧ s.mem = u.mem ∧ s.pending = u.pending ∧
    s.report.counts = u.report.counts ∧ s.report.waiting = u.report.waiting ∧ ∀ l, (s.port l).core = (u.port l).core := by
  have e : ∀ {γ : Type} (g : State → γ), g s.frame = g u.frame := fun g => congrArg g h
  refine ⟨e State.regs, e State.engine, e State.resetLow, e State.exch, e State.change, e State.editions, e State.clock,
    e State.profiles, e State.mem, e State.pending, e (·.report.counts), e (·.report.waiting), fun l => ?_⟩
  have port := e (fun s => s.ports[l])
  simpa [State.frame, State.bare, State.port] using port

@[simp] theorem modSlot_frame (s : State) (n : Fin 24) (f : Slot → Slot) : (s.modSlot n f).frame = s.frame := rfl
@[simp] theorem setSlot_frame (s : State) (n : Fin 24) (v : Slot) : (s.setSlot n v).frame = s.frame := rfl
@[simp] theorem modArbiter_frame (s : State) (l : Fin 4) (f : Arbiter → Arbiter) : (s.modArbiter l f).frame = s.frame := rfl
@[simp] theorem want_frame (s : State) (r : Fin 29) : (want r s).frame = s.frame := rfl
theorem awaitRecords_frame (s : State) (rs : List (Fin 29)) (a : WaitAct) :
    (awaitRecords rs a s).frame = awaitRecords rs a s.frame := rfl
@[simp] theorem refreshIncapable_frame (s : State) (n : Fin 24) : (refreshIncapable n s).frame = s.frame := rfl
@[simp] theorem stageToInstall_frame (s : State) : (stageToInstall s).frame = s.frame := rfl
@[simp] theorem abandonWhere_frame (s : State) (p : Delivery → Bool) : (abandonWhere p s).frame = s.frame :=
  frame_of_bare (abandonWhere_bare s p)
@[simp] theorem endGroups_frame (s : State) (c : Cls) : (endGroups c s).frame = s.frame := frame_of_bare (endGroups_bare s c)
@[simp] theorem boundaries_frame (s : State) : (boundaries s).frame = s.frame := frame_of_bare (boundaries_bare s)

@[simp] theorem reevaluate_frame (s : State) (n : Fin 24) : (reevaluate n s).frame = s.frame := by
  unfold reevaluate
  split <;> simp

@[simp] theorem reevaluateAll_frame (s : State) : (reevaluateAll s).frame = s.frame :=
  forSlots_keeps State.frame reevaluate (fun n s => reevaluate_frame s n) allSlots s

@[simp] theorem editionsChanged_frame (s : State) : (editionsChanged s).frame = s.frame := by
  rw [editionsChanged, reevaluateAll_frame,
    forSlots_keeps State.frame refreshIncapable (fun n s => refreshIncapable_frame s n)]

@[simp] theorem flagUnconfirmed_frame (s : State) (e : EditionRef) : (flagUnconfirmed e s).frame = s.frame := by
  unfold flagUnconfirmed
  refine forSlots_keeps State.frame _ (fun n s => ?_) allSlots s
  split
  · dsimp only
    split
    · split <;> simp
    · simp
  · rfl

/-! ### Which records stay due -/

theorem abandonWhere_report (s : State) (p : Delivery → Bool) : (abandonWhere p s).report = s.report := by
  unfold abandonWhere
  refine forSlots_keeps State.report _ (fun n s => ?_) allSlots s
  split
  · split
    · exact abandon_report s n
    · rfl
  · rfl

theorem endGroups_report (s : State) (c : Cls) : (endGroups c s).report = s.report :=
  foldl_keeps State.report (fun s (g : Group) => endTurns (.group g.id) s) (fun _ _ => rfl) _ s

theorem stageToInstall_report (s : State) : (stageToInstall s).report = s.report := rfl

theorem reevaluate_report (s : State) (n : Fin 24) : (reevaluate n s).report = s.report := by
  unfold reevaluate
  split <;> rfl

theorem reevaluateAll_report (s : State) : (reevaluateAll s).report = s.report :=
  forSlots_keeps State.report reevaluate (fun n s => reevaluate_report s n) allSlots s

theorem editionsChanged_report (s : State) : (editionsChanged s).report = s.report := by
  rw [editionsChanged, reevaluateAll_report, forSlots_keeps State.report refreshIncapable (fun _ _ => rfl)]

theorem flagUnconfirmed_report (s : State) (e : EditionRef) : (flagUnconfirmed e s).report = s.report := by
  unfold flagUnconfirmed
  refine forSlots_keeps State.report _ (fun n s => ?_) allSlots s
  split
  · dsimp only
    split
    · split <;> rfl
    · rfl
  · rfl

theorem raiseAfter_summary (n : Notice) {s : State} (healthy : s.isFaulted = false) :
    raiseAfter n [summaryRec] s = awaitRecords [summaryRec] (.notice n) (want summaryRec s) := by
  rw [raiseAfter, healthy]
  rfl

/-! ### Activation and warning -/

/-- The activation without its effect on roster, deliveries and groups. -/
def State.activated (s : State) : State :=
  awaitRecords [summaryRec] (.notice .edition) (want summaryRec { s with editions := s.editions.activate })

/-- The at-risk warning. -/
def State.warned (s : State) : State :=
  awaitRecords [summaryRec] (.notice .edition)
    (want summaryRec (setPending { s.editions.pending with warned := true, atRisk := true } s))

/-- The state before the notice of an activation is set to wait. -/
def State.activating (s : State) : State :=
  editionsChanged (flagUnconfirmed ⟨s.editions.pending.number, s.editions.pending.digest⟩ (stageToInstall
    (endGroups .install (abandonWhere (fun d => d.mode = .install) { s with editions := s.editions.activate }))))

theorem activating_frame (s : State) : s.activating.frame = ({ s with editions := s.editions.activate } : State).frame := by
  simp [State.activating]

theorem activating_report (s : State) : s.activating.report = s.report := by
  rw [State.activating, editionsChanged_report, flagUnconfirmed_report, stageToInstall_report, endGroups_report,
    abandonWhere_report]

theorem activate_eq {s : State} (work : s.working = true) :
    activate s = awaitRecords [summaryRec] (.notice .edition) (want summaryRec s.activating) := by
  have engine : s.activating.engine = s.engine := (of_frame (activating_frame s)).2.1
  change raiseAfter .edition [summaryRec] s.activating = _
  refine raiseAfter_summary .edition ?_
  simpa only [State.isFaulted, engine] using not_isFaulted_of_working work

theorem activate_frame {s : State} (work : s.working = true) : (activate s).frame = s.activated.frame := by
  simp only [activate_eq work, State.activated, awaitRecords_frame, want_frame, activating_frame]

theorem activate_report {s : State} (work : s.working = true) : (activate s).report = s.activated.report := by
  rw [activate_eq work]
  simp only [State.activated, awaitRecords, want, activating_report]

theorem riskCheck_warns {s : State} (work : s.working = true) (risk : (s.riskWindow && allSlots.any s.lacks) = true) :
    riskCheck s = s.warned := by
  rw [riskCheck, if_pos risk]
  exact raiseAfter_summary .edition
    (s := setPending { s.editions.pending with warned := true, atRisk := true } s) (not_isFaulted_of_working work)

theorem riskCheck_rests {s : State} (safe : ¬ (s.riskWindow && allSlots.any s.lacks) = true) : riskCheck s = s := if_neg safe

theorem holdsPending_iff (v : Slot) (e : EditionRef) : v.holdsPending e = true ↔ ∃ m, v.heldPending = some ⟨e, true, m⟩ := by
  unfold Slot.holdsPending
  split
  · next p held =>
    simp only [held, Bool.and_eq_true, decide_eq_true_eq, Option.some.injEq]
    exact ⟨fun ⟨same, whole⟩ => ⟨p.mask, by cases p; cases same; cases whole; rfl⟩, fun ⟨m, eq⟩ => by rw [eq]; exact ⟨rfl, rfl⟩⟩
  · next none => simp [none]

theorem lacks_iff (s : State) (n : Fin 24) : s.lacks n = true ↔ s.lacksPending n := by
  have held : (s.slot n).holdsPending ⟨s.editions.pending.number, s.editions.pending.digest⟩ = false ↔
      ∀ m, (s.slot n).heldPending ≠ some ⟨⟨s.editions.pending.number, s.editions.pending.digest⟩, true, m⟩ := by
    rw [← Bool.not_eq_true, holdsPending_iff, not_exists]
  simp only [State.lacks, State.lacksPending, Bool.and_eq_true, Bool.or_eq_true, decide_eq_true_eq, Bool.not_eq_true', held,
    or_assoc]

theorem activationDue_iff (s : State) : s.activationDue = true ↔ s.dueNow := by
  simp [State.activationDue, State.dueNow, and_assoc]

theorem riskWindow_iff (s : State) : (s.riskWindow && allSlots.any s.lacks) = true ↔ s.riskNow := by
  simp only [State.riskWindow, State.riskNow, Bool.and_eq_true, decide_eq_true_eq, Bool.not_eq_true', List.any_eq_true, lacks_iff,
    allSlots, List.mem_finRange, true_and]
  tauto

theorem not_riskNow_of_dueNow {s : State} (due : s.dueNow) : ¬ s.riskNow := fun risk => by
  have reached := due.2.2
  have ahead := risk.2.2.2.1
  omega

/-- The tests act by the clock and the pending edition. -/
theorem editionTests_cases {s : State} (work : s.working = true) :
    (s.dueNow ∧ editionTests s = activate s) ∨ (s.riskNow ∧ editionTests s = s.warned) ∨
    (¬ s.dueNow ∧ ¬ s.riskNow ∧ editionTests s = s) := by
  have tests : editionTests s = if s.activationDue then activate s else riskCheck s := by simp [editionTests, work]
  by_cases due : s.dueNow
  · exact .inl ⟨due, by rw [tests, if_pos ((activationDue_iff s).2 due)]⟩
  · have later : editionTests s = riskCheck s := by rw [tests, if_neg (mt (activationDue_iff s).1 due)]
    by_cases risk : s.riskNow
    · exact .inr (.inl ⟨risk, later.trans (riskCheck_warns work ((riskWindow_iff s).2 risk))⟩)
    · exact .inr (.inr ⟨due, risk, later.trans (riskCheck_rests (mt (riskWindow_iff s).1 risk))⟩)

/-- A notice set to wait for the summary record, of all the marks of the report writer. -/
structure AwaitsEdition (s t : State) : Prop where
  counts : t.report.counts = s.report.counts
  waiting : t.report.waiting = s.report.waiting ++ [⟨[summaryRec], .notice .edition⟩]
  wanted : ∀ r : Fin 29, t.report.wanted[r] = (decide (summaryRec = r) || s.report.wanted[r])

theorem activated_awaits (s : State) : AwaitsEdition s s.activated := ⟨rfl, rfl, fun r => want_wanted _ summaryRec r⟩

theorem warned_awaits (s : State) : AwaitsEdition s s.warned := ⟨rfl, rfl, fun r => want_wanted _ summaryRec r⟩

theorem activate_awaits {s : State} (work : s.working = true) : AwaitsEdition s (activate s) := by
  have own := activated_awaits s
  constructor <;> rw [activate_report work]
  · exact own.counts
  · exact own.waiting
  · exact own.wanted

theorem AwaitsEdition.due {s t : State} (awaits : AwaitsEdition s t) :
    t.report.wanted[summaryRec] = true ∧ (⟨[summaryRec], .notice .edition⟩ : Waiting) ∈ t.report.waiting := by
  rw [awaits.wanted, awaits.waiting]
  exact ⟨rfl, List.mem_append_right _ (List.mem_singleton_self _)⟩

/-- R60, R62: what the tests do to the edition slots. -/
theorem editionTests_tested {s : State} (work : s.working = true) : EditionTested s (editionTests s) := by
  rcases editionTests_cases work with ⟨due, acts⟩ | ⟨risk, acts⟩ | ⟨noDue, noRisk, acts⟩ <;> rw [acts]
  · have editions : (activate s).editions = s.editions.activate := (of_frame (activate_frame work)).2.2.2.2.2.1
    refine ⟨fun _ => ?_, fun risk => absurd risk (not_riskNow_of_dueNow due), fun noDue => absurd due noDue⟩
    rw [editions]
    exact ⟨rfl, rfl, (activate_awaits work).due⟩
  · exact ⟨fun due => absurd risk (not_riskNow_of_dueNow due), fun _ => ⟨rfl, rfl, (warned_awaits s).due⟩,
      fun _ noRisk => absurd risk noRisk⟩
  · exact ⟨fun due => absurd due noDue, fun risk => absurd risk noRisk, fun _ _ => ⟨rfl, rfl⟩⟩

/-- What the tests leave: all but the two edition slots, in the frame. -/
theorem editionTests_frame {s : State} (work : s.working = true) :
    ∃ a p w, (editionTests s).frame =
      ({ s with editions := { s.editions with active := a, pending := p }, report := { s.report with waiting := w } } : State).frame := by
  rcases editionTests_cases work with ⟨-, acts⟩ | ⟨-, acts⟩ | ⟨-, -, acts⟩ <;> rw [acts]
  · rw [activate_frame work]
    exact ⟨_, _, _, rfl⟩
  · exact ⟨_, _, _, rfl⟩
  · exact ⟨_, _, _, rfl⟩

/-- The tests make no record wait less. -/
theorem editionTests_wanted {s : State} (work : s.working = true) (r : Fin 29) (due : s.report.wanted[r] = true) :
    (editionTests s).report.wanted[r] = true := by
  rcases editionTests_cases work with ⟨-, acts⟩ | ⟨-, acts⟩ | ⟨-, -, acts⟩ <;> rw [acts]
  · rw [(activate_awaits work).wanted, due, Bool.or_true]
  · rw [(warned_awaits s).wanted, due, Bool.or_true]
  · exact due

end Sys2Proof.Machine

/-!
RUN taken (R203): the row of the table that a write to CONTROL takes, and the resume from HALTED with its acts (R208).
-/
namespace Sys2Proof.Machine

theorem isFaulted_eq_false_iff (s : State) : s.isFaulted = false ↔ ∀ cause, s.engine ≠ .faulted cause := by
  rw [← Bool.not_eq_true, isFaulted_iff, not_exists]

theorem exec_run {s : State} {v : Word} (bit : v.getLsbD 1 = false) (high : s.resetLow = false)
    (healthy : s.isFaulted = false) : exec (.run v) s = scheduled s (takeRun (v.getLsbD 0)) := by
  unfold exec
  simp only [execRun, controlWrite, bit, high, healthy, Bool.false_eq_true, if_false]

/-- The rows of the table but the resume, as the state they leave. -/
theorem takeRun_row (s : State) (run : Bool) : s.isFaulted = false → (s.engine = .haltedResumable → run = false) →
    takeRun run s = match s.engine, run with
      | .haltedCold, true => { s with regs := { s.regs with run := true }, engine := .starting }
      | .starting, false =>
        { s with regs := { s.regs with run := false }, engine := .haltedCold,
                 exch := { s.exch with descriptor := none }, report := .cold }
      | .running, false =>
        want summaryRec { s with regs := { s.regs with run := false }, engine := .stopping,
                                 exch := { s.exch with scanTimer := none } }
      | _, b => { s with regs := { s.regs with run := b } } := by
  obtain ⟨regs, engine⟩ := s
  intro healthy notResumed
  cases engine with
  | faulted cause => cases healthy
  | haltedResumable =>
    cases notResumed rfl
    rfl
  | _ => cases run <;> rfl

/-! ### The resume -/

/-- What the edition tests at the resume leave. -/
def State.resumeTested (s : State) : State := editionTests (entered s)

theorem resumed_eq (s : State) :
    resumed s = if s.resumeTested.clock.isSet then markTime s.resumeTested else s.resumeTested := rfl

/-- The resume's acts before its visits, field by field. -/
theorem resumed_keeps (s : State) :
    (resumed s).exch = s.exch ∧ (resumed s).mem = s.mem ∧ (resumed s).change = s.change ∧ (resumed s).clock = s.clock ∧
    (resumed s).profiles = s.profiles ∧ (resumed s).report = s.resumeTested.report ∧
    (resumed s).editions.active = s.resumeTested.editions.active ∧
    (resumed s).editions.pending = s.resumeTested.editions.pending ∧
    ∀ l : Fin 4, s.clock.isSet = true → s.lineOn l = true → (resumed s).editions.timeDue[l] = true := by
  obtain ⟨a, p, w, frame⟩ := editionTests_frame (s := entered s) rfl
  obtain ⟨-, -, -, exch, change, -, clock, profiles, mem, -, -, -, ports⟩ := of_frame frame
  have clock' : s.resumeTested.clock = s.clock := clock
  have line (l : Fin 4) : s.resumeTested.lineOn l = s.lineOn l := by
    have mode : (s.resumeTested.port l).mode = (s.port l).mode := by
      have core := congrArg Port.mode (ports l)
      exact core
    simp only [State.lineOn, mode]
  rw [resumed_eq]
  split
  · refine ⟨exch, mem, change, clock, profiles, rfl, rfl, rfl, fun l _ on => ?_⟩
    simp only [markTime, Fin.getElem_fin, Vector.getElem_ofFn, line, on, Bool.or_true]
  · next unset =>
    rw [clock'] at unset
    exact ⟨exch, mem, change, clock, profiles, rfl, rfl, rfl, fun l set => absurd set unset⟩

theorem startStrips_keeps (s : State) :
    (startStrips s).change = s.change ∧ (startStrips s).clock = s.clock ∧ (startStrips s).profiles = s.profiles ∧
    (startStrips s).report = s.report ∧ (startStrips s).editions = s.editions ∧ (startStrips s).ports = s.ports ∧
    (startStrips s).exch.scanTimer =
      if s.desc.scanInterval = 0 then none else some (s.desc.scanInterval * Config.ms) := by
  obtain ⟨-, -, descriptor, -, -, -, -, -, ports, -, -, report, change, editions, clock, -, profiles, -⟩ :=
    offStrip_eq (visit_offStrip .priority s)
  obtain ⟨-, -, descriptor', -, -, -, -, -, ports', -, -, report', change', editions', clock', -, profiles', -⟩ :=
    offStrip_eq (visit_offStrip .routine (visit .priority s))
  have desc : (visitBoth s).desc = s.desc := by
    simp only [State.desc, show (visitBoth s).exch.descriptor = s.exch.descriptor from descriptor'.trans descriptor]
  refine ⟨change'.trans change, clock'.trans clock, profiles'.trans profiles, report'.trans report,
    editions'.trans editions, ports'.trans ports, ?_⟩
  simp only [startStrips, startScan, desc]

theorem EditionTested.congr {u v t t' : State} (tested : EditionTested v t)
    (same : v.editions = u.editions ∧ v.clock = u.clock ∧ v.roster = u.roster)
    (active : t'.editions.active = t.editions.active) (pending : t'.editions.pending = t.editions.pending)
    (wanted : t.report.wanted[summaryRec] = true → t'.report.wanted[summaryRec] = true)
    (waiting : t'.report.waiting = t.report.waiting) : EditionTested u t' := by
  obtain ⟨editions, clock, roster⟩ := same
  have due : v.dueNow ↔ u.dueNow := by rw [State.dueNow, State.dueNow, editions, clock]
  have lacking (n : Fin 24) : v.lacksPending n ↔ u.lacksPending n := by
    simp only [State.lacksPending, State.slot, editions, roster]
  have risk : v.riskNow ↔ u.riskNow := by simp only [State.riskNow, lacking, editions, clock]
  refine ⟨fun h => ?_, fun h => ?_, fun noDue noRisk => ?_⟩
  · obtain ⟨hActive, hPending, hWanted, hWaiting⟩ := tested.activates (due.2 h)
    rw [editions] at hActive hPending
    exact ⟨active.trans hActive, pending.trans hPending, wanted hWanted, waiting ▸ hWaiting⟩
  · obtain ⟨hActive, hPending, hWanted, hWaiting⟩ := tested.warns (risk.2 h)
    rw [editions] at hActive hPending
    exact ⟨active.trans hActive, pending.trans hPending, wanted hWanted, waiting ▸ hWaiting⟩
  · obtain ⟨hActive, hPending⟩ := tested.rests (mt due.1 noDue) (mt risk.1 noRisk)
    rw [editions] at hActive hPending
    exact ⟨active.trans hActive, pending.trans hPending⟩

/-- Settles O5: FAULTED takes nothing, the rows but the resume are equations, and the resume is its acts and then the
visits. -/
theorem runRequestMovesEngine : Obligations.RunRequestMovesEngine := by
  intro s v bit high
  refine ⟨fun faulted => ?_, fun healthy notResumed => ?_, fun engine asked => ?_⟩
  · unfold exec
    simp only [execRun, controlWrite, high, bit, faulted, Bool.false_eq_true, if_false, if_true]
  · obtain ⟨t, run, settled⟩ := scheduled_settled (f := takeRun (v.getLsbD 0)) high
    rw [takeRun_row s _ healthy notResumed] at settled
    exact ⟨t, (exec_run bit high healthy).trans run, settled⟩
  · have healthy : s.isFaulted = false := (isFaulted_eq_false_iff s).2 fun cause => by rw [engine]; exact nofun
    obtain ⟨t, run, settled⟩ := scheduled_settled (f := takeRun (v.getLsbD 0)) high
    have row : takeRun (v.getLsbD 0) s = resume { s with regs := { s.regs with run := true } } := by
      rw [asked]
      simp [takeRun, engine]
    rw [row, resume] at settled
    set u : State := { s with regs := { s.regs with run := true } }
    obtain ⟨exch, mem, change, clock, profiles, report, active, pending, timeDue⟩ := resumed_keeps u
    obtain ⟨change', clock', profiles', report', editions', -, scanTimer⟩ := startStrips_keeps (resumed u)
    obtain ⟨engine', -, -, running, xbase, evmask, descriptor⟩ :=
      of_spine ((startStrips_spine (resumed u)).trans (resumed_spine u))
    have desc : (resumed u).desc = s.desc := by
      simp only [State.desc, exch]
      rfl
    have summary : t.report.wanted[summaryRec] = true := by
      refine settled.wanted summaryRec ?_
      rw [report', report]
      exact editionTests_wanted (s := entered u) rfl summaryRec (by rw [entered, want_wanted]; rfl)
    refine ⟨t, (exec_run bit high healthy).trans run, settled.engine.trans engine', settled.run.trans running, summary,
      fun l set on => ?_, ?_, settled.clock.trans (clock'.trans clock), settled.descriptor.trans descriptor,
      settled.profiles.trans (profiles'.trans profiles), settled.change.trans (change'.trans change),
      settled.xbase.trans xbase, settled.evmask.trans evmask, ?_, fun wf apart pos k => ?_⟩
    · rw [settled.editions, editions']
      exact timeDue l set on
    · rw [settled.scanTimer, scanTimer, desc]
    · refine (editionTests_tested (s := entered u) rfl).congr ⟨rfl, rfl, rfl⟩ ?_ ?_ (fun _ => summary) ?_
      · rw [settled.editions, editions']
        exact active
      · rw [settled.editions, editions']
        exact pending
      · rw [settled.waiting, report', report]
        rfl
    · have entered : (resumed u).engine = .running := congrArg Spine.engine (resumed_spine u)
      exact startStrips_visited (s := s) settled (by simp [State.running, entered]) (fun k => sameStrip_of_exch k
        ⟨congrArg ExchangeIf.priority exch, congrArg ExchangeIf.routine exch⟩ (congrArg ExchangeIf.descriptor exch) mem) wf mem apart pos k

end Sys2Proof.Machine

/-!
What the change engine's work on pages leaves alone, and what handing over notices and outcomes leaves alone.
-/
namespace Sys2Proof.Machine

/-! ### Work on pages -/

/-- The state apart from shared memory and the change engine. -/
def State.offImage (s : State) : State := { s with mem := [], change := State.reset.change }

/-- What `offImage` shows. -/
theorem of_offImage {s u : State} (h : s.offImage = u.offImage) :
    s.spine = u.spine ∧ s.exch = u.exch ∧ s.regs = u.regs ∧ s.engine = u.engine ∧ s.editions = u.editions ∧
    s.clock = u.clock ∧ s.roster = u.roster ∧ s.ports = u.ports ∧ s.profiles = u.profiles ∧ s.sched = u.sched ∧
    s.sweeps = u.sweeps ∧ s.report = u.report ∧ s.pending = u.pending := by
  have e : ∀ {γ : Type} (g : State → γ), g s.offImage = g u.offImage := fun g => congrArg g h
  exact ⟨e State.spine, e State.exch, e State.regs, e State.engine, e State.editions, e State.clock, e State.roster,
    e State.ports, e State.profiles, e State.sched, e State.sweeps, e State.report, e State.pending⟩

@[simp] theorem mem_change_offImage (s : State) (m : List Host.Cell) (c : ChangeEngine) :
    ({ s with mem := m, change := c } : State).offImage = s.offImage := rfl
@[simp] theorem change_offImage (s : State) (c : ChangeEngine) : ({ s with change := c } : State).offImage = s.offImage := rfl
@[simp] theorem mem_offImage (s : State) (m : List Host.Cell) : ({ s with mem := m } : State).offImage = s.offImage := rfl

@[simp] theorem touchNew_offImage (h : Bool) (p k : Nat) (hot : Bool) (s : State) (r : Rebuild) :
    (touchNew h p k hot s r).offImage = s.offImage := by
  unfold touchNew
  split <;> rfl

/-- What the item's operation does to the new image of the rebuild `r`. -/
def State.appliedNew (s : State) (r : Rebuild) (i : Item) : Applied :=
  if i.operation = 1 then applyAdd s.mem (s.newSurface r) (workCount r.table) i.entry
  else applyRemove s.mem (s.newSurface r) (workCount r.table) i.entry.key

theorem mirror_of_rebuild {s : State} {r : Rebuild} (runs : s.change.rebuild = some r) (h : Bool) (i : Item) :
    mirror h i s = match (s.appliedNew r i).page with
      | some (p, live) => touchNew h p live true { s with mem := (s.appliedNew r i).mem } r
      | none =>
        if (s.appliedNew r i).outcome = .full then
          { s with
            mem := (s.appliedNew r i).mem
            change := { s.change with rebuild := some { r with unplaced := r.unplaced + 1 } } }
        else { s with mem := (s.appliedNew r i).mem } := by
  unfold mirror
  rw [runs]
  rfl

@[simp] theorem mirror_offImage (h : Bool) (i : Item) (s : State) : (mirror h i s).offImage = s.offImage := by
  cases runs : s.change.rebuild with
  | none => rw [mirror, runs]
  | some r =>
    rw [mirror_of_rebuild runs]
    split
    · simp
    · split <;> rfl

@[simp] theorem applyLive_offImage (b : Batch) (s : State) : (applyLive b s).offImage = s.offImage := by
  unfold applyLive
  generalize s.applied b = a
  dsimp only
  split <;> rfl

@[simp] theorem applyNext_offImage (b : Batch) (s : State) : (applyNext b s).1.offImage = s.offImage := by
  unfold applyNext
  dsimp only
  split <;> simp

@[simp] theorem itemDone_offImage (o : ItemOutcome) (s : State) : (itemDone o s).offImage = s.offImage := by
  unfold itemDone
  split
  · rfl
  · next b _ =>
    generalize Memory.write s.mem (b.list + 16 * b.next + 11) o.code = m
    rfl

@[simp] theorem raiseG_offImage (s : State) : (raiseG s).offImage = s.offImage := rfl

@[simp] theorem bringUp_offImage (u : Bool) (p : Nat) (s : State) : (bringUp u p s).offImage = s.offImage := by
  unfold bringUp
  simp only
  split
  · rfl
  · rw [mem_change_offImage]

@[simp] theorem bringUpAll_offImage (u : Bool) (ps : List Nat) (s : State) : (bringUpAll u ps s).offImage = s.offImage :=
  foldl_keeps State.offImage _ (fun s p => bringUp_offImage u p s) ps s

@[simp] theorem stampPage_offImage (u : Bool) (p : Nat) (s : State) : (stampPage u p s).offImage = s.offImage := by
  unfold stampPage
  dsimp only
  split <;> rfl

@[simp] theorem partialHeaders_offImage (u : Bool) (ps : List Nat) (k : Nat) (s : State) :
    (partialHeaders u ps k s).offImage = s.offImage := by
  unfold partialHeaders
  dsimp only
  split <;> simp

@[simp] theorem startFormat_offImage (t : Strip) (r : Request) (k : Nat) (s : State) :
    (startFormat t r k s).offImage = s.offImage := rfl

@[simp] theorem startRebuild_offImage (t : Strip) (r : Request) (s : State) :
    (startRebuild t r s).offImage = s.offImage := rfl

@[simp] theorem resumeRebuild_offImage (s : State) : (resumeRebuild s).offImage = s.offImage := rfl
@[simp] theorem lookAround_offImage (s : State) : (lookAround s).offImage = s.offImage := rfl
@[simp] theorem setRebuild_offImage (r : Rebuild) (s : State) : (setRebuild r s).offImage = s.offImage := rfl
@[simp] theorem switchTo_offImage (f : Format) (s : State) : (switchTo f s).offImage = s.offImage := rfl
@[simp] theorem swapTo_offImage (r : Rebuild) (s : State) : (swapTo r s).offImage = s.offImage := rfl
@[simp] theorem clearPages_offImage (k : Nat) (r : Rebuild) (s : State) : (clearPages k r s).offImage = s.offImage := rfl
@[simp] theorem clearSlice_offImage (r : Rebuild) (s : State) : (clearSlice r s).offImage = s.offImage := rfl

@[simp] theorem placeCopied_offImage (hot : Bool) (s : State) (e : Entry) :
    (placeCopied hot s e).offImage = s.offImage := by
  unfold placeCopied
  split
  · rfl
  · dsimp only
    split <;> simp

@[simp] theorem copyPage_offImage (p : Nat) (s : State) : (copyPage p s).offImage = s.offImage := by
  unfold copyPage
  split
  · exact foldl_keeps State.offImage _ (fun s e => placeCopied_offImage _ s e) _ s
  · rfl

@[simp] theorem copyPages_offImage (k : Nat) (s : State) : (copyPages k s).offImage = s.offImage :=
  foldl_keeps State.offImage _ (fun s _ => copyPage_offImage _ s) _ s

@[simp] theorem finishPage_offImage (p : Nat) (s : State) : (finishPage p s).offImage = s.offImage := by
  unfold finishPage
  split
  · rfl
  · dsimp only
    split <;> rfl

@[simp] theorem finishPages_offImage (first k : Nat) (s : State) : (finishPages first k s).offImage = s.offImage :=
  foldl_keeps State.offImage _ (fun s _ => finishPage_offImage _ s) _ s

@[simp] theorem partialSlice_offImage (k : Nat) (s : State) : (partialSlice k s).offImage = s.offImage := by
  unfold partialSlice
  split
  · rfl
  · split
    · rfl
    · split <;> simp

@[simp] theorem purgePage_offImage (sd p : Nat) (x : State × List Nat) :
    (purgePage sd p x).1.offImage = x.1.offImage := by
  unfold purgePage
  dsimp only
  split <;> rfl

@[simp] theorem purgePages_offImage (sd k : Nat) (s : State) : (purgePages sd k s).1.offImage = s.offImage :=
  foldl_keeps (fun x : State × List Nat => x.1.offImage) (fun x p => purgePage sd p x)
    (fun x p => purgePage_offImage sd p x) _ _

@[simp] theorem queuePurge_offImage (s : State) : (queuePurge s).offImage = s.offImage := by
  obtain ⟨c, queued⟩ := queuePurge_eq_change s
  rw [queued]
  rfl

/-! ### Taking up -/

theorem boundPurge_eq (s : State) : ∃ p, boundPurge s = { s with change := { s.change with purge := p } } := by
  unfold boundPurge
  split
  · exact ⟨_, rfl⟩
  · exact ⟨s.change.purge, rfl⟩

/-- Taking a request up shows in the exchange interface, and at the change engine in the order of a queued purge job. -/
theorem takeUp_eq (t : Strip) (o : Owner) (s : State) : ∃ x p,
    takeUp t o s = { s with exch := x, change := { s.change with purge := p } } ∧ (o ≠ .change → p = s.change.purge) := by
  obtain ⟨x, left⟩ := leaveHolder_eq_exch s t
  obtain ⟨y, bound⟩ := boundStrip_eq_exch { s with exch := x } (otherStrip t) o
  unfold takeUp
  simp only [left, bound]
  split
  · next same =>
    obtain ⟨p, purge⟩ := boundPurge_eq { s with exch := y }
    exact ⟨y, p, purge, fun other => absurd same other⟩
  · exact ⟨y, s.change.purge, rfl, fun _ => rfl⟩

/-- Taking the purge job up shows in the exchange interface and empties its place. -/
theorem takePurge_eq (s : State) : ∃ x, takePurge s = { s with exch := x, change := { s.change with purge := .empty } } := by
  obtain ⟨x, first⟩ := boundStrip_eq_exch s .priority .change
  obtain ⟨y, second⟩ := boundStrip_eq_exch { s with exch := x } .routine .change
  exact ⟨y, by rw [takePurge, first, second]⟩

theorem takeUp_clock (t : Strip) (o : Owner) (s : State) : (takeUp t o s).clock = s.clock := by
  obtain ⟨x, p, same, -⟩ := takeUp_eq t o s
  rw [same]

theorem takePurge_clock (s : State) : (takePurge s).clock = s.clock := by
  obtain ⟨x, same⟩ := takePurge_eq s
  rw [same]

/-! ### Handing over notices and outcomes -/

/-- What a report keeps of the blocks that it shows: image, clock and profiles. -/
def State.ledger (s : State) : ChangeEngine × Clock × Vector Profile 4 := (s.change, s.clock, s.profiles)

theorem of_ledger {s u : State} (h : s.ledger = u.ledger) :
    s.change = u.change ∧ s.clock = u.clock ∧ s.profiles = u.profiles := by
  simpa only [State.ledger, Prod.mk.injEq] using h

theorem ledger_of_frame {s u : State} (h : s.frame = u.frame) : s.ledger = u.ledger := by
  obtain ⟨-, -, -, -, change, -, clock, profiles, -⟩ := of_frame h
  simp only [State.ledger, change, clock, profiles]

theorem ledger_of_offStrip {t : Strip} {s u : State} (h : s.offStrip t = u.offStrip t) : s.ledger = u.ledger := by
  have same := congrArg State.ledger h
  cases t <;> exact same

@[simp] theorem setStrip_ledger (s : State) (t : Strip) (v : StripState) : (s.setStrip t v).ledger = s.ledger := by
  cases t <;> rfl

@[simp] theorem raise_ledger (n : Notice) (s : State) : (raise n s).ledger = s.ledger := by
  unfold raise
  split <;> rfl

@[simp] theorem editionTests_ledger (s : State) : (editionTests s).ledger = s.ledger := by
  cases work : s.working with
  | false => rw [editionTests, work]; rfl
  | true =>
    obtain ⟨a, p, w, same⟩ := editionTests_frame work
    exact (ledger_of_frame same).trans rfl

@[simp] theorem setTestsDue_ledger (b : Bool) (s : State) : (setTestsDue b s).ledger = s.ledger := rfl

@[simp] theorem markTime_ledger (s : State) : (markTime s).ledger = s.ledger := rfl

@[simp] theorem deferredTests_ledger (t : Strip) (s : State) : (deferredTests t s).1.ledger = s.ledger := by
  obtain ⟨-, -, same⟩ | ⟨-, same⟩ := deferredTests_cases t s <;> simp [same]

@[simp] theorem completeAfterSummary_ledger (t : Strip) (r : Result) (s : State) :
    (completeAfterSummary t r s).ledger = s.ledger := rfl

@[simp] theorem completeRequest_ledger (t : Strip) (r : Result) (s : State) : (completeRequest t r s).ledger = s.ledger :=
  ledger_of_offStrip (completeRequest_offStrip t r s)

@[simp] theorem finish_ledger (t : Strip) (n : Bool) (r : Result) (s : State) : (finish t n r s).ledger = s.ledger :=
  ledger_of_offStrip (finish_offStrip t n r s)

@[simp] theorem visit_ledger (t : Strip) (s : State) : (visit t s).ledger = s.ledger :=
  ledger_of_offStrip (visit_offStrip t s)

@[simp] theorem handOutcome_ledger (t : Strip) (r : Result) (s : State) : (handOutcome t r s).ledger = s.ledger := by
  obtain ⟨-, same⟩ | ⟨-, same⟩ := handOutcome_cases t r s <;> simp [same]

@[simp] theorem give_ledger (s : State) (w : Waiting) : (give s w).ledger = s.ledger := by
  unfold give
  split <;> simp

@[simp] theorem release_ledger (r : Fin 29) (s : State) : (release r s).ledger = s.ledger :=
  foldl_keeps State.ledger give give_ledger _ _

@[simp] theorem writeRecord_ledger (r : Fin 29) (k : Nat) (s : State) : (writeRecord r k s).ledger = s.ledger := rfl

@[simp] theorem stopRecordTimer_ledger (r : Fin 29) (s : State) : (stopRecordTimer r s).ledger = s.ledger := by
  unfold stopRecordTimer
  split <;> rfl

@[simp] theorem rewriteRecord_ledger (r : Fin 29) (s : State) : (rewriteRecord r s).ledger = s.ledger := by
  rw [rewriteRecord, release_ledger, stopRecordTimer_ledger]
  rfl

@[simp] theorem flushRecords_ledger (s : State) : (flushRecords s).ledger = s.ledger := by
  unfold flushRecords
  generalize List.finRange 29 = records
  refine foldl_keeps State.ledger _ (fun s r => ?_) records s
  split
  · exact rewriteRecord_ledger r s
  · rfl

@[simp] theorem halted_ledger (s : State) : (halted s).ledger = s.ledger := by
  have flushed := flushRecords_ledger s
  unfold halted
  generalize flushRecords s = u at flushed ⊢
  rw [rewriteRecord_ledger]
  exact flushed

@[simp] theorem resumed_ledger (s : State) : (resumed s).ledger = s.ledger := by
  have tested : s.resumeTested.ledger = s.ledger := editionTests_ledger _
  rw [resumed_eq]
  split <;> simp [tested]

@[simp] theorem startScan_ledger (s : State) : (startScan s).ledger = s.ledger := by simp only [startScan, State.ledger]

@[simp] theorem startStrips_ledger (s : State) : (startStrips s).ledger = s.ledger := by
  simp [startStrips, visitBoth]

@[simp] theorem resume_ledger (s : State) : (resume s).ledger = s.ledger := by simp [resume]

end Sys2Proof.Machine

/-!
Memories in their canonical form are equal when they read the same, and what ranges of bytes read after a store.
-/
namespace Sys2Proof.Machine

/-! ### Equality of memories -/

theorem Memory.wfFrom_cons {lo a : Nat} {b : Byte} {m : List Host.Cell} (w : Memory.wfFrom lo ((a, b) :: m) = true) :
    lo ≤ a ∧ b ≠ Memory.unlisted ∧ Memory.wfFrom (a + 1) m = true := by
  simpa [Memory.wfFrom, and_assoc] using w

theorem Memory.read_head (a : Nat) (b : Byte) (m : List Host.Cell) : Memory.read ((a, b) :: m) a = b := by
  simp [Memory.read]

/-- The least address listed in one memory is listed in any other that reads the same. -/
theorem Memory.head_le {lo a k : Nat} {b c : Byte} {m n : List Host.Cell} (w : Memory.wfFrom lo ((a, b) :: m) = true)
    (v : Memory.wfFrom lo ((k, c) :: n) = true)
    (same : ∀ x, Memory.read ((a, b) :: m) x = Memory.read ((k, c) :: n) x) : k ≤ a := by
  by_contra less
  obtain ⟨-, listed, -⟩ := Memory.wfFrom_cons w
  obtain ⟨-, -, rest⟩ := Memory.wfFrom_cons v
  have unread : Memory.read ((k, c) :: n) a = Memory.unlisted := by
    rw [Memory.read, if_neg (by omega)]
    exact Memory.read_below (lo := k + 1) (by omega) rest
  rw [← same, Memory.read_head] at unread
  exact listed unread

theorem Memory.ext_wfFrom : ∀ {lo : Nat} {m n : List Host.Cell}, Memory.wfFrom lo m = true → Memory.wfFrom lo n = true →
    (∀ x, Memory.read m x = Memory.read n x) → m = n
  | _, [], [], _, _, _ => rfl
  | _, [], (k, c) :: n, _, v, same => by
    obtain ⟨-, listed, -⟩ := Memory.wfFrom_cons v
    exact absurd ((same k).trans (Memory.read_head k c n)).symm listed
  | _, (a, b) :: m, [], w, _, same => by
    obtain ⟨-, listed, -⟩ := Memory.wfFrom_cons w
    exact absurd ((Memory.read_head a b m).symm.trans (same a)) listed
  | _, (a, b) :: m, (k, c) :: n, w, v, same => by
    have heads : a = k := Nat.le_antisymm (Memory.head_le v w fun x => (same x).symm) (Memory.head_le w v same)
    subst heads
    have bytes : b = c := by simpa [Memory.read_head] using same a
    obtain ⟨-, -, left⟩ := Memory.wfFrom_cons w
    obtain ⟨-, -, right⟩ := Memory.wfFrom_cons v
    rw [bytes, Memory.ext_wfFrom left right fun x => ?_]
    by_cases here : a = x
    · subst here
      rw [Memory.read_below (Nat.lt_succ_self a) left, Memory.read_below (Nat.lt_succ_self a) right]
    · simpa [Memory.read, here] using same x

theorem Memory.ext_wf {m n : List Host.Cell} (w : Memory.wf m = true) (v : Memory.wf n = true)
    (same : ∀ x, Memory.read m x = Memory.read n x) : m = n := Memory.ext_wfFrom w v same

/-! ### Reading a range -/

theorem Memory.read_writeBytes {m : List Host.Cell} (w : Memory.wf m = true) (a : Nat) (bs : List Byte) (x : Nat) :
    Memory.read (Memory.writeBytes m a bs) x =
      if a ≤ x ∧ x < a + bs.length then bs[x - a]?.getD 0 else Memory.read m x := by
  split
  · next inside =>
    have at' : a + (x - a) = x := by omega
    rw [← Memory.read_writeBytes_inside a bs (x - a) w (by omega), at']
  · next outside => exact Memory.read_writeBytes_outside m a bs (by omega)

theorem Memory.readBytes_add (m : List Host.Cell) (a k : Nat) : ∀ n,
    Memory.readBytes m a (n + k) = Memory.readBytes m a n ++ Memory.readBytes m (a + n) k := by
  intro n
  induction n generalizing a with
  | zero => simp [Memory.readBytes]
  | succ n ih =>
    rw [Nat.succ_add, Memory.readBytes, Memory.readBytes, ih]
    simp [Nat.add_comm, Nat.add_left_comm]

theorem Memory.getElem_readBytes (m : List Host.Cell) (a n i : Nat) (inside : i < n) :
    (Memory.readBytes m a n)[i]? = some (Memory.read m (a + i)) := by
  induction n generalizing a i with
  | zero => omega
  | succ n ih =>
    cases i with
    | zero => rfl
    | succ i =>
      rw [Memory.readBytes, List.getElem?_cons_succ, ih (a + 1) i (by omega)]
      congr 2
      omega

theorem Memory.readBytes_append (m : List Host.Cell) (a : Nat) {k n : Nat} (fits : k ≤ n) :
    Memory.readBytes m a n = Memory.readBytes m a k ++ Memory.readBytes m (a + k) (n - k) := by
  rw [← Memory.readBytes_add, Nat.add_sub_cancel' fits]

theorem Memory.take_readBytes (m : List Host.Cell) (a : Nat) {k n : Nat} (fits : k ≤ n) :
    (Memory.readBytes m a n).take k = Memory.readBytes m a k := by
  rw [Memory.readBytes_append m a fits, List.take_left' (Memory.readBytes_length m a k)]

theorem Memory.drop_readBytes (m : List Host.Cell) (a k n : Nat) :
    (Memory.readBytes m a n).drop k = Memory.readBytes m (a + k) (n - k) := by
  by_cases fits : k ≤ n
  · rw [Memory.readBytes_append m a fits, List.drop_left' (Memory.readBytes_length m a k)]
  · rw [Nat.sub_eq_zero_of_le (by omega), List.drop_eq_nil_of_le]
    · rfl
    · rw [Memory.readBytes_length]
      omega

/-- A range is what its bytes are. -/
theorem Memory.readBytes_eq {m : List Host.Cell} {a : Nat} {bs : List Byte}
    (reads : ∀ i, i < bs.length → Memory.read m (a + i) = bs[i]?.getD 0) :
    Memory.readBytes m a bs.length = bs := by
  refine List.ext_getElem (Memory.readBytes_length m a bs.length) fun i low high => ?_
  have here := Memory.getElem_readBytes m a bs.length i high
  rw [List.getElem?_eq_getElem low, Option.some_inj] at here
  rw [here, reads i high, List.getElem?_eq_getElem high]
  rfl

theorem Memory.readBytes_writeBytes {m : List Host.Cell} (w : Memory.wf m = true) (a : Nat) (bs : List Byte) :
    Memory.readBytes (Memory.writeBytes m a bs) a bs.length = bs :=
  Memory.readBytes_eq fun i inside => Memory.read_writeBytes_inside a bs i w inside

theorem Memory.readBytes_writeBytes_apart (m : List Host.Cell) {a x n : Nat} {bs : List Byte}
    (apart : x + n ≤ a ∨ a + bs.length ≤ x) :
    Memory.readBytes (Memory.writeBytes m a bs) x n = Memory.readBytes m x n :=
  Memory.readBytes_congr x n fun c low high => Memory.read_writeBytes_outside m a bs (by omega)

theorem Memory.writeBytes_append (m : List Host.Cell) (a : Nat) (bs cs : List Byte) :
    Memory.writeBytes m a (bs ++ cs) = Memory.writeBytes (Memory.writeBytes m a bs) (a + bs.length) cs := by
  induction bs generalizing m a with
  | nil => rfl
  | cons b bs ih =>
    rw [List.cons_append, Memory.writeBytes, Memory.writeBytes, ih, List.length_cons]
    congr 1
    omega

end Sys2Proof.Machine

/-!
The rewrite of a record (R199 to R201): the bytes it leaves in memory, and what the notices and outcomes behind it do when no
strip holds a request. With them the end of the drain (R207).
-/
namespace Sys2Proof.Machine

/-! ### The bytes of a rewrite -/

/-- The new update count of record `r`, as a rewrite leaves it in memory. -/
def State.newCount (s : State) (r : Fin 29) : List Byte := leBytes 2 ((s.report.counts[r] + 2) % 65536)

/-- The state with record `r` written in one piece: its new count, then its fields. -/
def State.written (s : State) (r : Fin 29) : State :=
  { s with mem := Memory.writeBytes s.mem (s.recordAddr r) (s.newCount r ++ recordFields s r) }

/-- The count written before the fields and the one written after them leave what one store of both leaves. -/
theorem writeRecord_mem {s : State} (wf : Memory.wf s.mem = true) (r : Fin 29) :
    (writeRecord r 3 s).mem = (s.written r).mem := by
  have short (v : Nat) : (leBytes 2 v).length = 2 := leBytes_length 2 v
  refine Memory.ext_wf (writeRecord_wf s r 3 wf) (Memory.writeBytes_wf _ _ wf) fun x => ?_
  simp only [State.written, writeRecord, Memory.writeBytes_append, State.newCount, short]
  generalize s.recordAddr r = a
  generalize recordFields s r = fields
  have once := Memory.writeBytes_wf a (leBytes 2 ((s.report.counts[r] + 1) % 65536)) wf
  have again := Memory.writeBytes_wf a (leBytes 2 ((s.report.counts[r] + 2) % 65536)) wf
  rw [if_pos (by decide), if_pos (by decide), if_pos (by decide)]
  rw [Memory.read_writeBytes (Memory.writeBytes_wf _ _ once), Memory.read_writeBytes once, Memory.read_writeBytes wf,
    Memory.read_writeBytes again, Memory.read_writeBytes wf]
  simp only [short]
  by_cases inside : a ≤ x ∧ x < a + 2
  · simp only [inside, if_true, and_self]
    split_ifs <;> try omega
    all_goals rfl
  · split_ifs <;> try omega
    all_goals rfl

theorem writeRecord_eq {s : State} (wf : Memory.wf s.mem = true) (r : Fin 29) : writeRecord r 3 s = s.written r :=
  congrArg (fun m => { s with mem := m }) (writeRecord_mem wf r)

/-- The state in which a rewrite of record `r` lets go what waited for it. -/
def State.rewritten (s : State) (r : Fin 29) : State :=
  stopRecordTimer r { s.written r with report := countRewrite r s.report }

theorem rewriteRecord_eq {s : State} (wf : Memory.wf s.mem = true) (r : Fin 29) :
    rewriteRecord r s = release r (s.rewritten r) := by
  unfold rewriteRecord
  rw [writeRecord_eq wf]
  rfl

theorem stopRecordTimer_keeps (r : Fin 29) (s : State) :
    (stopRecordTimer r s).mem = s.mem ∧ (stopRecordTimer r s).exch = s.exch := by
  unfold stopRecordTimer
  split <;> exact ⟨rfl, rfl⟩

theorem rewritten_mem (s : State) (r : Fin 29) : (s.rewritten r).mem = (s.written r).mem :=
  (stopRecordTimer_keeps r _).1

theorem rewritten_exch (s : State) (r : Fin 29) : (s.rewritten r).exch = s.exch := (stopRecordTimer_keeps r _).2

/-! ### Both strips STOPPED -/

def State.bothStopped (s : State) : Prop := ∀ t, (s.strip t).scan = .stopped

theorem bothStopped_of_exch {s u : State} (rest : s.bothStopped) (same : u.exch = s.exch) : u.bothStopped := by
  intro t
  have here := rest t
  cases t <;> simpa only [State.strip, same] using here

theorem completeRequest_stopped {s : State} {t : Strip} (rest : (s.strip t).scan = .stopped) (r : Result) :
    completeRequest t r s = s := by
  unfold completeRequest
  rw [rest]

theorem handOutcome_stopped {s : State} {t : Strip} (rest : (s.strip t).scan = .stopped) (r : Result) :
    handOutcome t r s = s := by
  have idle : (s.strip t).kind = none := by
    unfold StripState.kind
    rw [rest]
  have tests : deferredTests t s = (s, false) := by
    obtain ⟨-, busy, -⟩ | ⟨-, same⟩ := deferredTests_cases t s
    · simp [idle] at busy
    · exact same
  rw [handOutcome, tests]
  exact completeRequest_stopped rest r

/-- The fields in which handing over leaves a part whose strips are both STOPPED. -/
def State.store (s : State) : List Host.Cell × ExchangeIf := (s.mem, s.exch)

theorem raise_store (n : Notice) (s : State) : (raise n s).store = s.store := by
  unfold raise
  split <;> rfl

theorem give_store {s : State} (rest : s.bothStopped) (w : Waiting) : (give s w).store = s.store := by
  unfold give
  split
  · exact raise_store _ s
  · rw [handOutcome_stopped (rest _)]

theorem exch_of_store {s u : State} (h : s.store = u.store) : s.exch = u.exch := congrArg Prod.snd h
theorem mem_of_store {s u : State} (h : s.store = u.store) : s.mem = u.mem := congrArg Prod.fst h

theorem foldl_give_store : ∀ (ws : List Waiting) {s : State}, s.bothStopped → (ws.foldl give s).store = s.store
  | [], _, _ => rfl
  | w :: ws, s, rest => by
    have first := give_store rest w
    exact (foldl_give_store ws (bothStopped_of_exch rest (exch_of_store first))).trans first

theorem rewriteRecord_store {s : State} (wf : Memory.wf s.mem = true) (rest : s.bothStopped) (r : Fin 29) :
    (rewriteRecord r s).store = (s.written r).store := by
  rw [rewriteRecord_eq wf]
  unfold release
  simp only
  rw [foldl_give_store]
  · exact Prod.ext (rewritten_mem s r) (rewritten_exch s r)
  · exact bothStopped_of_exch rest (rewritten_exch s r)

theorem foldl_rewrite_keeps : ∀ (rs : List (Fin 29)) {s : State}, Memory.wf s.mem = true → s.bothStopped →
    let u := rs.foldl (fun s r => if s.report.wanted[r] then rewriteRecord r s else s) s
    Memory.wf u.mem = true ∧ u.exch = s.exch
  | [], _, wf, _ => ⟨wf, rfl⟩
  | r :: rs, s, wf, rest => by
    have first : Memory.wf (if s.report.wanted[r] then rewriteRecord r s else s).mem = true ∧
        (if s.report.wanted[r] then rewriteRecord r s else s).exch = s.exch := by
      split
      · exact ⟨rewriteRecord_wf r s wf, (exch_of_store (rewriteRecord_store wf rest r)).trans rfl⟩
      · exact ⟨wf, rfl⟩
    obtain ⟨wf', exch⟩ := first
    obtain ⟨wf'', exch'⟩ := foldl_rewrite_keeps rs wf' (bothStopped_of_exch rest exch)
    exact ⟨wf'', exch'.trans exch⟩

theorem flushRecords_keeps {s : State} (wf : Memory.wf s.mem = true) (rest : s.bothStopped) :
    Memory.wf (flushRecords s).mem = true ∧ (flushRecords s).exch = s.exch := foldl_rewrite_keeps _ wf rest

/-! ### The end of the drain -/

theorem recordFields_zero (s : State) : recordFields s summaryRec = summaryFields s := by
  have zero : summaryRec.val = 0 := rfl
  unfold recordFields
  rw [if_pos zero]

theorem summaryFields_head (s : State) : (summaryFields s).head? = some (BitVec.ofNat 8 s.engine.code) := by
  unfold summaryFields
  simp only [List.append_assoc]
  rw [List.head?_append]
  rfl

/-- The first field of the summary record is the engine state. -/
theorem written_engine {s : State} (wf : Memory.wf s.mem = true) :
    Memory.read (s.written summaryRec).mem (s.desc.report + 2) = BitVec.ofNat 8 s.engine.code := by
  obtain ⟨bs, fields⟩ := List.head?_eq_some_iff.1 (summaryFields_head s)
  have place : s.recordAddr summaryRec = s.desc.report := rfl
  have two : (s.newCount summaryRec).length = 2 := leBytes_length 2 _
  rw [State.written, recordFields_zero, place, fields, Memory.read_writeBytes_inside _ _ 2 wf (by simp [two]),
    List.getElem?_append_right (by omega), two]
  rfl

theorem desc_of_exch {s u : State} (h : s.exch = u.exch) : s.desc = u.desc := by
  unfold State.desc
  rw [h]

/-- The summary record that HALTED leaves shows HALTED (R207). -/
theorem halted_shows {s : State} (wf : Memory.wf s.mem = true) (rest : s.bothStopped) :
    Memory.read (halted s).mem (s.desc.report + 2) = 0 ∧ (halted s).exch = s.exch := by
  have flushed := flushRecords_keeps wf rest
  unfold halted
  generalize flushRecords s = u at flushed ⊢
  obtain ⟨wf', exch⟩ := flushed
  have store := rewriteRecord_store (s := { u with engine := .haltedResumable }) wf' (bothStopped_of_exch rest exch) summaryRec
  refine ⟨?_, (exch_of_store store).trans exch⟩
  have shown := written_engine (s := { u with engine := .haltedResumable }) wf'
  rw [mem_of_store store, ← desc_of_exch exch]
  exact shown

theorem drained_of {s : State} (rest : s.bothStopped) (batch : s.change.batch = none) (format : s.change.format = none)
    (rebuild : s.change.rebuild = none) (purge : s.change.purge = .empty) (load : s.editions.load = none)
    (ports : ∀ l, (s.port l).xstate = .idle ∧ (s.port l).exchange = none) : s.drained = true := by
  have idle (t : Strip) : (s.strip t).kind = none := by
    unfold StripState.kind
    rw [rest t]
  have handing (o : Owner) : s.handingOver o = false := by
    refine List.any_eq_false.2 fun w _ => ?_
    split <;> simp [idle]
  have priority : s.exch.priority.scan = .stopped := rest .priority
  have routine : s.exch.routine.scan = .stopped := rest .routine
  simp [State.drained, State.changeIdle, State.editionIdle, priority, routine, batch, format, rebuild, purge, load, handing,
    ports]

theorem stateRegister_of_resumable {s : State} (engine : s.engine = .haltedResumable) : s.readRegister 0x08 = 8 := by
  simp [State.readRegister, State.stateRegister, engine, Engine.code, Engine.resumable, Engine.causeCode]

theorem resume_enters (s : State) : (resume s).engine = .running ∧ (resume s).regs.run = s.regs.run ∧
    (resume s).exch.descriptor = s.exch.descriptor := by
  obtain ⟨engine, -, -, run, -, -, descriptor⟩ := of_spine (resume_spine s)
  exact ⟨engine, run, descriptor⟩

/-- Settles O13: the drain writes every record, the summary last, and goes on to RUNNING only through the resume. -/
theorem drainEndsInHaltedOrRunning : Obligations.DrainEndsInHaltedOrRunning := by
  intro s high stopping wf priority routine batch format rebuild purge load ports
  have rest : s.bothStopped := fun t => by cases t <;> assumption
  have drained := drained_of rest batch format rebuild purge load ports
  obtain ⟨shows, exch⟩ := halted_shows wf rest
  obtain ⟨engine, -, -, run, xbase, evmask, -⟩ := of_spine (halted_spine s)
  obtain ⟨change, clock, profiles⟩ := of_ledger (halted_ledger s)
  have step : exec .drainComplete s = scheduled s fun s =>
      if s.engine = .stopping ∧ s.drained = true then
        if (halted s).regs.run then resume (halted s) else halted s
      else s := rfl
  have descriptor : (halted s).exch.descriptor = s.exch.descriptor := by rw [exch]
  have runs : (halted s).regs.run = s.regs.run := run
  rw [step, scheduled_next high, if_pos ⟨stopping, drained⟩, runs]
  cases asked : s.regs.run with
  | false =>
    rw [if_neg Bool.false_ne_true]
    have settled := settled_boundaries s (halted s)
    refine ⟨_, rfl, fun _ => ⟨settled.engine.trans engine, ?_, ?_⟩, nofun, ?_⟩
    · exact stateRegister_of_resumable (settled.engine.trans engine)
    · rw [settled.mem]
      exact shows
    · exact ⟨settled.change.trans change, settled.clock.trans clock,
        settled.descriptor.trans descriptor, settled.profiles.trans profiles, settled.run.trans (runs.trans asked)⟩
  | true =>
    rw [if_pos rfl]
    have settled := settled_boundaries s (resume (halted s))
    obtain ⟨change', clock', profiles'⟩ := of_ledger (resume_ledger (halted s))
    obtain ⟨engine', run', descriptor'⟩ := resume_enters (halted s)
    refine ⟨_, rfl, nofun, fun _ => settled.engine.trans engine', ?_⟩
    exact ⟨settled.change.trans (change'.trans change), settled.clock.trans (clock'.trans clock),
      settled.descriptor.trans (descriptor'.trans descriptor),
      settled.profiles.trans (profiles'.trans profiles), settled.run.trans (run'.trans (runs.trans asked))⟩

end Sys2Proof.Machine

/-!
The answers to the requests that are taken up at once: what they leave alone.
-/
namespace Sys2Proof.Machine

theorem pinSlot_fixed (r : Request) (s : State) : (pinSlot r s).1.fixed = s.fixed := by
  unfold pinSlot
  split
  · dsimp only
    split
    · rfl
    · split <;> simp
  · rfl

theorem freeSlot_fixed (r : Request) (s : State) : (freeSlot r s).1.fixed = s.fixed := by
  unfold freeSlot
  split <;> simp

theorem releaseSlot_fixed (r : Request) (s : State) : (releaseSlot r s).1.fixed = s.fixed := by
  unfold releaseSlot
  split
  · split <;> simp
  · rfl

theorem resyncSlot_fixed (r : Request) (s : State) : (resyncSlot r s).1.fixed = s.fixed := by
  unfold resyncSlot
  split
  · split <;> simp
  · rfl

theorem clearCounters_fixed (r : Request) (s : State) : (clearCounters r s).1.fixed = s.fixed := by
  unfold clearCounters
  dsimp only
  rw [forLines_keeps State.fixed _ fun l s => ?_, forSlots_keeps State.fixed _ fun n s => ?_]
  · split <;> simp
  · split <;> simp

theorem setLine_fixed (r : Request) (s : State) : (setLine r s).1.fixed = s.fixed := by
  unfold setLine
  split <;> simp

theorem setProfile_clock (r : Request) (s : State) : (setProfile r s).1.clock = s.clock := by
  unfold setProfile
  split
  · split
    · split
      · rfl
      · obtain ⟨-, -, -, -, -, -, -, clock⟩ := of_offServed (storeProfile_offServed ‹_› (readProfile r ⟨_, ‹_›⟩).1 s)
        exact clock
    · rfl
  · rfl

/-- The registers that a memory error keeps, and the clock. -/
def State.steady (s : State) : Spine × Clock := ({ s.spine with engine := .haltedCold }, s.clock)

theorem steady_of {s u : State} (spine : s.spine = u.spine) (clock : s.clock = u.clock) : s.steady = u.steady := by
  rw [State.steady, State.steady, spine, clock]

theorem steady_of_fixed {s u : State} (h : s.fixed = u.fixed) : s.steady = u.steady := by
  obtain ⟨-, -, -, -, -, -, clock, -⟩ := of_fixed h
  exact steady_of (spine_of_fixed h) clock

theorem steady_of_ledger {s u : State} (spine : s.spine = u.spine) (ledger : s.ledger = u.ledger) :
    s.steady = u.steady := steady_of spine (of_ledger ledger).2.1

theorem steady_of_offImage {s u : State} (h : s.offImage = u.offImage) : s.steady = u.steady := by
  obtain ⟨spine, -, -, -, -, clock, -⟩ := of_offImage h
  exact steady_of spine clock

/-- An answer keeps the registers and the clock. -/
theorem answer_steady {k : Nat} {answer : Request → State → State × Result} (kind : answerOf k = some answer)
    (r : Request) (s : State) : (answer r s).1.steady = s.steady := by
  unfold answerOf at kind
  split_ifs at kind <;> cases kind
  · exact steady_of_fixed (pinSlot_fixed r s)
  · exact steady_of_fixed (freeSlot_fixed r s)
  · exact steady_of_fixed (releaseSlot_fixed r s)
  · exact steady_of_fixed (resyncSlot_fixed r s)
  · exact steady_of_fixed (clearCounters_fixed r s)
  · exact steady_of_fixed (setLine_fixed r s)
  · exact steady_of (setProfile_sp r s) (setProfile_clock r s)

end Sys2Proof.Machine

/-!
An error response on a shared-memory access (R116, R209): what of its step stands before it, and FAULTED behind it.
-/
namespace Sys2Proof.Machine

/-! ### What stands before a failing access keeps the registers and the clock -/

theorem give_steady (s : State) (w : Waiting) : (give s w).steady = s.steady :=
  steady_of_ledger (give_spine s w) (give_ledger s w)

theorem writeRecord_clock (r : Fin 29) (k : Nat) (s : State) : (writeRecord r k s).clock = s.clock := rfl

theorem beforeOutcome_steady (t : Strip) (s : State) : (beforeOutcome t s).steady = s.steady := by
  unfold beforeOutcome
  simp only
  rw [foldl_keeps State.steady give give_steady]
  have written := steady_of (writeRecord_spine s summaryRec 3) (writeRecord_clock summaryRec 3 s)
  generalize writeRecord summaryRec 3 s = u at written ⊢
  exact written

theorem deferredTests_steady (t : Strip) (s : State) : (deferredTests t s).1.steady = s.steady :=
  steady_of_ledger (deferredTests_spine s t) (deferredTests_ledger t s)

theorem requestResult_steady {s u : State} {t : Strip} {r : Result} (due : s.requestResult t = some (u, r)) :
    u.steady = s.steady := by
  unfold State.requestResult at due
  split at due
  · split at due
    · split at due
      · next answer kind =>
        have kept := answer_steady kind ‹Request› s
        rwa [Option.some.inj due] at kept
      · obtain ⟨o, -, same⟩ := Option.map_eq_some_iff.1 due
        cases same
        rfl
    · cases due
  · cases due

theorem itemDone_steady (o : ItemOutcome) (s : State) : (itemDone o s).steady = s.steady :=
  steady_of_offImage (itemDone_offImage o s)

theorem applyNext_steady (b : Batch) (s : State) : (applyNext b s).1.steady = s.steady :=
  steady_of_offImage (applyNext_offImage b s)

theorem heldResult_steady {s u : State} {t : Strip} {r : Result} (due : s.heldResult t = some (u, r)) :
    u.steady = s.steady := by
  unfold State.heldResult at due
  split at due
  · next b _ =>
    split at due
    · have kept := (itemDone_steady (applyNext b s).2 (applyNext b s).1).trans (applyNext_steady b s)
      dsimp only at due
      generalize itemDone (applyNext b s).2 (applyNext b s).1 = v at kept due
      obtain ⟨b', -, same⟩ := Option.bind_eq_some_iff.1 due
      split at same
      · cases same
        exact kept
      · cases same
    · exact requestResult_steady due
  · exact requestResult_steady due

theorem resultDue_steady {s u : State} {t : Strip} {notify : Bool} {r : Result}
    (due : s.resultDue t = some (u, notify, r)) : u.steady = s.steady := by
  unfold State.resultDue at due
  split at due
  · split at due
    · dsimp only at due
      split at due
      · cases due
      · cases due
        exact (deferredTests_steady t _).trans (beforeOutcome_steady t s)
    · obtain ⟨x, held, same⟩ := Option.map_eq_some_iff.1 due
      cases same
      exact heldResult_steady held
  · split at due
    · cases due
      rfl
    · cases due

theorem steady_of_offStrip {t : Strip} {s u : State} (h : s.offStrip t = u.offStrip t) : s.steady = u.steady :=
  steady_of_ledger (spine_of_offStrip h) (ledger_of_offStrip h)

theorem afterCompletions_steady (t : Strip) : ∀ (done : Nat) (s : State), (afterCompletions t done s).steady = s.steady
  | 0, _ => rfl
  | done + 1, s => by
    unfold afterCompletions
    split
    · next u notify r due =>
      rw [afterCompletions_steady t done, steady_of_offStrip (finish_offStrip t notify r u), resultDue_steady due]
    · rfl

/-- RUN as a resume takes it: only an access in HALTED resumable belongs to one. -/
def State.resuming (s : State) : State :=
  if s.engine = .haltedResumable then { s with regs := { s.regs with run := true } } else s

theorem steady_of_entry {s u : State} {e : Engine} (spine : u.spine = { s.spine with engine := e })
    (ledger : u.ledger = s.ledger) : u.steady = s.steady := by
  rw [State.steady, State.steady, spine, (of_ledger ledger).2.1]

theorem atEntry_steady (s : State) : s.atEntry.steady = s.resuming.steady := by
  unfold State.atEntry State.resuming
  split
  · next e =>
    simp only [e, reduceCtorEq, if_false]
    split <;> rfl
  · next e =>
    simp only [e, if_true]
    exact steady_of_entry (resumed_spine _) (resumed_ledger _)
  · next e =>
    simp only [e, reduceCtorEq, if_false]
    split
    · have halts := steady_of_entry (halted_spine s) (halted_ledger s)
      generalize halted s = u at halts ⊢
      exact (steady_of_entry (resumed_spine u) (resumed_ledger u)).trans halts
    · rfl
  all_goals
    next e =>
    simp only [e, reduceCtorEq, if_false]

theorem reach_steady (t : Strip) (s : State) : (reach t s).steady = s.resuming.steady := by
  cases t with
  | priority => exact atEntry_steady s
  | routine =>
    unfold reach
    dsimp only
    split
    · rw [steady_of_offStrip (visit_offStrip .priority s.atEntry), atEntry_steady]
    · exact atEntry_steady s

/-- The accesses of a visit are those of the entry to RUNNING too. -/
def visitsStrip : Access → Bool
  | .markRead _ _ | .takenWrite _ _ | .requestRead _ _ | .completionWrite _ _ _ => true
  | _ => false

theorem takeUp_steady (t : Strip) (o : Owner) (s : State) : (takeUp t o s).steady = s.steady :=
  steady_of (takeUp_spine s t o) (takeUp_clock t o s)

theorem takePurge_steady (s : State) : (takePurge s).steady = s.steady :=
  steady_of (takePurge_spine s) (takePurge_clock s)

theorem partialFormat_steady (t : Strip) (k : Nat) (s : State) : (partialFormat t k s).steady = s.steady := by
  unfold partialFormat
  split
  · dsimp only
    split
    · rw [steady_of_offImage (startFormat_offImage _ _ _ _)]
      exact takeUp_steady t .change s
    · exact takeUp_steady t .change s
  · rfl

theorem flushRecords_steady (s : State) : (flushRecords s).steady = s.steady :=
  steady_of_ledger (flushRecords_spine s) (flushRecords_ledger s)

theorem writeRecord_steady (r : Fin 29) (k : Nat) (s : State) : (writeRecord r k s).steady = s.steady :=
  steady_of (writeRecord_spine s r k) (writeRecord_clock r k s)

/-- What stands before a failing access keeps the registers and the clock, but for the RUN that a resume has taken. -/
theorem beforeError_steady (a : Access) (s : State) :
    (beforeError a s).steady = if visitsStrip a then s.resuming.steady else s.steady := by
  cases a with
  | markRead t done => exact (afterCompletions_steady t done _).trans (reach_steady t s)
  | takenWrite t done => exact (afterCompletions_steady t done _).trans (reach_steady t s)
  | requestRead t done =>
    have before := (afterCompletions_steady t done _).trans (reach_steady t s)
    simp only [beforeError, visitsStrip, if_true]
    generalize afterCompletions t done (reach t s) = u at before ⊢
    split <;> exact before
  | completionWrite t done stage =>
    have before := (afterCompletions_steady t done _).trans (reach_steady t s)
    simp only [beforeError, visitsStrip, if_true]
    generalize afterCompletions t done (reach t s) = u at before ⊢
    split
    · next v notify r due =>
      rw [steady_of_offStrip (writeCompletion_offStrip t t r stage.val v), resultDue_steady due]
      exact before
    · exact before
  | mirrorPage =>
    unfold beforeError
    dsimp only [visitsStrip]
    split
    · split
      · exact steady_of_offImage (applyLive_offImage _ s)
      · rfl
    · rfl
  | mirrorHeader =>
    unfold beforeError
    dsimp only [visitsStrip]
    split
    · split
      · exact steady_of_offImage ((mirror_offImage _ _ _).trans (applyLive_offImage _ s))
      · rfl
    · rfl
  | itemOutcome =>
    unfold beforeError
    dsimp only [visitsStrip]
    split
    · split
      · exact applyNext_steady _ s
      · rfl
    · rfl
  | batchHeader done =>
    unfold beforeError
    dsimp only [visitsStrip]
    split
    · split
      · exact steady_of_offImage (partialHeaders_offImage _ _ done s)
      · rfl
    · rfl
  | formatPage t done => exact partialFormat_steady t done s
  | purgePage done =>
    unfold beforeError
    dsimp only [visitsStrip]
    split
    · exact (steady_of_offImage (purgePages_offImage _ done _)).trans (takePurge_steady s)
    · rfl
  | purgeHeader done =>
    unfold beforeError
    dsimp only [visitsStrip]
    split
    · have before := fun sd k => (steady_of_offImage (purgePages_offImage sd k (takePurge s))).trans (takePurge_steady s)
      split
      · exact before _ _
      · exact (steady_of_offImage (partialHeaders_offImage _ _ done _)).trans (before _ _)
    · rfl
  | rebuildPage done => exact steady_of_offImage (partialSlice_offImage done s)
  | editionClose =>
    unfold beforeError
    dsimp only [visitsStrip]
    split
    · split
      · exact steady_of_offImage rfl
      · rfl
    · rfl
  | reportWrite r stage =>
    unfold beforeError
    dsimp only [visitsStrip]
    split
    · exact writeRecord_steady r stage.val s
    · split
      · have flushed := flushRecords_steady s
        generalize flushRecords s = u at flushed ⊢
        rw [writeRecord_steady]
        exact flushed
      · rfl
  | descriptorRead | itemRead | itemPage | productRead | editionPage | framePage => rfl

/-! ### Every command answers -/

theorem memoryError_answers (a : Access) (s : State) : ∃ t, execMemoryError a s = .next t ∧ t.pending = s.pending := by
  have kept : (beforeError a s).pending = s.pending := by
    have steady := beforeError_steady a s
    have resuming : s.resuming.pending = s.pending := by
      unfold State.resuming
      split <;> rfl
    split at steady
    · exact (congrArg (·.1.pending) steady).trans resuming
    · exact congrArg (·.1.pending) steady
  unfold execMemoryError
  cases high : s.resetLow with
  | true => exact ⟨s, by simp [recorded, high], rfl⟩
  | false =>
    refine ⟨_, recorded_next high, (settled_settle s _).pending.trans ?_⟩
    split
    · exact kept
    · rfl

theorem scheduled_pending {s : State} {f : State → State} (kept : (f s).pending = s.pending) :
    ∃ t, scheduled s f = .next t ∧ t.pending = s.pending := by
  cases high : s.resetLow with
  | true => exact ⟨s, by simp [scheduled, recorded, high], rfl⟩
  | false => exact ⟨_, scheduled_next high, (settled_boundaries s _).pending.trans kept⟩

theorem recorded_pending {s : State} {f : State → State} (kept : (f s).pending = s.pending) :
    ∃ t, recorded s f = .next t ∧ t.pending = s.pending := by
  cases high : s.resetLow with
  | true => exact ⟨s, by simp [recorded, high], rfl⟩
  | false => exact ⟨_, recorded_next high, (settled_settle s _).pending.trans kept⟩

theorem takeRun_pending (run : Bool) (s : State) : (takeRun run s).pending = s.pending := by
  unfold takeRun
  dsimp only
  split
  · split <;> rfl
  · split <;> rfl
  · split <;> rfl
  · rfl
  · split
    · exact congrArg Spine.pending (resume_spine _)
    · rfl
  · rfl

theorem controlWrite_answers (v : Word) (s : State) : ∃ t, controlWrite v s = .next t ∧ t.pending = s.pending := by
  unfold controlWrite
  split
  · exact ⟨s, rfl, rfl⟩
  · split
    · exact ⟨_, rfl, rfl⟩
    · split
      · exact ⟨s, rfl, rfl⟩
      · exact scheduled_pending (takeRun_pending _ s)

theorem answers_with (s : State) (c : Prop) [Decidable c] (u : State) (kept : u.pending = s.pending) :
    ∃ t, (Host.Outcome.next (if c then s else u) : Out) = .next t ∧ t.pending = s.pending := by
  refine ⟨_, rfl, ?_⟩
  split
  · rfl
  · exact kept

theorem registerPort_answers (o v : Word) (s : State) : ∃ t, registerPort o v s = .next t ∧ t.pending = s.pending := by
  unfold registerPort
  split
  · exact controlWrite_answers v s
  · split
    · obtain ⟨t, run, spine⟩ := execKick_spine v s
      exact ⟨t, run, congrArg Spine.pending spine⟩
    · split
      · exact answers_with s _ _ rfl
      · split
        · exact answers_with s _ _ rfl
        · refine answers_with s _ _ ?_
          split <;> rfl

/-- Settles O2: the commands outside the table of engine states keep the spine, and the others are taken one by one. -/
theorem everyCommandAnswersNext : Obligations.EveryCommandAnswersNext := by
  intro c s
  cases plain : plainCmd c with
  | true =>
    obtain ⟨t, run, spine⟩ := exec_spine plain s
    exact ⟨t, run, congrArg Spine.pending spine⟩
  | false =>
    unfold exec
    cases c with
    | powerOn => exact ⟨_, rfl, rfl⟩
    | resetPinLow => exact ⟨_, rfl, rfl⟩
    | run v => exact controlWrite_answers v s
    | restart v => exact controlWrite_answers v s
    | registerWrite o v st => exact registerPort_answers o v { s with mem := Memory.storeAll s.mem st }
    | eventsClear v => exact answers_with s _ _ rfl
    | evmaskWrite v => exact answers_with s _ _ rfl
    | descriptorRead =>
      refine recorded_pending ?_
      split
      · dsimp only
        split <;> rfl
      · rfl
    | startingEnd =>
      refine scheduled_pending ?_
      split
      · exact congrArg Spine.pending (enterRunning_spine s)
      · rfl
    | drainComplete =>
      refine scheduled_pending ?_
      split
      · have spine := halted_spine s
        dsimp only
        generalize halted s = u at spine ⊢
        have halts : u.pending = s.pending := congrArg Spine.pending spine
        split
        · exact (congrArg Spine.pending (resume_spine u)).trans halts
        · exact halts
      · rfl
    | memoryError a => exact memoryError_answers a s
    | _ => cases plain

/-! ### FAULTED behind the access -/

theorem portReady_of_not_running {s : State} (rest : s.running = false) (l : Fin 4) : s.portReady l = false := by
  simp [State.portReady, rest]

theorem fault_running (c : FaultCause) (s : State) : (fault c s).running = false := rfl

/-- What a fault leaves of the state in which it comes. -/
theorem fault_keeps (c : FaultCause) (s : State) :
    (fault c s).mem = s.mem ∧ (fault c s).change = s.change ∧ (fault c s).editions = s.editions ∧
    (fault c s).roster = s.roster ∧ (fault c s).profiles = s.profiles ∧ (fault c s).sched = s.sched ∧
    (fault c s).sweeps = s.sweeps ∧ (∀ t, (fault c s).strip t = s.strip t) ∧
    (fault c s).exch.descriptor = s.exch.descriptor ∧ (fault c s).report = s.report :=
  ⟨rfl, rfl, rfl, rfl, rfl, rfl, rfl, fun t => by cases t <;> rfl, rfl, rfl⟩

theorem fault_port (c : FaultCause) (s : State) (l : Fin 4) : (fault c s).port l = (s.port l).quiet := by
  simp [fault, State.port, stopScan, setNotice]

theorem quiet_exchange {p : Port} (some : p.quiet.exchange ≠ none) : p.quiet.xstate = .sending := by
  unfold Port.quiet at some ⊢
  split
  · assumption
  · next other => simp [other] at some

/-- FAULTED as it shows after the fault of a memory error. -/
theorem exec_memoryError {s : State} {a : Access} (high : s.resetLow = false) (access : s.canAccess = true) :
    ∃ t, exec (.memoryError a) s = .next t ∧ Settled (fault .memory (beforeError a s)) t ∧
      t.sched = (beforeError a s).sched ∧ t.sweeps = (beforeError a s).sweeps ∧
      ∀ l, (t.port l).exchange ≠ none → (t.port l).xstate = .sending := by
  have run : exec (.memoryError a) s = recorded s fun s => if s.canAccess then fault .memory (beforeError a s) else s := rfl
  rw [run, recorded_next high, if_pos access]
  generalize beforeError a s = u
  have settled := settled_settle s (fault .memory u)
  obtain ⟨sched, sweeps, exchanges⟩ := settled.quiet (portReady_of_not_running (fault_running .memory u))
  refine ⟨_, rfl, settled, sched, sweeps, fun l busy => ?_⟩
  have core : ((settle s (fault .memory u)).port l).xstate = ((fault .memory u).port l).xstate := by
    have same := congrArg Port.xstate (settled.ports l)
    exact same
  rw [exchanges l, fault_port] at busy
  rw [core, fault_port]
  exact quiet_exchange busy

theorem settled_strip {u t : State} (settled : Settled u t) (x : Strip) : t.strip x = u.strip x := by
  cases x
  · exact settled.priority
  · exact settled.routine

theorem atEntry_running {s : State} (running : s.engine = .running) : s.atEntry = s := by
  unfold State.atEntry
  rw [running]

theorem beforeError_first {s : State} {a : Access}
    (first : a = .descriptorRead ∨ (s.engine = .running ∧ (a = .markRead .priority 0 ∨ a = .takenWrite .priority 0)) ∨
      a = .itemRead ∨ a = .itemPage ∨ a = .productRead ∨ a = .editionPage ∨ ∃ l, a = .framePage l) :
    beforeError a s = s := by
  rcases first with rfl | ⟨running, rfl | rfl⟩ | rfl | rfl | rfl | rfl | ⟨l, rfl⟩
  · rfl
  · exact atEntry_running running
  · exact atEntry_running running
  all_goals rfl

theorem beforeError_routine {s : State} {a : Access} (visits : a = .markRead .routine 0 ∨ a = .takenWrite .routine 0)
    (running : s.engine = .running) (stopped : (s.strip .routine).scan = .stopped) :
    beforeError a s = visit .priority s := by
  have entry := atEntry_running running
  have reached : reach .routine s = visit .priority s := by
    have stopped' : s.exch.routine.scan = .stopped := stopped
    unfold reach
    simp only [entry, stopped', if_true]
  rcases visits with rfl | rfl <;> exact reached

theorem beforeError_registers (a : Access) (s : State) :
    (beforeError a s).regs.xbase = s.regs.xbase ∧ (beforeError a s).regs.evmask = s.regs.evmask ∧
    (beforeError a s).clock = s.clock ∧
    (s.engine ≠ .haltedResumable → (beforeError a s).regs.run = s.regs.run) := by
  have steady : (beforeError a s).steady = if visitsStrip a then s.resuming.steady else s.steady := beforeError_steady a s
  have resuming : s.resuming.regs.xbase = s.regs.xbase ∧ s.resuming.regs.evmask = s.regs.evmask ∧
      s.resuming.clock = s.clock ∧ (s.engine ≠ .haltedResumable → s.resuming = s) := by
    unfold State.resuming
    split
    · next e => exact ⟨rfl, rfl, rfl, fun other => absurd e other⟩
    · exact ⟨rfl, rfl, rfl, fun _ => rfl⟩
  obtain ⟨xbase, evmask, clock, same⟩ := resuming
  generalize beforeError a s = u at steady ⊢
  split at steady
  · refine ⟨(congrArg (·.1.xbase) steady).trans xbase, (congrArg (·.1.evmask) steady).trans evmask,
      (congrArg (·.2) steady).trans clock, fun other => ?_⟩
    rw [same other] at steady
    exact congrArg (·.1.run) steady
  · exact ⟨congrArg (·.1.xbase) steady, congrArg (·.1.evmask) steady, congrArg (·.2) steady,
      fun _ => congrArg (·.1.run) steady⟩

theorem Visited.of_eq {x : Strip} {u v t : State} (visited : Visited x u v) (strip : t.strip x = v.strip x)
    (mem : t.mem = v.mem) : Visited x u t := by
  obtain ⟨passed, taken, unknown⟩ := visited
  exact ⟨by rwa [strip, mem], by rwa [strip, mem], by rwa [mem]⟩

/-- Settles O14: before the failing access stands only what keeps the registers and the clock; FAULTED is entered behind it. -/
theorem memoryErrorFaults : Obligations.MemoryErrorFaults := by
  intro s a high
  refine ⟨fun engine => ?_, fun rest => ?_⟩
  · have access : s.canAccess = true := by rcases engine with e | e | e | e <;> simp [State.canAccess, e]
    obtain ⟨t, run, settled, sched, sweeps, ports⟩ := exec_memoryError (a := a) high access
    obtain ⟨xbase, evmask, clock, kept⟩ := beforeError_registers a s
    obtain ⟨mem, change, editions, roster, profiles, -, -, strips, descriptor, report⟩ :=
      fault_keeps .memory (beforeError a s)
    refine ⟨t, run, settled.engine, stateRegister_of_faulted settled.engine, ?_, settled.scanTimer, ports,
      fun other => settled.run.trans (kept other), settled.xbase.trans xbase, settled.evmask.trans evmask,
      settled.clock.trans clock, fun first => ?_, fun visits running stopped wf apart pos => ?_⟩
    · rw [settled.events]
      exact fault_raises_fault .memory _
    · have same := beforeError_first first
      rw [same] at settled sched sweeps mem change editions roster profiles strips descriptor report
      exact ⟨settled.mem.trans mem, settled.change.trans change, settled.editions.trans editions,
        settled.roster.trans roster, settled.profiles.trans profiles, sched, sweeps,
        settled.priority.trans (strips .priority), settled.routine.trans (strips .routine),
        settled.descriptor.trans descriptor, settled.counts.trans (congrArg Report.counts report),
        settled.waiting.trans (congrArg Report.waiting report)⟩
    · have same := beforeError_routine visits running stopped
      rw [same] at settled sched mem change editions roster profiles strips
      have one := visit_stripVisit (by simp [State.running, running]) wf (pos .priority)
      obtain ⟨-, -, -, -, -, -, -, routine, -, schedV, -, -, changeV, editionsV, -, rosterV, profilesV, -⟩ :=
        offStrip_eq one.offStrip
      have strip (x : Strip) : t.strip x = (visit .priority s).strip x := (settled_strip settled x).trans (strips x)
      have bytes : t.mem = (visit .priority s).mem := settled.mem.trans mem
      refine ⟨one.seen.visited.of_eq (strip .priority) bytes, (strip .routine).trans routine, fun b outside => ?_,
        (settled.change.trans change).trans changeV, (settled.editions.trans editions).trans editionsV,
        (settled.roster.trans roster).trans rosterV, sched.trans schedV, (settled.profiles.trans profiles).trans profilesV⟩
      rw [bytes]
      exact one.elsewhere b outside
  · have cut : s.canAccess = false := by
      rcases rest with faulted | cold
      · exact canAccess_of_faulted faulted
      · simp [State.canAccess, cold]
    unfold exec
    exact recorded_nothing (by simp [cut])

end Sys2Proof.Machine

/-!
The commands of the line ports, of the replies and of the timers keep the fixed part of the state: memory, image, clock,
profiles, the two edition slots and the registers but EVENTS.
-/
namespace Sys2Proof.Machine

/-- The commands of the ports, of the replies and of the timers of roster and ports. -/
def lineCmd : Instr → Bool
  | .keepaliveDue _ | .backoffExpiry _ | .replacementWindowClose _ | .discoveryVisitDue | .identifyDue _ | .lineRecordTimer _
  | .lineModeChangeApplied _ | .frameStart _ | .frameSent _ | .echoJudged _ _ _ | .headerMark _ _ | .frameReceived _ _ _
  | .replyTimeout _ | .gapEnd _ | .status _ | .ident _ | .accept _ | .refuse _ | .pageAck _ | .closeAck _ | .checkReport _
  | .busy _ => true
  | _ => false

theorem scheduled_fixed {s : State} {f : State → State} (keeps : (f s).fixed = s.fixed) :
    ∃ t, scheduled s f = .next t ∧ t.fixed = s.fixed := by
  cases high : s.resetLow with
  | true => exact ⟨s, by simp [scheduled, recorded, high], rfl⟩
  | false => exact ⟨_, scheduled_next high, by rw [settle_fixed, boundaries_fixed, keeps]⟩

theorem recorded_fixed {s : State} {f : State → State} (keeps : (f s).fixed = s.fixed) :
    ∃ t, recorded s f = .next t ∧ t.fixed = s.fixed := by
  cases high : s.resetLow with
  | true => exact ⟨s, by simp [recorded, high], rfl⟩
  | false => exact ⟨_, recorded_next high, by rw [settle_fixed, keeps]⟩

theorem takeReply_fixed {l : Fin 4} {code : Byte} {f : Exchange → List Byte → Fin 24 → State → State}
    (keeps : ∀ e b n s, (f e b n s).fixed = s.fixed) (s : State) : (takeReply l code f s).fixed = s.fixed := by
  unfold takeReply
  split
  · rfl
  · dsimp only
    split
    · simp
    · rw [setKeepalive_fixed]
      split
      · simp
      · rw [keeps, overExchange_fixed]

theorem onSlot_fixed {ex : Exchange} {f : Fin 24 → State → State} (keeps : ∀ n s, (f n s).fixed = s.fixed) (s : State) :
    (onSlot ex f s).fixed = s.fixed := by
  unfold onSlot
  split
  · exact keeps _ s
  · rfl

theorem frameStart_fixed (l : Fin 4) (s : State) : ∃ t, execFrameStart l s = .next t ∧ t.fixed = s.fixed := by
  refine scheduled_fixed ?_
  split
  · split
    · split
      · next f frame =>
        split
        · rw [startExchange_fixed, requestFrame_fixed frame]
        · rfl
      · simp
    · rfl
  · rfl

theorem frameSent_fixed (l : Fin 4) (s : State) : ∃ t, execFrameSent l s = .next t ∧ t.fixed = s.fixed := by
  refine scheduled_fixed ?_
  split
  · split
    · rfl
    · split
      · rfl
      · dsimp only
        split <;> simp
  · rfl

theorem replyTimeout_fixed (l : Fin 4) (s : State) : ∃ t, execReplyTimeout l s = .next t ∧ t.fixed = s.fixed := by
  refine scheduled_fixed ?_
  split
  · next ex _ =>
    split
    · have counted : ∀ u : State, (if ex.work = .discovery ∨ ex.silentPoll = true then u
          else countLine l ex.side (fun k => { k with timeouts := satInc k.timeouts }) u).fixed = u.fixed := fun u => by
        split <;> simp
      dsimp only
      rw [failAttempt_fixed]
      split
      · rw [setGarbles_fixed, counted, modPort_fixed]
      · rw [onSlot_fixed (fun n s => endGarbleRun_fixed s n), counted, modPort_fixed]
    · rfl
  · rfl

theorem gapEnd_fixed (l : Fin 4) (s : State) : ∃ t, execGapEnd l s = .next t ∧ t.fixed = s.fixed := by
  refine scheduled_fixed ?_
  dsimp only
  split
  · rfl
  · split
    · simp
    · split
      · simp
      · split
        · simp
        · split <;> simp
        · simp

theorem discoveryVisitDue_fixed (s : State) : ∃ t, execDiscoveryVisitDue s = .next t ∧ t.fixed = s.fixed := by
  refine scheduled_fixed ?_
  split
  · rw [forLines_keeps State.fixed _ fun l u => ?_]
    · rfl
    · split <;> simp
  · rfl

/-- A command of the lines keeps the fixed part of the state. -/
theorem exec_fixed {c : Instr} (line : lineCmd c = true) (s : State) : ∃ t, exec c s = .next t ∧ t.fixed = s.fixed := by
  unfold exec
  cases c with
  | keepaliveDue n => exact scheduled_fixed (by split <;> simp)
  | backoffExpiry n => exact scheduled_fixed (by split <;> simp)
  | replacementWindowClose n => exact recorded_fixed (by simp)
  | discoveryVisitDue => exact discoveryVisitDue_fixed s
  | identifyDue n => exact scheduled_fixed (by split <;> simp)
  | lineRecordTimer l => exact recorded_fixed (by split <;> simp)
  | lineModeChangeApplied l => exact scheduled_fixed (by split <;> simp)
  | frameStart l => exact frameStart_fixed l s
  | frameSent l => exact frameSent_fixed l s
  | echoJudged l copy inTime => exact scheduled_fixed (by dsimp only; split <;> simp)
  | headerMark l side => exact scheduled_fixed (by split <;> [(split <;> simp); rfl])
  | frameReceived l bytes ending => exact scheduled_fixed (by split <;> [(split <;> simp); rfl])
  | replyTimeout l => exact replyTimeout_fixed l s
  | gapEnd l => exact gapEnd_fixed l s
  | status l => exact scheduled_fixed (takeReply_fixed (fun e b n s => takeStatus_fixed s e b n) s)
  | ident l =>
    refine scheduled_fixed ?_
    split
    · split
      · simp
      · exact takeReply_fixed (fun e b n s => takeIdent_fixed s e b n) s
    · rfl
  | accept l => exact scheduled_fixed (takeReply_fixed (fun e b n s => takeAccept_fixed s e b n) s)
  | refuse l =>
    refine scheduled_fixed ?_
    rw [takeReply_fixed fun e b n s => takeRefuse_fixed s e b n]
    simp
  | pageAck l => exact scheduled_fixed (takeReply_fixed (fun e b n s => takePageAck_fixed s e b n) s)
  | closeAck l => exact scheduled_fixed (takeReply_fixed (fun e b n s => takeCloseAck_fixed s e b n) s)
  | checkReport l => exact scheduled_fixed (takeReply_fixed (fun e b n s => takeCheckReport_fixed s e b n) s)
  | busy l => exact scheduled_fixed (by simp)
  | _ => cases line

end Sys2Proof.Machine

/-!
Every step keeps shared memory in its canonical form, XBASE aligned, and the two edition slots on different regions.
-/
namespace Sys2Proof.Machine

/-! ### Predicates that an exchange boundary carries -/

/-- What holds before a scheduled command, and of what its function leaves, holds after it. -/
theorem scheduled_holds {P : State → Prop} (carried : ∀ {u t : State}, Settled u t → P u → P t) {s t : State}
    {f : State → State} (run : scheduled s f = .next t) (now : P s) (keeps : P (f s)) : P t := by
  cases high : s.resetLow with
  | true =>
    simp only [scheduled, recorded, high, if_true] at run
    cases run
    exact now
  | false =>
    rw [scheduled_next high] at run
    cases run
    exact carried (settled_boundaries s (f s)) keeps

theorem recorded_holds {P : State → Prop} (carried : ∀ {u t : State}, Settled u t → P u → P t) {s t : State}
    {f : State → State} (run : recorded s f = .next t) (now : P s) (keeps : P (f s)) : P t := by
  cases high : s.resetLow with
  | true =>
    simp only [recorded, high, if_true] at run
    cases run
    exact now
  | false =>
    rw [recorded_next high] at run
    cases run
    exact carried (settled_settle s (f s)) keeps

theorem ite_holds {P : State → Prop} (c : Prop) [Decidable c] {u v : State} (yes : P u) (no : P v) :
    P (if c then u else v) := by
  split
  · exact yes
  · exact no

theorem foldl_holds {P : State → Prop} {β : Type} {f : State → β → State} (keeps : ∀ s x, P s → P (f s x)) :
    ∀ (xs : List β) {s : State}, P s → P (xs.foldl f s)
  | [], _, now => now
  | x :: xs, s, now => foldl_holds keeps xs (keeps s x now)

/-! ### Shared memory -/

def State.wf (s : State) : Prop := Memory.wf s.mem = true

theorem wf_of_mem {s u : State} (same : u.mem = s.mem) (wf : s.wf) : u.wf := by rwa [State.wf, same]

theorem wf_settled {u t : State} (settled : Settled u t) (wf : u.wf) : t.wf := wf_of_mem settled.mem wf

theorem answer_mem {k : Nat} {answer : Request → State → State × Result} (kind : answerOf k = some answer)
    (r : Request) (s : State) : (answer r s).1.mem = s.mem := by
  have fixed {u : State} (h : u.fixed = s.fixed) : u.mem = s.mem := by
    obtain ⟨mem, -⟩ := of_fixed h
    exact mem
  unfold answerOf at kind
  split_ifs at kind <;> cases kind
  · exact fixed (pinSlot_fixed r s)
  · exact fixed (freeSlot_fixed r s)
  · exact fixed (releaseSlot_fixed r s)
  · exact fixed (resyncSlot_fixed r s)
  · exact fixed (clearCounters_fixed r s)
  · exact fixed (setLine_fixed r s)
  · unfold setProfile
    split
    · split
      · split
        · rfl
        · exact storeProfile_mem s _ _
      · rfl
    · rfl

theorem atOnce_wf {t : Strip} {k : Nat} {answer : Request → State → State × Result} (kind : answerOf k = some answer)
    {s : State} (wf : s.wf) : (atOnce t k answer s).wf := by
  unfold atOnce
  split
  · exact completeRequest_wf _ _ _ (wf_of_mem ((answer_mem kind _ _).trans (takeUp_mem s t .atOnce)) wf)
  · exact wf

theorem beforeOutcome_wf (t : Strip) {s : State} (wf : s.wf) : (beforeOutcome t s).wf := by
  unfold beforeOutcome
  have written : (writeRecord summaryRec 3 s).wf := writeRecord_wf s summaryRec 3 wf
  generalize writeRecord summaryRec 3 s = u at written ⊢
  exact foldl_holds (P := State.wf) (fun s w h => give_wf s w h) _ written

theorem requestResult_wf {s u : State} {t : Strip} {r : Result} (due : s.requestResult t = some (u, r)) (wf : s.wf) :
    u.wf := by
  unfold State.requestResult at due
  split at due
  · split at due
    · split at due
      · next answer kind =>
        have kept := answer_mem kind ‹Request› s
        rw [Option.some.inj due] at kept
        exact wf_of_mem kept wf
      · obtain ⟨o, -, same⟩ := Option.map_eq_some_iff.1 due
        cases same
        exact wf
    · cases due
  · cases due

theorem heldResult_wf {s u : State} {t : Strip} {r : Result} (due : s.heldResult t = some (u, r)) (wf : s.wf) : u.wf := by
  unfold State.heldResult at due
  split at due
  · next b _ =>
    split at due
    · have kept := itemDone_wf _ (applyNext b s).2 (applyNext_wf s b wf)
      dsimp only at due
      generalize itemDone (applyNext b s).2 (applyNext b s).1 = v at kept due
      obtain ⟨b', -, same⟩ := Option.bind_eq_some_iff.1 due
      split at same
      · cases same
        exact kept
      · cases same
    · exact requestResult_wf due wf
  · exact requestResult_wf due wf

theorem resultDue_wf {s u : State} {t : Strip} {notify : Bool} {r : Result} (due : s.resultDue t = some (u, notify, r))
    (wf : s.wf) : u.wf := by
  unfold State.resultDue at due
  split at due
  · split at due
    · dsimp only at due
      split at due
      · cases due
      · cases due
        exact wf_of_mem (deferredTests_mem _ t) (beforeOutcome_wf t wf)
    · obtain ⟨x, held, same⟩ := Option.map_eq_some_iff.1 due
      cases same
      exact heldResult_wf held wf
  · split at due
    · cases due
      exact writeSlotBytes_wf wf t 0 [2]
    · cases due

theorem afterCompletions_wf (t : Strip) : ∀ (done : Nat) {s : State}, s.wf → (afterCompletions t done s).wf
  | 0, _, wf => wf
  | done + 1, s, wf => by
    unfold afterCompletions
    split
    · next due => exact afterCompletions_wf t done (finish_wf (resultDue_wf due wf) t _ _)
    · exact wf

theorem purgePages_wf (sd k : Nat) {s : State} (wf : s.wf) : (purgePages sd k s).1.wf := by
  have pages (ps : List Nat) (x : State × List Nat) (h : x.1.wf) :
      (ps.foldl (fun x p => purgePage sd p x) x).1.wf := by
    induction ps generalizing x with
    | nil => exact h
    | cons p ps ih =>
      refine ih _ ?_
      unfold purgePage
      dsimp only
      split
      · exact h
      · exact writeEntries_wf h _ _ _
  exact pages _ _ wf

theorem beforeError_wf (a : Access) {s : State} (wf : s.wf) : (beforeError a s).wf := by
  have reached (t : Strip) (k : Nat) : (afterCompletions t k (reach t s)).wf :=
    afterCompletions_wf t k (reach_wf t s wf)
  cases a with
  | markRead t done => exact reached t done
  | takenWrite t done => exact reached t done
  | requestRead t done => exact ite_holds _ (writeSlotBytes_wf (reached t done) t 0 [2]) (reached t done)
  | completionWrite t done stage =>
    simp only [beforeError]
    split
    · next due => exact writeCompletion_wf _ t _ _ (resultDue_wf due (reached t done))
    · exact reached t done
  | mirrorPage =>
    simp only [beforeError]
    split
    · exact ite_holds _ (applyLive_wf s _ wf) wf
    · exact wf
  | mirrorHeader =>
    simp only [beforeError]
    split
    · exact ite_holds _ (mirror_wf _ _ _ (applyLive_wf s _ wf)) wf
    · exact wf
  | itemOutcome =>
    simp only [beforeError]
    split
    · exact ite_holds _ (applyNext_wf s _ wf) wf
    · exact wf
  | batchHeader done =>
    simp only [beforeError]
    split
    · exact ite_holds _ (partialHeaders_wf s _ _ done wf) wf
    · exact wf
  | formatPage t done => exact partialFormat_wf s t done wf
  | purgePage done =>
    exact ite_holds _ (purgePages_wf _ done (wf_of_mem (takePurge_mem s) wf)) wf
  | purgeHeader done =>
    have purged := purgePages_wf (takePurge s).clock.serviceDay (takePurge s).change.pages (wf_of_mem (takePurge_mem s) wf)
    exact ite_holds _ (ite_holds _ purged (partialHeaders_wf _ _ _ done purged)) wf
  | rebuildPage done => exact partialSlice_wf s done wf
  | editionClose =>
    simp only [beforeError]
    split
    · exact ite_holds _ (writeProduct_wf s _ _ wf) wf
    · exact wf
  | reportWrite r stage =>
    have flushed := flushRecords_wf s wf
    simp only [beforeError]
    generalize flushRecords s = u at flushed ⊢
    exact ite_holds _ (writeRecord_wf s r _ wf) (ite_holds _ (writeRecord_wf _ summaryRec _ flushed) wf)
  | descriptorRead | itemRead | itemPage | productRead | editionPage | framePage => exact wf

theorem takeRun_wf (run : Bool) {s : State} (wf : s.wf) : (takeRun run s).wf := by
  unfold takeRun
  dsimp only
  split
  · exact ite_holds _ wf wf
  · exact ite_holds _ wf wf
  · exact ite_holds _ wf wf
  · exact wf
  · exact ite_holds _ (resume_wf _ wf) wf
  · exact wf

theorem controlWrite_wf {s t : State} {v : Word} (run : controlWrite v s = .next t) (wf : s.wf) : t.wf := by
  unfold controlWrite at run
  split at run
  · cases run
    exact wf
  · split at run
    · cases run
      exact wf
    · split at run
      · cases run
        exact wf
      · exact scheduled_holds (P := State.wf) wf_settled run wf (takeRun_wf _ wf)

theorem kick_wf {s t : State} {v : Word} (run : execKick v s = .next t) (wf : s.wf) : t.wf :=
  scheduled_holds (P := State.wf) wf_settled run wf (ite_holds _ (visitBoth_wf s wf) wf)

theorem registerPort_wf {s t : State} {o v : Word} (run : registerPort o v s = .next t) (wf : s.wf) : t.wf := by
  have next {u : State} (h : (Host.Outcome.next u : Out) = .next t) (w : u.wf) : t.wf := by
    cases h
    exact w
  unfold registerPort at run
  split at run
  · exact controlWrite_wf run wf
  · split at run
    · exact kick_wf run wf
    · split at run
      · exact next run (ite_holds _ wf wf)
      · split at run
        · exact next run (ite_holds _ wf wf)
        · exact next run (ite_holds _ wf (ite_holds _ wf wf))

theorem takeUp_wf (t : Strip) (o : Owner) {s : State} (wf : s.wf) : (takeUp t o s).wf := wf_of_mem (takeUp_mem s t o) wf

theorem scheduled_wf {f : State → State} {s t : State} (run : scheduled s f = .next t) (wf : s.wf) (keeps : (f s).wf) :
    t.wf := scheduled_holds (P := State.wf) wf_settled run wf keeps

theorem recorded_wf {f : State → State} {s t : State} (run : recorded s f = .next t) (wf : s.wf) (keeps : (f s).wf) :
    t.wf := recorded_holds (P := State.wf) wf_settled run wf keeps

theorem applyChanges_wf {s t : State} {x : Strip} (run : execApplyChanges x s = .next t) (wf : s.wf) : t.wf := by
  unfold execApplyChanges at run
  refine scheduled_wf run wf (ite_holds _ ?_ wf)
  have taken := wf_of_mem (resumeRebuild_mem _) (takeUp_wf x .change wf)
  dsimp only
  split
  · exact completeRequest_wf _ _ _ taken
  · exact taken

theorem changeItem_wf {s t : State} (run : execChangeItem s = .next t) (wf : s.wf) : t.wf := by
  unfold execChangeItem at run
  refine scheduled_wf run wf ?_
  split
  · next b _ =>
    refine ite_holds _ ?_ wf
    have done := itemDone_wf _ (applyNext b s).2 (applyNext_wf s b wf)
    dsimp only
    generalize itemDone (applyNext b s).2 (applyNext b s).1 = u at done ⊢
    split
    · exact ite_holds _ (endBatch_wf _ _ done) done
    · exact done
  · exact wf

theorem batchEnd_wf {s t : State} (run : execBatchEnd s = .next t) (wf : s.wf) : t.wf := by
  unfold execBatchEnd at run
  refine scheduled_wf run wf ?_
  split
  · next b _ =>
    have raised : (raiseG s).wf := wf
    have brought (u : Bool) : (bringUpAll u b.changed (raiseG s)).wf := bringUpAll_wf (raiseG s) u b.changed raised
    have settled (u : Bool) : (imageSettled (bringUpAll u b.changed (raiseG s))).wf :=
      wf_of_mem (imageSettled_mem _) (brought u)
    exact ite_holds _ (endBatch_wf _ _ (ite_holds _ (wf_of_mem (insertUrgent_mem _ _) (settled _)) (settled _))) wf
  · exact wf

theorem formatImage_wf {s t : State} {x : Strip} (run : execFormatImage x s = .next t) (wf : s.wf) : t.wf := by
  unfold execFormatImage at run
  refine scheduled_wf run wf (ite_holds _ ?_ wf)
  have taken := takeUp_wf x .change wf
  dsimp only
  split
  · exact completeRequest_wf _ _ _ taken
  · exact startFormat_wf _ _ _ _ taken

theorem formatSwitch_wf {s t : State} (run : execFormatSwitch s = .next t) (wf : s.wf) : t.wf := by
  unfold execFormatSwitch at run
  refine scheduled_wf run wf ?_
  split
  · next f _ =>
    have switched : (switchTo f s).wf := wf
    exact ite_holds _ (wf_of_mem (completeAfterSummary_mem _ _ _) (wf_of_mem (switchEffects_mem _) switched)) wf
  · exact wf

theorem rebuildImage_wf {s t : State} {x : Strip} (run : execRebuildImage x s = .next t) (wf : s.wf) : t.wf := by
  unfold execRebuildImage at run
  refine scheduled_wf run wf (ite_holds _ ?_ wf)
  have taken := takeUp_wf x .change wf
  dsimp only
  split
  · exact completeRequest_wf _ _ _ taken
  · exact taken

theorem rebuildSlice_wf {s t : State} (run : execRebuildSlice s = .next t) (wf : s.wf) : t.wf := by
  unfold execRebuildSlice at run
  refine scheduled_wf run wf ?_
  split
  · exact ite_holds _ (nextSlice_wf s _ wf) wf
  · exact wf

theorem purge_wf {s : State} (wf : s.wf) : (purge s).wf := by
  have taken := wf_of_mem (takePurge_mem s) wf
  unfold purge
  dsimp only
  split
  · exact taken
  · have purged := purgePages_wf (takePurge s).clock.serviceDay (takePurge s).change.pages taken
    split
    · exact purged
    · rw [State.wf, want_mem, imageSettled_mem]
      exact bringUpAll_wf _ false _ purged

theorem loadEdition_wf {s t : State} {x : Strip} (run : execLoadEdition x s = .next t) (wf : s.wf) : t.wf := by
  unfold execLoadEdition at run
  refine scheduled_wf run wf (ite_holds _ ?_ wf)
  have taken := takeUp_wf x .edition wf
  have withdrawn (c : Prop) [Decidable c] :
      (if c then withdrawPending (takeUp x .edition s) else takeUp x .edition s).wf :=
    ite_holds _ (wf_of_mem (withdrawPending_mem _) taken) taken
  dsimp only
  split
  · exact ite_holds _ (wf_of_mem (completeAfterSummary_mem _ _ _) (withdrawn _)) (completeRequest_wf _ _ _ (withdrawn _))
  · exact wf_of_mem (startLoad_mem _ _ _ _ _ _) (withdrawn _)

theorem productRecord_wf {s t : State} (run : execProductRecord s = .next t) (wf : s.wf) : t.wf := by
  unfold execProductRecord at run
  refine scheduled_wf run wf ?_
  split
  · exact ite_holds _ (ite_holds _ (wf_of_mem (failLoad_mem s _) wf) (storeProduct_wf s _ _ wf)) wf
  · exact wf

theorem rescheduleEdition_wf {s t : State} {x : Strip} (run : execRescheduleEdition x s = .next t) (wf : s.wf) : t.wf := by
  unfold execRescheduleEdition at run
  refine scheduled_wf run wf (ite_holds _ ?_ wf)
  have taken := takeUp_wf x .edition wf
  refine ite_holds _ ?_ (completeRequest_wf _ _ _ taken)
  exact wf_of_mem (completeAfterSummary_mem _ _ _) (wf_of_mem (editionTests_mem _) taken)

theorem withdrawEdition_wf {s t : State} {x : Strip} (run : execWithdrawEdition x s = .next t) (wf : s.wf) : t.wf := by
  unfold execWithdrawEdition at run
  refine scheduled_wf run wf (ite_holds _ ?_ wf)
  have taken := takeUp_wf x .edition wf
  refine ite_holds _ ?_ (completeRequest_wf _ _ _ taken)
  exact wf_of_mem (completeAfterSummary_mem _ _ _) (wf_of_mem (withdrawPending_mem _) taken)

theorem setClock_wf {s t : State} {x : Strip} (run : execSetClock x s = .next t) (wf : s.wf) : t.wf := by
  unfold execSetClock at run
  refine scheduled_wf run wf (ite_holds _ ?_ wf)
  have taken := takeUp_wf x .edition wf
  refine ite_holds _ (completeRequest_wf _ _ _ taken) ?_
  refine wf_of_mem (completeAfterSummary_mem _ _ _) (wf_of_mem (editionTests_mem _) ?_)
  exact wf_of_mem (serviceDayEffects_mem _ _) taken

theorem minuteTick_wf {s t : State} (run : execMinuteTick s = .next t) (wf : s.wf) : t.wf := by
  unfold execMinuteTick at run
  refine scheduled_wf run wf (ite_holds _ (ite_holds _ ?_ ?_) wf)
  · exact wf_of_mem (stopClock_mem s) wf
  · exact wf_of_mem (tickClock_mem s) wf

theorem drainComplete_wf {s t : State} (run : execDrainComplete s = .next t) (wf : s.wf) : t.wf := by
  unfold execDrainComplete at run
  refine scheduled_wf run wf ?_
  have halts := halted_wf s wf
  dsimp only
  generalize halted s = u at halts ⊢
  exact ite_holds _ (ite_holds _ (resume_wf u halts) halts) wf

theorem reportRewrite_wf {s t : State} {r : Fin 29} (run : execReportRewrite r s = .next t) (wf : s.wf) : t.wf := by
  unfold execReportRewrite at run
  refine recorded_wf run wf (ite_holds _ ?_ wf)
  have rewritten := rewriteRecord_wf r s wf
  dsimp only
  generalize rewriteRecord r s = u at rewritten ⊢
  exact ite_holds _ (wf_of_mem (boundaries_mem u) rewritten) rewritten

theorem scheduled_atOnce_wf {s t : State} {x : Strip} {k : Nat} {answer : Request → State → State × Result}
    (run : scheduled s (atOnce x k answer) = .next t) (kind : answerOf k = some answer) (wf : s.wf) : t.wf :=
  scheduled_wf run wf (atOnce_wf kind wf)

/-- No command takes memory out of its canonical form. -/
theorem exec_wf {c : Instr} {s t : State} (run : exec c s = .next t) (wf : s.wf) : t.wf := by
  cases line : lineCmd c with
  | true =>
    obtain ⟨u, run', fixed⟩ := exec_fixed line s
    obtain ⟨mem, -⟩ := of_fixed fixed
    rw [run] at run'
    cases run'
    exact wf_of_mem mem wf
  | false =>
    unfold exec at run
    cases c with
    | powerOn => cases run; exact wf
    | resetPinLow => cases run; exact wf
    | run v => exact controlWrite_wf run wf
    | restart v => exact controlWrite_wf run wf
    | registerWrite o v st => exact registerPort_wf run (Memory.storeAll_wf st wf)
    | kick v => exact kick_wf run wf
    | eventsClear v => cases run; exact ite_holds _ wf wf
    | evmaskWrite v => cases run; exact ite_holds _ wf wf
    | descriptorRead => exact recorded_wf run wf (ite_holds _ (ite_holds _ wf wf) wf)
    | startingEnd => exact scheduled_wf run wf (ite_holds _ (enterRunning_wf s wf) wf)
    | drainComplete => exact drainComplete_wf run wf
    | memoryError a => exact recorded_wf run wf (ite_holds _ (beforeError_wf a wf) wf)
    | scanIntervalExpiry => exact scheduled_wf run wf (ite_holds _ (visitBoth_wf s wf) wf)
    | applyChanges x => exact applyChanges_wf run wf
    | changeItem => exact changeItem_wf run wf
    | batchEnd => exact batchEnd_wf run wf
    | formatImage x => exact formatImage_wf run wf
    | formatSwitch => exact formatSwitch_wf run wf
    | rebuildImage x => exact rebuildImage_wf run wf
    | rebuildSlice => exact rebuildSlice_wf run wf
    | purgeJob => exact scheduled_wf run wf (ite_holds _ (purge_wf wf) wf)
    | loadEdition x => exact loadEdition_wf run wf
    | productRecord => exact productRecord_wf run wf
    | rescheduleEdition x => exact rescheduleEdition_wf run wf
    | withdrawEdition x => exact withdrawEdition_wf run wf
    | setClock x => exact setClock_wf run wf
    | minuteTick => exact minuteTick_wf run wf
    | pinSlot x => exact scheduled_atOnce_wf (k := Kind.pinSlot) run rfl wf
    | freeSlot x => exact scheduled_atOnce_wf (k := Kind.freeSlot) run rfl wf
    | releaseSlot x => exact scheduled_atOnce_wf (k := Kind.releaseSlot) run rfl wf
    | resyncSlot x => exact scheduled_atOnce_wf (k := Kind.resyncSlot) run rfl wf
    | clearCounters x => exact scheduled_atOnce_wf (k := Kind.clearCounters) run rfl wf
    | setLine x => exact scheduled_atOnce_wf (k := Kind.setLine) run rfl wf
    | setProfile x => exact scheduled_atOnce_wf (k := Kind.setProfile) run rfl wf
    | reportRewrite r => exact reportRewrite_wf run wf
    | _ => cases line

end Sys2Proof.Machine

/-!
The two edition slots keep naming different regions (R52, R60): only an activation and a load change the names.
-/
namespace Sys2Proof.Machine

theorem Region.ne_other (r : Region) : r ≠ r.other := by cases r <;> decide

theorem regionsOk_of_editions {s u : State} (same : u.editions = s.editions) (ok : s.regionsOk) : u.regionsOk := by
  rwa [State.regionsOk, same]

theorem regionsOk_of_slots {s u : State} (active : u.editions.active = s.editions.active)
    (pending : u.editions.pending.region = s.editions.pending.region) (ok : s.regionsOk) : u.regionsOk := by
  rwa [State.regionsOk, active, pending]

theorem regionsOk_of_fixed {s u : State} (same : u.fixed = s.fixed) (ok : s.regionsOk) : u.regionsOk := by
  obtain ⟨-, -, -, -, -, -, -, -, -, -, -, active, pending, -⟩ := of_fixed same
  exact regionsOk_of_slots active (by rw [pending]) ok

theorem regionsOk_of_offImage {s u : State} (same : u.offImage = s.offImage) (ok : s.regionsOk) : u.regionsOk := by
  obtain ⟨-, -, -, -, editions, -⟩ := of_offImage same
  exact regionsOk_of_editions editions ok

theorem editions_of_offStrip {t : Strip} {s u : State} (same : u.offStrip t = s.offStrip t) : u.editions = s.editions := by
  obtain ⟨-, -, -, -, -, -, -, -, -, -, -, -, -, editions, -⟩ := offStrip_eq same
  exact editions

theorem regionsOk_of_offStrip {t : Strip} {s u : State} (same : u.offStrip t = s.offStrip t) (ok : s.regionsOk) :
    u.regionsOk := regionsOk_of_editions (editions_of_offStrip same) ok

theorem regionsOk_settled {u t : State} (settled : Settled u t) (ok : u.regionsOk) : t.regionsOk :=
  regionsOk_of_editions settled.editions ok

/-- The edition tests give the new ACTIVE slot the PENDING slot's region and the PENDING slot the other one, or change
neither name. -/
theorem EditionTested.regionsOk {u t : State} (tested : EditionTested u t) (ok : u.regionsOk) : t.regionsOk := by
  by_cases due : u.dueNow
  · obtain ⟨active, pending, -⟩ := tested.activates due
    rw [State.regionsOk, active, pending]
    exact Region.ne_other _
  · by_cases risk : u.riskNow
    · obtain ⟨active, pending, -⟩ := tested.warns risk
      exact regionsOk_of_slots active (by rw [pending]) ok
    · obtain ⟨active, pending⟩ := tested.rests due risk
      exact regionsOk_of_slots active (by rw [pending]) ok

theorem editionTests_regionsOk {s : State} (ok : s.regionsOk) : (editionTests s).regionsOk := by
  cases work : s.working with
  | false =>
    rw [editionTests, work]
    exact ok
  | true => exact (editionTests_tested work).regionsOk ok

theorem deferredTests_regionsOk (t : Strip) {s : State} (ok : s.regionsOk) : (deferredTests t s).1.regionsOk := by
  obtain ⟨-, -, same⟩ | ⟨-, same⟩ := deferredTests_cases t s
  · rw [same]
    exact editionTests_regionsOk (s := setTestsDue false s) ok
  · rw [same]
    exact ok

theorem completeRequest_regionsOk (t : Strip) (r : Result) {s : State} (ok : s.regionsOk) :
    (completeRequest t r s).regionsOk := regionsOk_of_offStrip (completeRequest_offStrip t r s) ok

theorem handOutcome_regionsOk (t : Strip) (r : Result) {s : State} (ok : s.regionsOk) : (handOutcome t r s).regionsOk := by
  obtain ⟨-, same⟩ | ⟨-, same⟩ := handOutcome_cases t r s
  · rw [same]
    exact deferredTests_regionsOk t ok
  · rw [same]
    exact completeRequest_regionsOk t r (deferredTests_regionsOk t ok)

theorem give_regionsOk (s : State) (w : Waiting) (ok : s.regionsOk) : (give s w).regionsOk := by
  unfold give
  split
  · exact regionsOk_of_fixed (raise_fixed s _) ok
  · exact handOutcome_regionsOk _ _ ok

theorem stopRecordTimer_editions (r : Fin 29) (s : State) : (stopRecordTimer r s).editions = s.editions := by
  unfold stopRecordTimer
  split <;> rfl

theorem rewriteRecord_regionsOk (r : Fin 29) {s : State} (ok : s.regionsOk) : (rewriteRecord r s).regionsOk := by
  unfold rewriteRecord release
  dsimp only
  refine foldl_holds (P := State.regionsOk) give_regionsOk _ ?_
  exact regionsOk_of_editions (stopRecordTimer_editions r _) ok

theorem flushRecords_regionsOk {s : State} (ok : s.regionsOk) : (flushRecords s).regionsOk := by
  unfold flushRecords
  generalize List.finRange 29 = records
  exact foldl_holds (P := State.regionsOk) (fun s r ok => ite_holds _ (rewriteRecord_regionsOk r ok) ok) records ok

theorem halted_regionsOk {s : State} (ok : s.regionsOk) : (halted s).regionsOk := by
  have flushed := flushRecords_regionsOk ok
  unfold halted
  generalize flushRecords s = u at flushed ⊢
  exact rewriteRecord_regionsOk summaryRec (s := { u with engine := .haltedResumable }) flushed

theorem resumed_regionsOk {s : State} (ok : s.regionsOk) : (resumed s).regionsOk := by
  have tested : s.resumeTested.regionsOk := editionTests_regionsOk (s := entered s) ok
  rw [resumed_eq]
  exact ite_holds _ tested tested

theorem visitBoth_regionsOk {s : State} (ok : s.regionsOk) : (visitBoth s).regionsOk :=
  regionsOk_of_offStrip (visit_offStrip .routine _) (regionsOk_of_offStrip (visit_offStrip .priority s) ok)

theorem resume_regionsOk {s : State} (ok : s.regionsOk) : (resume s).regionsOk := visitBoth_regionsOk (resumed_regionsOk ok)

theorem takeRun_regionsOk (run : Bool) {s : State} (ok : s.regionsOk) : (takeRun run s).regionsOk := by
  unfold takeRun
  dsimp only
  split
  · exact ite_holds _ ok ok
  · exact ite_holds _ ok ok
  · exact ite_holds _ ok ok
  · exact ok
  · exact ite_holds _ (resume_regionsOk (s := { s with regs := { s.regs with run := run } }) ok) ok
  · exact ok

theorem reset_regionsOk : State.reset.regionsOk := Region.ne_other .a

theorem scheduled_regionsOk {f : State → State} {s t : State} (run : scheduled s f = .next t) (ok : s.regionsOk)
    (keeps : (f s).regionsOk) : t.regionsOk := scheduled_holds (P := State.regionsOk) regionsOk_settled run ok keeps

theorem recorded_regionsOk {f : State → State} {s t : State} (run : recorded s f = .next t) (ok : s.regionsOk)
    (keeps : (f s).regionsOk) : t.regionsOk := recorded_holds (P := State.regionsOk) regionsOk_settled run ok keeps

theorem controlWrite_regionsOk {s t : State} {v : Word} (run : controlWrite v s = .next t) (ok : s.regionsOk) :
    t.regionsOk := by
  unfold controlWrite at run
  split at run
  · cases run
    exact ok
  · split at run
    · cases run
      exact reset_regionsOk
    · split at run
      · cases run
        exact ok
      · exact scheduled_regionsOk run ok (takeRun_regionsOk _ ok)

theorem kick_regionsOk {s t : State} {v : Word} (run : execKick v s = .next t) (ok : s.regionsOk) : t.regionsOk :=
  scheduled_regionsOk run ok (ite_holds _ (visitBoth_regionsOk ok) ok)

theorem registerPort_regionsOk {s t : State} {o v : Word} (run : registerPort o v s = .next t) (ok : s.regionsOk) :
    t.regionsOk := by
  have next {u : State} (h : (Host.Outcome.next u : Out) = .next t) (w : u.regionsOk) : t.regionsOk := by
    cases h
    exact w
  unfold registerPort at run
  split at run
  · exact controlWrite_regionsOk run ok
  · split at run
    · exact kick_regionsOk run ok
    · split at run
      · exact next run (ite_holds _ ok ok)
      · split at run
        · exact next run (ite_holds _ ok ok)
        · exact next run (ite_holds _ ok (ite_holds _ ok ok))

theorem takeUp_editions (t : Strip) (o : Owner) (s : State) : (takeUp t o s).editions = s.editions := by
  obtain ⟨x, p, same, -⟩ := takeUp_eq t o s
  rw [same]

theorem takePurge_editions (s : State) : (takePurge s).editions = s.editions := by
  obtain ⟨x, same⟩ := takePurge_eq s
  rw [same]

theorem takeUp_regionsOk (t : Strip) (o : Owner) {s : State} (ok : s.regionsOk) : (takeUp t o s).regionsOk :=
  regionsOk_of_editions (takeUp_editions t o s) ok

theorem answer_regionsOk {k : Nat} {answer : Request → State → State × Result} (kind : answerOf k = some answer)
    (r : Request) {s : State} (ok : s.regionsOk) : (answer r s).1.regionsOk := by
  unfold answerOf at kind
  split_ifs at kind <;> cases kind
  · exact regionsOk_of_fixed (pinSlot_fixed r s) ok
  · exact regionsOk_of_fixed (freeSlot_fixed r s) ok
  · exact regionsOk_of_fixed (releaseSlot_fixed r s) ok
  · exact regionsOk_of_fixed (resyncSlot_fixed r s) ok
  · exact regionsOk_of_fixed (clearCounters_fixed r s) ok
  · exact regionsOk_of_fixed (setLine_fixed r s) ok
  · refine regionsOk_of_editions ?_ ok
    unfold setProfile
    split
    · split
      · split
        · rfl
        · obtain ⟨-, -, -, -, -, -, editions, -⟩ := of_offServed (storeProfile_offServed ‹_› (readProfile r ⟨_, ‹_›⟩).1 s)
          exact editions
      · rfl
    · rfl

theorem scheduled_atOnce_regionsOk {s t : State} {x : Strip} {k : Nat} {answer : Request → State → State × Result}
    (run : scheduled s (atOnce x k answer) = .next t) (kind : answerOf k = some answer) (ok : s.regionsOk) :
    t.regionsOk := by
  refine scheduled_regionsOk run ok ?_
  unfold atOnce
  split
  · exact completeRequest_regionsOk _ _ (answer_regionsOk kind _ (takeUp_regionsOk x .atOnce ok))
  · exact ok

/-! ### The change engine names no edition region -/

theorem completeAfterSummary_regionsOk (t : Strip) (r : Result) {s : State} (ok : s.regionsOk) :
    (completeAfterSummary t r s).regionsOk := ok

theorem endBatch_regionsOk (b : Batch) {s : State} (ok : s.regionsOk) : (endBatch b s).regionsOk := by
  unfold endBatch
  dsimp only
  refine ite_holds _ (completeRequest_regionsOk _ _ ok) (completeAfterSummary_regionsOk _ _ (ite_holds _ ?_ ok))
  exact regionsOk_of_fixed (raiseAfter_fixed _ _ _) ok

theorem imageSettled_regionsOk {s : State} (ok : s.regionsOk) : (imageSettled s).regionsOk := by
  unfold imageSettled
  exact regionsOk_of_fixed ((reevaluateAll_fixed _).trans (compareHeld_fixed _)) ok

theorem switchEffects_regionsOk {s : State} (ok : s.regionsOk) : (switchEffects s).regionsOk :=
  regionsOk_of_fixed (switchEffects_fixed s) ok

theorem copySlice_regionsOk {s : State} (ok : s.regionsOk) : (copySlice s).regionsOk := by
  unfold copySlice
  dsimp only
  have copied := regionsOk_of_offImage (copyPages_offImage (min slicePages (s.change.pages - s.change.copyCursor)) s) ok
  generalize copyPages (min slicePages (s.change.pages - s.change.copyCursor)) s = u at copied ⊢
  split
  · exact copied
  · exact ite_holds _ copied (ite_holds _ copied copied)

theorem finishSlice_regionsOk (r : Rebuild) {s : State} (ok : s.regionsOk) : (finishSlice r s).regionsOk := by
  unfold finishSlice
  dsimp only
  have finished := regionsOk_of_offImage (finishPages_offImage r.finished (min slicePages (r.pages - r.finished)) s) ok
  generalize finishPages r.finished (min slicePages (r.pages - r.finished)) s = u at finished ⊢
  split
  · exact finished
  · refine ite_holds _ finished (ite_holds _ finished (completeAfterSummary_regionsOk _ _ (switchEffects_regionsOk ?_)))
    exact finished

theorem nextSlice_regionsOk (r : Rebuild) {s : State} (ok : s.regionsOk) : (nextSlice r s).regionsOk := by
  unfold nextSlice
  split
  · exact ok
  · exact copySlice_regionsOk ok
  · exact finishSlice_regionsOk r ok

theorem purge_regionsOk {s : State} (ok : s.regionsOk) : (purge s).regionsOk := by
  have taken := regionsOk_of_editions (takePurge_editions s) ok
  unfold purge
  dsimp only
  generalize takePurge s = u at taken ⊢
  split
  · exact taken
  · have purged := regionsOk_of_offImage (purgePages_offImage u.clock.serviceDay u.change.pages u) taken
    have settled (ps : List Nat) := imageSettled_regionsOk
      (regionsOk_of_offImage ((bringUpAll_offImage false ps _).trans (raiseG_offImage _)) purged)
    split
    · exact purged
    · have settled := settled (purgePages u.clock.serviceDay u.change.pages u).2
      exact regionsOk_of_editions (want_editions _ _) settled

theorem applyChanges_regionsOk {s t : State} {x : Strip} (run : execApplyChanges x s = .next t) (ok : s.regionsOk) :
    t.regionsOk := by
  unfold execApplyChanges at run
  refine scheduled_regionsOk run ok (ite_holds _ ?_ ok)
  have taken := regionsOk_of_offImage (resumeRebuild_offImage _) (takeUp_regionsOk x .change ok)
  dsimp only
  split
  · exact completeRequest_regionsOk _ _ taken
  · exact taken

theorem changeItem_regionsOk {s t : State} (run : execChangeItem s = .next t) (ok : s.regionsOk) : t.regionsOk := by
  unfold execChangeItem at run
  refine scheduled_regionsOk run ok ?_
  split
  · next b _ =>
    refine ite_holds _ ?_ ok
    have done : (itemDone (applyNext b s).2 (applyNext b s).1).regionsOk :=
      regionsOk_of_offImage ((itemDone_offImage _ _).trans (applyNext_offImage b s)) ok
    dsimp only
    generalize itemDone (applyNext b s).2 (applyNext b s).1 = u at done ⊢
    split
    · exact ite_holds _ (endBatch_regionsOk _ done) done
    · exact done
  · exact ok

theorem batchEnd_regionsOk {s t : State} (run : execBatchEnd s = .next t) (ok : s.regionsOk) : t.regionsOk := by
  unfold execBatchEnd at run
  refine scheduled_regionsOk run ok ?_
  split
  · next b _ =>
    have brought (u : Bool) : (bringUpAll u b.changed (raiseG s)).regionsOk :=
      regionsOk_of_offImage ((bringUpAll_offImage u _ _).trans (raiseG_offImage s)) ok
    have settled (u : Bool) : (imageSettled (bringUpAll u b.changed (raiseG s))).regionsOk :=
      imageSettled_regionsOk (brought u)
    refine ite_holds _ (endBatch_regionsOk _ (ite_holds _ ?_ (settled _))) ok
    exact regionsOk_of_fixed (insertUrgent_fixed _ _) (settled _)
  · exact ok

theorem formatImage_regionsOk {s t : State} {x : Strip} (run : execFormatImage x s = .next t) (ok : s.regionsOk) :
    t.regionsOk := by
  unfold execFormatImage at run
  refine scheduled_regionsOk run ok (ite_holds _ ?_ ok)
  have taken := takeUp_regionsOk x .change ok
  dsimp only
  split
  · exact completeRequest_regionsOk _ _ taken
  · exact taken

theorem formatSwitch_regionsOk {s t : State} (run : execFormatSwitch s = .next t) (ok : s.regionsOk) : t.regionsOk := by
  unfold execFormatSwitch at run
  refine scheduled_regionsOk run ok ?_
  split
  · next f _ =>
    have switched : (switchTo f s).regionsOk := ok
    exact ite_holds _ (completeAfterSummary_regionsOk _ _ (switchEffects_regionsOk switched)) ok
  · exact ok

theorem rebuildImage_regionsOk {s t : State} {x : Strip} (run : execRebuildImage x s = .next t) (ok : s.regionsOk) :
    t.regionsOk := by
  unfold execRebuildImage at run
  refine scheduled_regionsOk run ok (ite_holds _ ?_ ok)
  have taken := takeUp_regionsOk x .change ok
  dsimp only
  split
  · exact completeRequest_regionsOk _ _ taken
  · exact taken

theorem rebuildSlice_regionsOk {s t : State} (run : execRebuildSlice s = .next t) (ok : s.regionsOk) : t.regionsOk := by
  unfold execRebuildSlice at run
  refine scheduled_regionsOk run ok ?_
  split
  · exact ite_holds _ (nextSlice_regionsOk _ ok) ok
  · exact ok

/-! ### The edition manager -/

theorem withdrawPending_regionsOk {s : State} (ok : s.regionsOk) : (withdrawPending s).regionsOk := by
  unfold withdrawPending
  dsimp only
  refine regionsOk_of_fixed ((editionsChanged_fixed _).trans ((endGroups_fixed _ _).trans (abandonWhere_fixed _ _))) ?_
  exact ok

theorem startLoad_regionsOk (t : Strip) (list n : Nat) (number : BitVec 16) (effective : Word) (s : State) :
    (startLoad t list n number effective s).regionsOk := Region.ne_other _

theorem editionsChanged_regionsOk {s : State} (ok : s.regionsOk) : (editionsChanged s).regionsOk :=
  regionsOk_of_fixed (editionsChanged_fixed s) ok

theorem endLoad_regionsOk (l : Load) {s : State} (ok : s.regionsOk) : (endLoad l s).regionsOk := by
  unfold endLoad
  dsimp only
  refine completeAfterSummary_regionsOk _ _ (editionTests_regionsOk (editionsChanged_regionsOk ?_))
  exact ok

theorem failLoad_regionsOk (l : Load) {s : State} (ok : s.regionsOk) : (failLoad l s).regionsOk := by
  unfold failLoad
  refine completeAfterSummary_regionsOk _ _ (editionTests_regionsOk ?_)
  exact ok

theorem storeProduct_regionsOk (l : Load) (p : Product) {s : State} (ok : s.regionsOk) :
    (storeProduct l p s).regionsOk := by
  have stored : (writeProduct l p s).regionsOk := regionsOk_of_offImage (mem_offImage s _) ok
  have closed (c : Prop) [Decidable c] :
      (if c then closePage (l.next / 15) (l.next % 15 + 1) (writeProduct l p s) else writeProduct l p s).regionsOk :=
    ite_holds _ (regionsOk_of_slots rfl rfl stored) stored
  unfold storeProduct
  dsimp only
  exact ite_holds _ (endLoad_regionsOk _ (closed _)) (closed _)

theorem loadEdition_regionsOk {s t : State} {x : Strip} (run : execLoadEdition x s = .next t) (ok : s.regionsOk) :
    t.regionsOk := by
  unfold execLoadEdition at run
  refine scheduled_regionsOk run ok (ite_holds _ ?_ ok)
  have taken := takeUp_regionsOk x .edition ok
  have withdrawn (c : Prop) [Decidable c] :
      (if c then withdrawPending (takeUp x .edition s) else takeUp x .edition s).regionsOk :=
    ite_holds _ (withdrawPending_regionsOk taken) taken
  dsimp only
  split
  · exact ite_holds _ (completeAfterSummary_regionsOk _ _ (withdrawn _)) (completeRequest_regionsOk _ _ (withdrawn _))
  · exact startLoad_regionsOk _ _ _ _ _ _

theorem productRecord_regionsOk {s t : State} (run : execProductRecord s = .next t) (ok : s.regionsOk) :
    t.regionsOk := by
  unfold execProductRecord at run
  refine scheduled_regionsOk run ok ?_
  split
  · exact ite_holds _ (ite_holds _ (failLoad_regionsOk _ ok) (storeProduct_regionsOk _ _ ok)) ok
  · exact ok

theorem rescheduleEdition_regionsOk {s t : State} {x : Strip} (run : execRescheduleEdition x s = .next t)
    (ok : s.regionsOk) : t.regionsOk := by
  unfold execRescheduleEdition at run
  refine scheduled_regionsOk run ok (ite_holds _ ?_ ok)
  have taken := takeUp_regionsOk x .edition ok
  refine ite_holds _ (completeAfterSummary_regionsOk _ _ (editionTests_regionsOk ?_)) (completeRequest_regionsOk _ _ taken)
  exact taken

theorem withdrawEdition_regionsOk {s t : State} {x : Strip} (run : execWithdrawEdition x s = .next t)
    (ok : s.regionsOk) : t.regionsOk := by
  unfold execWithdrawEdition at run
  refine scheduled_regionsOk run ok (ite_holds _ ?_ ok)
  have taken := takeUp_regionsOk x .edition ok
  exact ite_holds _ (completeAfterSummary_regionsOk _ _ (withdrawPending_regionsOk taken))
    (completeRequest_regionsOk _ _ taken)

theorem clockNotice_regionsOk {s : State} (ok : s.regionsOk) : (clockNotice s).regionsOk := by
  unfold clockNotice
  exact ite_holds _ (regionsOk_of_fixed (raiseAfter_fixed _ _ _) ok) (ite_holds _ ok ok)

theorem queuePurge_regionsOk {s : State} (ok : s.regionsOk) : (queuePurge s).regionsOk :=
  regionsOk_of_offImage (queuePurge_offImage s) ok

theorem serviceDayEffects_regionsOk (old : Option Nat) {s : State} (ok : s.regionsOk) :
    (serviceDayEffects old s).regionsOk := by
  unfold serviceDayEffects
  dsimp only
  split
  · exact clockNotice_regionsOk (queuePurge_regionsOk ok)
  · exact ite_holds _ (clockNotice_regionsOk (queuePurge_regionsOk ok)) (ite_holds _ (clockNotice_regionsOk ok) ok)

theorem setClock_regionsOk {s t : State} {x : Strip} (run : execSetClock x s = .next t) (ok : s.regionsOk) :
    t.regionsOk := by
  unfold execSetClock at run
  refine scheduled_regionsOk run ok (ite_holds _ ?_ ok)
  have taken := takeUp_regionsOk x .edition ok
  refine ite_holds _ (completeRequest_regionsOk _ _ taken) ?_
  refine completeAfterSummary_regionsOk _ _ (editionTests_regionsOk ?_)
  exact serviceDayEffects_regionsOk (s := { takeUp x .edition s with clock := _ }) _ taken

theorem tickTests_regionsOk {s : State} (ok : s.regionsOk) : (tickTests s).regionsOk := by
  unfold tickTests
  exact ite_holds _ (editionTests_regionsOk ok) (ite_holds _ ok ok)

theorem tickClock_regionsOk {s : State} (ok : s.regionsOk) : (tickClock s).regionsOk := by
  have served : (serviceDayEffects (some s.clock.serviceDay) { s with clock := s.clock.tick }).regionsOk :=
    serviceDayEffects_regionsOk (s := { s with clock := s.clock.tick }) _ ok
  unfold tickClock
  dsimp only
  generalize serviceDayEffects (some s.clock.serviceDay) { s with clock := s.clock.tick } = u at served ⊢
  have tested := tickTests_regionsOk (ite_holds (P := State.regionsOk) (u.running = true) (u := want summaryRec u) served served)
  exact ite_holds _ tested tested

theorem minuteTick_regionsOk {s t : State} (run : execMinuteTick s = .next t) (ok : s.regionsOk) : t.regionsOk := by
  unfold execMinuteTick at run
  refine scheduled_regionsOk run ok (ite_holds _ (ite_holds _ ?_ (tickClock_regionsOk ok)) ok)
  exact ite_holds _ ok (regionsOk_of_fixed (raise_fixed _ _) ok)

/-! ### The report -/

theorem drainComplete_regionsOk {s t : State} (run : execDrainComplete s = .next t) (ok : s.regionsOk) :
    t.regionsOk := by
  unfold execDrainComplete at run
  refine scheduled_regionsOk run ok ?_
  have halts := halted_regionsOk ok
  dsimp only
  generalize halted s = u at halts ⊢
  exact ite_holds _ (ite_holds _ (resume_regionsOk halts) halts) ok

theorem reportRewrite_regionsOk {s t : State} {r : Fin 29} (run : execReportRewrite r s = .next t)
    (ok : s.regionsOk) : t.regionsOk := by
  unfold execReportRewrite at run
  refine recorded_regionsOk run ok (ite_holds _ ?_ ok)
  have rewritten := rewriteRecord_regionsOk r ok
  dsimp only
  generalize rewriteRecord r s = u at rewritten ⊢
  exact ite_holds _ (regionsOk_of_fixed (boundaries_fixed u) rewritten) rewritten

/-! ### What stands before a failing access -/

theorem atEntry_regionsOk {s : State} (ok : s.regionsOk) : s.atEntry.regionsOk := by
  unfold State.atEntry
  split
  · exact ite_holds _ ok ok
  · exact resumed_regionsOk (s := { s with regs := { s.regs with run := true } }) ok
  · exact ite_holds _ (resumed_regionsOk (halted_regionsOk ok)) ok
  all_goals exact ok

theorem reach_regionsOk (t : Strip) {s : State} (ok : s.regionsOk) : (reach t s).regionsOk := by
  have entry := atEntry_regionsOk ok
  unfold reach
  split
  · exact entry
  · exact ite_holds _ (regionsOk_of_offStrip (visit_offStrip .priority _) entry) entry

theorem writeRecord_regionsOk (r : Fin 29) (stage : Nat) {s : State} (ok : s.regionsOk) :
    (writeRecord r stage s).regionsOk := ok

theorem beforeOutcome_regionsOk (t : Strip) {s : State} (ok : s.regionsOk) : (beforeOutcome t s).regionsOk := by
  unfold beforeOutcome
  have written : (writeRecord summaryRec 3 s).regionsOk := writeRecord_regionsOk summaryRec 3 ok
  generalize writeRecord summaryRec 3 s = u at written ⊢
  exact foldl_holds (P := State.regionsOk) give_regionsOk _ written

theorem requestResult_regionsOk {s u : State} {t : Strip} {r : Result} (due : s.requestResult t = some (u, r))
    (ok : s.regionsOk) : u.regionsOk := by
  unfold State.requestResult at due
  split at due
  · split at due
    · split at due
      · next answer kind =>
        have kept := answer_regionsOk kind ‹Request› ok
        rw [Option.some.inj due] at kept
        exact kept
      · obtain ⟨o, -, same⟩ := Option.map_eq_some_iff.1 due
        cases same
        exact ok
    · cases due
  · cases due

theorem applyNext_regionsOk (b : Batch) {s : State} (ok : s.regionsOk) : (applyNext b s).1.regionsOk :=
  regionsOk_of_offImage (applyNext_offImage b s) ok

theorem heldResult_regionsOk {s u : State} {t : Strip} {r : Result} (due : s.heldResult t = some (u, r))
    (ok : s.regionsOk) : u.regionsOk := by
  unfold State.heldResult at due
  split at due
  · next b _ =>
    split at due
    · have kept : (itemDone (applyNext b s).2 (applyNext b s).1).regionsOk :=
        regionsOk_of_offImage (itemDone_offImage _ _) (applyNext_regionsOk b ok)
      dsimp only at due
      generalize itemDone (applyNext b s).2 (applyNext b s).1 = v at kept due
      obtain ⟨b', -, same⟩ := Option.bind_eq_some_iff.1 due
      split at same
      · cases same
        exact kept
      · cases same
    · exact requestResult_regionsOk due ok
  · exact requestResult_regionsOk due ok

theorem resultDue_regionsOk {s u : State} {t : Strip} {notify : Bool} {r : Result}
    (due : s.resultDue t = some (u, notify, r)) (ok : s.regionsOk) : u.regionsOk := by
  unfold State.resultDue at due
  split at due
  · split at due
    · dsimp only at due
      split at due
      · cases due
      · cases due
        exact deferredTests_regionsOk t (beforeOutcome_regionsOk t ok)
    · obtain ⟨x, held, same⟩ := Option.map_eq_some_iff.1 due
      cases same
      exact heldResult_regionsOk held ok
  · split at due
    · cases due
      exact ok
    · cases due

theorem afterCompletions_regionsOk (t : Strip) : ∀ (done : Nat) {s : State}, s.regionsOk → (afterCompletions t done s).regionsOk
  | 0, _, ok => ok
  | done + 1, s, ok => by
    unfold afterCompletions
    split
    · next due =>
      exact afterCompletions_regionsOk t done
        (regionsOk_of_offStrip (finish_offStrip t _ _ _) (resultDue_regionsOk due ok))
    · exact ok

theorem partialHeaders_regionsOk (urgent : Bool) (changed : List Nat) (done : Nat) {s : State} (ok : s.regionsOk) :
    (partialHeaders urgent changed done s).regionsOk := by
  have brought : (bringUpAll urgent (changed.take done) (raiseG s)).regionsOk :=
    regionsOk_of_offImage ((bringUpAll_offImage urgent _ _).trans (raiseG_offImage s)) ok
  unfold partialHeaders
  dsimp only
  generalize bringUpAll urgent (changed.take done) (raiseG s) = u at brought ⊢
  split
  · unfold stampPage
    dsimp only
    split <;> exact brought
  · exact brought

theorem partialFormat_regionsOk (t : Strip) (done : Nat) {s : State} (ok : s.regionsOk) :
    (partialFormat t done s).regionsOk := by
  have taken := takeUp_regionsOk t .change ok
  unfold partialFormat
  exact ite_holds _ (ite_holds _ taken taken) ok

theorem partialSlice_regionsOk (done : Nat) {s : State} (ok : s.regionsOk) : (partialSlice done s).regionsOk := by
  unfold partialSlice
  split
  · exact ok
  · refine ite_holds _ ok ?_
    split
    · exact regionsOk_of_offImage (clearPages_offImage _ _ _) ok
    · exact regionsOk_of_offImage (copyPages_offImage _ _) ok
    · exact regionsOk_of_offImage (finishPages_offImage _ _ _) ok

theorem beforeError_regionsOk (a : Access) {s : State} (ok : s.regionsOk) : (beforeError a s).regionsOk := by
  have reached (t : Strip) (k : Nat) : (afterCompletions t k (reach t s)).regionsOk :=
    afterCompletions_regionsOk t k (reach_regionsOk t ok)
  have purged (sd k : Nat) : (purgePages sd k (takePurge s)).1.regionsOk :=
    regionsOk_of_offImage (purgePages_offImage sd k _) (regionsOk_of_editions (takePurge_editions s) ok)
  cases a with
  | markRead t done => exact reached t done
  | takenWrite t done => exact reached t done
  | requestRead t done => exact ite_holds _ (reached t done) (reached t done)
  | completionWrite t done stage =>
    simp only [beforeError]
    split
    · next due =>
      have kept := resultDue_regionsOk due (reached t done)
      exact regionsOk_of_offStrip (writeCompletion_offStrip t _ _ _ _) kept
    · exact reached t done
  | mirrorPage =>
    simp only [beforeError]
    split
    · exact ite_holds _ (regionsOk_of_offImage (applyLive_offImage _ s) ok) ok
    · exact ok
  | mirrorHeader =>
    simp only [beforeError]
    split
    · exact ite_holds _ (regionsOk_of_offImage ((mirror_offImage _ _ _).trans (applyLive_offImage _ s)) ok) ok
    · exact ok
  | itemOutcome =>
    simp only [beforeError]
    split
    · exact ite_holds _ (applyNext_regionsOk _ ok) ok
    · exact ok
  | batchHeader done =>
    simp only [beforeError]
    split
    · exact ite_holds _ (partialHeaders_regionsOk _ _ done ok) ok
    · exact ok
  | formatPage t done => exact partialFormat_regionsOk t done ok
  | purgePage done => exact ite_holds _ (purged _ done) ok
  | purgeHeader done =>
    exact ite_holds _ (ite_holds _ (purged _ _) (partialHeaders_regionsOk _ _ done (purged _ _))) ok
  | rebuildPage done => exact partialSlice_regionsOk done ok
  | editionClose =>
    simp only [beforeError]
    split
    · exact ite_holds _ (regionsOk_of_offImage (mem_offImage s _) ok) ok
    · exact ok
  | reportWrite r stage =>
    have flushed := flushRecords_regionsOk ok
    simp only [beforeError]
    generalize flushRecords s = u at flushed ⊢
    exact ite_holds _ (writeRecord_regionsOk r _ ok) (ite_holds _ flushed ok)
  | descriptorRead | itemRead | itemPage | productRead | editionPage | framePage => exact ok

theorem memoryError_regionsOk {s t : State} {a : Access} (run : execMemoryError a s = .next t) (ok : s.regionsOk) :
    t.regionsOk := by
  unfold execMemoryError at run
  exact recorded_regionsOk run ok (ite_holds _ (beforeError_regionsOk a ok) ok)

/-- No command makes the two edition slots name one region. -/
theorem exec_regionsOk {c : Instr} {s t : State} (run : exec c s = .next t) (ok : s.regionsOk) : t.regionsOk := by
  cases line : lineCmd c with
  | true =>
    obtain ⟨u, run', fixed⟩ := exec_fixed line s
    rw [run] at run'
    cases run'
    exact regionsOk_of_fixed fixed ok
  | false =>
    unfold exec at run
    cases c with
    | powerOn => cases run; exact reset_regionsOk
    | resetPinLow => cases run; exact ok
    | run v => exact controlWrite_regionsOk run ok
    | restart v => exact controlWrite_regionsOk run ok
    | registerWrite o v st => exact registerPort_regionsOk run ok
    | kick v => exact kick_regionsOk run ok
    | eventsClear v => cases run; exact ite_holds _ ok ok
    | evmaskWrite v => cases run; exact ite_holds _ ok ok
    | descriptorRead => exact recorded_regionsOk run ok (ite_holds _ (ite_holds _ ok ok) ok)
    | startingEnd => exact scheduled_regionsOk run ok (ite_holds _ (visitBoth_regionsOk (s := entered s) ok) ok)
    | drainComplete => exact drainComplete_regionsOk run ok
    | memoryError a => exact memoryError_regionsOk run ok
    | scanIntervalExpiry => exact scheduled_regionsOk run ok (ite_holds _ (visitBoth_regionsOk ok) ok)
    | applyChanges x => exact applyChanges_regionsOk run ok
    | changeItem => exact changeItem_regionsOk run ok
    | batchEnd => exact batchEnd_regionsOk run ok
    | formatImage x => exact formatImage_regionsOk run ok
    | formatSwitch => exact formatSwitch_regionsOk run ok
    | rebuildImage x => exact rebuildImage_regionsOk run ok
    | rebuildSlice => exact rebuildSlice_regionsOk run ok
    | purgeJob => exact scheduled_regionsOk run ok (ite_holds _ (purge_regionsOk ok) ok)
    | loadEdition x => exact loadEdition_regionsOk run ok
    | productRecord => exact productRecord_regionsOk run ok
    | rescheduleEdition x => exact rescheduleEdition_regionsOk run ok
    | withdrawEdition x => exact withdrawEdition_regionsOk run ok
    | setClock x => exact setClock_regionsOk run ok
    | minuteTick => exact minuteTick_regionsOk run ok
    | pinSlot x => exact scheduled_atOnce_regionsOk (k := Kind.pinSlot) run rfl ok
    | freeSlot x => exact scheduled_atOnce_regionsOk (k := Kind.freeSlot) run rfl ok
    | releaseSlot x => exact scheduled_atOnce_regionsOk (k := Kind.releaseSlot) run rfl ok
    | resyncSlot x => exact scheduled_atOnce_regionsOk (k := Kind.resyncSlot) run rfl ok
    | clearCounters x => exact scheduled_atOnce_regionsOk (k := Kind.clearCounters) run rfl ok
    | setLine x => exact scheduled_atOnce_regionsOk (k := Kind.setLine) run rfl ok
    | setProfile x => exact scheduled_atOnce_regionsOk (k := Kind.setProfile) run rfl ok
    | reportRewrite r => exact reportRewrite_regionsOk run ok
    | _ => cases line

/-! ### XBASE -/

def State.xbaseAligned (s : State) : Prop := s.regs.xbase &&& 0xFFF = 0

theorem aligned_of_xbase {s u : State} (same : u.regs.xbase = s.regs.xbase) (aligned : s.xbaseAligned) :
    u.xbaseAligned := by rwa [State.xbaseAligned, same]

theorem aligned_of_spine {s u : State} (same : u.spine = s.spine) (aligned : s.xbaseAligned) : u.xbaseAligned := by
  obtain ⟨-, -, -, -, xbase, -⟩ := of_spine same
  exact aligned_of_xbase xbase aligned

theorem aligned_settled {u t : State} (settled : Settled u t) (aligned : u.xbaseAligned) : t.xbaseAligned :=
  aligned_of_xbase settled.xbase aligned

theorem scheduled_aligned {f : State → State} {s t : State} (run : scheduled s f = .next t) (aligned : s.xbaseAligned)
    (keeps : (f s).xbaseAligned) : t.xbaseAligned :=
  scheduled_holds (P := State.xbaseAligned) aligned_settled run aligned keeps

theorem recorded_aligned {f : State → State} {s t : State} (run : recorded s f = .next t) (aligned : s.xbaseAligned)
    (keeps : (f s).xbaseAligned) : t.xbaseAligned :=
  recorded_holds (P := State.xbaseAligned) aligned_settled run aligned keeps

theorem writeXbase_aligned (v : Word) (s : State) : (writeXbase v s).xbaseAligned := by
  show v &&& 0xFFFFF000 &&& 0xFFF = 0
  rw [BitVec.and_assoc]
  exact BitVec.and_zero

theorem resume_aligned {s : State} (aligned : s.xbaseAligned) : (resume s).xbaseAligned :=
  aligned_of_xbase (congrArg Spine.xbase (resume_spine s)) aligned

theorem takeRun_aligned (run : Bool) {s : State} (aligned : s.xbaseAligned) : (takeRun run s).xbaseAligned := by
  unfold takeRun
  dsimp only
  split
  · exact ite_holds _ aligned aligned
  · exact ite_holds _ aligned aligned
  · exact ite_holds _ aligned aligned
  · exact aligned
  · exact ite_holds _ (resume_aligned (s := { s with regs := { s.regs with run := run } }) aligned) aligned
  · exact aligned

theorem controlWrite_aligned {s t : State} {v : Word} (run : controlWrite v s = .next t) (aligned : s.xbaseAligned) :
    t.xbaseAligned := by
  unfold controlWrite at run
  split at run
  · cases run
    exact aligned
  · split at run
    · cases run
      exact aligned
    · split at run
      · cases run
        exact aligned
      · exact scheduled_aligned run aligned (takeRun_aligned _ aligned)

theorem registerPort_aligned {s t : State} {o v : Word} (run : registerPort o v s = .next t) (aligned : s.xbaseAligned) :
    t.xbaseAligned := by
  have next {u : State} (h : (Host.Outcome.next u : Out) = .next t) (w : u.xbaseAligned) : t.xbaseAligned := by
    cases h
    exact w
  unfold registerPort at run
  split at run
  · exact controlWrite_aligned run aligned
  · split at run
    · obtain ⟨u, run', spine⟩ := execKick_spine v s
      rw [run] at run'
      cases run'
      exact aligned_of_spine spine aligned
    · split at run
      · exact next run (ite_holds _ aligned aligned)
      · split at run
        · exact next run (ite_holds _ aligned aligned)
        · exact next run (ite_holds _ aligned (ite_holds _ (writeXbase_aligned v s) aligned))

theorem drainComplete_aligned {s t : State} (run : execDrainComplete s = .next t) (aligned : s.xbaseAligned) :
    t.xbaseAligned := by
  unfold execDrainComplete at run
  refine scheduled_aligned run aligned ?_
  have spine := halted_spine s
  have halts : (halted s).xbaseAligned := by
    generalize halted s = u at spine ⊢
    exact aligned_of_xbase (congrArg Spine.xbase spine) aligned
  clear spine
  dsimp only
  generalize halted s = u at halts ⊢
  exact ite_holds _ (ite_holds _ (resume_aligned halts) halts) aligned

/-- No command leaves a bit set in the lowest 12 bits of XBASE. -/
theorem exec_aligned {c : Instr} {s t : State} (run : exec c s = .next t) (aligned : s.xbaseAligned) :
    t.xbaseAligned := by
  cases plain : plainCmd c with
  | true =>
    obtain ⟨u, run', spine⟩ := exec_spine plain s
    rw [run] at run'
    cases run'
    exact aligned_of_spine spine aligned
  | false =>
    unfold exec at run
    cases c with
    | powerOn => cases run; exact (by decide : (0 : Word) &&& 0xFFF = 0)
    | resetPinLow => cases run; exact aligned
    | run v => exact controlWrite_aligned run aligned
    | restart v => exact controlWrite_aligned run aligned
    | registerWrite o v st => exact registerPort_aligned run aligned
    | eventsClear v => cases run; exact ite_holds _ aligned aligned
    | evmaskWrite v => cases run; exact ite_holds _ aligned aligned
    | descriptorRead => exact recorded_aligned run aligned (ite_holds _ (ite_holds _ aligned aligned) aligned)
    | startingEnd =>
      refine scheduled_aligned run aligned (ite_holds _ ?_ aligned)
      exact aligned_of_xbase (congrArg Spine.xbase (visitBoth_spine (entered s))) aligned
    | drainComplete => exact drainComplete_aligned run aligned
    | memoryError a =>
      obtain ⟨xbase, -⟩ := beforeError_registers a s
      exact recorded_aligned run aligned (ite_holds _ (aligned_of_xbase xbase aligned) aligned)
    | _ => cases plain

/-! ### A step -/

/-- A step runs the command at the front of the queue; with none queued the part passes time or queues one command. -/
theorem step_cases {s t : State} (run : step s = .next t) :
    (t.mem = s.mem ∧ t.regs = s.regs ∧ t.editions = s.editions) ∨
    ∃ c rest, exec c { s with pending := rest } = .next t := by
  unfold step at run
  split at run
  · cases run
    unfold idle
    split
    · exact .inl ⟨rfl, rfl, rfl⟩
    · split <;> exact .inl ⟨rfl, rfl, rfl⟩
  · exact .inr ⟨_, _, run⟩

/-- Settles O59: command by command, each of the two in its own walk through the commands. -/
theorem memoryAndRegionsKept : Obligations.MemoryAndRegionsKept := by
  intro s t run
  obtain ⟨mem, regs, editions⟩ | ⟨c, rest, run⟩ := step_cases run
  · refine ⟨fun ok => ?_, regionsOk_of_editions editions⟩
    rwa [State.memoryOk, mem, regs]
  · refine ⟨fun ok => ?_, fun ok => exec_regionsOk run ok⟩
    obtain ⟨wf, aligned⟩ := ok
    exact ⟨exec_wf run wf, exec_aligned run aligned⟩

end Sys2Proof.Machine

/-!
The roster slot by slot: what a fold over the slots leaves in each.
-/
namespace Sys2Proof.Machine

/-- A fold over slots whose step changes only its own slot, by what the fold keeps, leaves in each slot named the step's
change of it. -/
theorem forSlots_slot_of {γ : Type} (view : State → γ) (g : γ → Fin 24 → Slot → Slot) {f : Fin 24 → State → State}
    (keeps : ∀ n s, view (f n s) = view s)
    (own : ∀ n s k, (f n s).slot k = if n = k then g (view s) n (s.slot n) else s.slot k) :
    ∀ (ns : List (Fin 24)) (_ : ns.Nodup) (s : State) (k : Fin 24),
      (forSlots f ns s).slot k = if k ∈ ns then g (view s) k (s.slot k) else s.slot k
  | [], _, _, _ => rfl
  | n :: ns, nodup, s, k => by
    obtain ⟨fresh, rest⟩ := List.nodup_cons.1 nodup
    have step : forSlots f (n :: ns) s = forSlots f ns (f n s) := rfl
    rw [step, forSlots_slot_of view g keeps own ns rest, keeps, own]
    by_cases here : n = k
    · subst here
      simp [fresh]
    · simp [here, Ne.symm here]

theorem forSlots_slot {γ : Type} (view : State → γ) (g : γ → Fin 24 → Slot → Slot) {f : Fin 24 → State → State}
    (keeps : ∀ n s, view (f n s) = view s)
    (own : ∀ n s k, (f n s).slot k = if n = k then g (view s) n (s.slot n) else s.slot k) (s : State) (k : Fin 24) :
    (forSlots f allSlots s).slot k = g (view s) k (s.slot k) := by
  rw [forSlots_slot_of view g keeps own allSlots (List.nodup_finRange 24), if_pos (show k ∈ allSlots from List.mem_finRange k)]

/-- R36: the H that a slot records after a format or a rebuild. -/
def Slot.lowered (identity : Word) (v : Slot) : Slot :=
  if v.heldId = identity ∧ 1 < v.heldH then { v with heldH := 0 } else v

theorem lowerH_slot (s : State) (k : Fin 24) : (lowerH s).slot k = (s.slot k).lowered s.change.identity := by
  unfold lowerH
  refine forSlots_slot (fun s => s.change.identity) (fun i _ v => v.lowered i) (fun n s => ?_) (fun n s k => ?_) s k
  · dsimp only
    split <;> rfl
  · dsimp only
    split
    · next low =>
      rw [State.modSlot_slot, Slot.lowered, if_pos low]
    · next high =>
      rw [Slot.lowered, if_neg high]
      split
      · next here => rw [here]
      · rfl

theorem slot_of_bare {s u : State} (same : u.bare = s.bare) (k : Fin 24) : u.slot k = s.slot k := by
  have roster : u.roster = s.roster := by
    have roster := congrArg State.roster same
    exact roster
  rw [State.slot, roster, State.slot]

@[simp] theorem abandon_slot (s : State) (n k : Fin 24) : (abandon n s).slot k = s.slot k := slot_of_bare (abandon_bare s n) k

@[simp] theorem endDelivery_slot (s : State) (n k : Fin 24) : (endDelivery n s).slot k = s.slot k :=
  slot_of_bare (endDelivery_bare s n) k

@[simp] theorem dropDelivery_slot (s : State) (n k : Fin 24) : (dropDelivery n s).slot k = s.slot k :=
  slot_of_bare (dropDelivery_bare s n) k

@[simp] theorem leaveGroup_slot (s : State) (n k : Fin 24) : (leaveGroup n s).slot k = s.slot k :=
  slot_of_bare (leaveGroup_bare s n) k

@[simp] theorem memberOpened_slot (s : State) (n k : Fin 24) : (memberOpened n s).slot k = s.slot k :=
  slot_of_bare (memberOpened_bare s n) k

@[simp] theorem withdraw_slot (s : State) (n : Fin 24) (p : Work → Bool) (d : Bool) (k : Fin 24) :
    (withdraw n p d s).slot k = s.slot k := rfl

@[simp] theorem dropSweep_slot (s : State) (n k : Fin 24) : (dropSweep n s).slot k = s.slot k := rfl

/-! ### PIN SLOT -/

/-- The pin keeps the data of a slot with the same binding whose expected serial is the one it holds (R85). -/
def Slot.pinKeeps (old : Slot) (b : Fin 4 × Nat) (expected : BitVec 64) : Bool :=
  decide (old.binding = some b) &&
    decide ((if expected ≠ 0 then expected else if decide (old.binding = some b) = true then old.serial else 0) = old.serial)

/-- The slot that PIN SLOT makes of `old` (R85). -/
def Slot.pinned (old : Slot) (b : Fin 4 × Nat) (expected : BitVec 64) (frozen : Bool) : Slot :=
  { (if old.pinKeeps b expected then old else { Slot.cold with counters := old.counters } : Slot) with
    state := .silent, binding := some b, mode := .pinned, frozen := frozen
    serial := if expected ≠ 0 then expected else if decide (old.binding = some b) = true then old.serial else 0
    serialSeen := 0, reason := .none, replaced := false, duplicate := false, window := none
    reach := .primary, misses := 0, failures := 0, garbleRun := 0, backoff := none
    keepalive := some 0, kept := none, identify := none, counters := old.counters }

theorem pin_eq (n : Fin 24) (b : Fin 4 × Nat) (expected : BitVec 64) (frozen : Bool) (s : State) :
    pin n b expected frozen s =
      if (s.slot n).pinKeeps b expected then
        (abandon n (withdraw n (fun _ => true) true s)).setSlot n ((s.slot n).pinned b expected frozen)
      else dropSweep n (((abandon n (withdraw n (fun _ => true) true s)).setSlot n
        ((s.slot n).pinned b expected frozen)).modMarks n fun _ => ⟨false, false, false⟩) := rfl

theorem pin_slot (n : Fin 24) (b : Fin 4 × Nat) (expected : BitVec 64) (frozen : Bool) (s : State) (k : Fin 24) :
    (pin n b expected frozen s).slot k = if n = k then (s.slot n).pinned b expected frozen else s.slot k := by
  rw [pin_eq]
  split <;> simp

/-! ### FREE, RELEASE and RESYNC SLOT -/

/-- The state in which no blocklist delivery to slot `n` is left. -/
def leaveBlocklist (n : Fin 24) (s : State) : State :=
  match s.delivery n with
  | some d => if d.mode.isBlocklist then abandon n s else s
  | none => s

theorem leaveBlocklist_bare (n : Fin 24) (s : State) : (leaveBlocklist n s).bare = s.bare := by
  unfold leaveBlocklist
  split
  · split <;> simp
  · rfl

/-- The slot that RESYNC SLOT makes of `v` (R87). -/
def Slot.resynced (v : Slot) : Slot :=
  { v with reload := true, heldH := 0, repair := false, state := if v.state = .current then .behind else v.state }

/-- RESYNC SLOT before it lowers a CURRENT slot. -/
def resyncStart (n : Fin 24) (s : State) : State :=
  dropSweep n ((forceReload n (leaveBlocklist n s)).modSlot n fun v => { v with repair := false })

theorem resyncStart_slot (n : Fin 24) (s : State) (k : Fin 24) :
    (resyncStart n s).slot k = if n = k then { s.slot n with reload := true, heldH := 0, repair := false } else s.slot k := by
  simp only [resyncStart, dropSweep_slot, forceReload, State.modSlot_slot, slot_of_bare (leaveBlocklist_bare n s), if_true]
  split <;> rfl

theorem resync_eq (n : Fin 24) (s : State) :
    resync n s = if (s.slot n).state = .current then (resyncStart n s).modSlot n fun v => { v with state := .behind }
      else resyncStart n s := by
  have state : ((resyncStart n s).slot n).state = (s.slot n).state := by rw [resyncStart_slot, if_pos rfl]
  change (match ((resyncStart n s).slot n).state with
    | .current => (resyncStart n s).modSlot n fun v => { v with state := .behind }
    | _ => resyncStart n s) = _
  rw [state]
  split
  · next current => rw [if_pos current]
  · next other => rw [if_neg other]

theorem resync_slot (n : Fin 24) (s : State) (k : Fin 24) :
    (resync n s).slot k = if n = k then (s.slot n).resynced else s.slot k := by
  rw [resync_eq]
  by_cases here : n = k
  · subst here
    split
    · next current => simp [resyncStart_slot, Slot.resynced, current]
    · next other => simp [resyncStart_slot, Slot.resynced, other]
  · split <;> simp [resyncStart_slot, here]

theorem free_slot (n : Fin 24) (s : State) (k : Fin 24) : (free n s).slot k = if n = k then .cold else s.slot k := by
  have flag (u : State) : ({ u with roster := { u.roster with full := false } } : State).slot k = u.slot k := rfl
  unfold free
  refine (flag _).trans ?_
  simp

end Sys2Proof.Machine

/-!
What each slot holds of the blocklist, the identity and H last recorded: almost every operation leaves it alone.
-/
namespace Sys2Proof.Machine

/-- The identity and the H that each slot records. -/
def State.held (s : State) : Vector (Word × Word) 24 := s.roster.slots.map fun v => (v.heldId, v.heldH)

@[simp] theorem modSlot_held (s : State) (n : Fin 24) (f : Slot → Slot)
    (keeps : ∀ v, (f v).heldId = v.heldId ∧ (f v).heldH = v.heldH) : (s.modSlot n f).held = s.held := by
  apply Vector.ext
  intro i hi
  simp only [State.held, State.modSlot, State.setSlot, Vector.getElem_map, Vector.getElem_set]
  split
  · next e =>
    subst e
    exact Prod.ext (keeps _).1 (keeps _).2
  · rfl

theorem held_of_bare {s u : State} (same : s.bare = u.bare) : s.held = u.held := by
  have slots : s.roster.slots = u.roster.slots := by
    have roster := congrArg State.roster same
    exact congrArg Roster.slots roster
  rw [State.held, slots, State.held]

@[simp] theorem refreshIncapable_held (s : State) (n : Fin 24) : (refreshIncapable n s).held = s.held := by
  unfold refreshIncapable
  refine modSlot_held _ _ _ fun v => ?_
  split <;> exact ⟨rfl, rfl⟩

@[simp] theorem modLineRoster_held (s : State) (l : Fin 4) (f : LineRoster → LineRoster) :
    (s.modLineRoster l f).held = s.held := rfl

@[simp] theorem modPort_held (s : State) (l : Fin 4) (f : Port → Port) : (s.modPort l f).held = s.held := rfl

@[simp] theorem modArbiter_held (s : State) (l : Fin 4) (f : Arbiter → Arbiter) :
    (s.modArbiter l f).held = s.held := rfl

@[simp] theorem setDelivery_held (s : State) (n : Fin 24) (d : Option Delivery) :
    (s.setDelivery n d).held = s.held := rfl

@[simp] theorem modDelivery_held (s : State) (n : Fin 24) (f : Delivery → Delivery) :
    (s.modDelivery n f).held = s.held := rfl

@[simp] theorem modMarks_held (s : State) (n : Fin 24) (f : Marks → Marks) : (s.modMarks n f).held = s.held := rfl

@[simp] theorem setGroups_held (s : State) (gs : List Group) : (s.setGroups gs).held = s.held := rfl

@[simp] theorem modGroup_held (s : State) (i : Nat) (f : Group → Group) : (s.modGroup i f).held = s.held := rfl

@[simp] theorem setSweep_held (s : State) (n : Fin 24) (v : Sweep) : (s.setSweep n v).held = s.held := rfl

@[simp] theorem want_held (s : State) (r : Fin 29) : (want r s).held = s.held := rfl

@[simp] theorem awaitRecords_held (s : State) (rs : List (Fin 29)) (a : WaitAct) :
    (awaitRecords rs a s).held = s.held := rfl

@[simp] theorem setNotice_held (s : State) (n : Notice) : (setNotice n s).held = s.held := rfl

@[simp] theorem endTurns_held (s : State) (t : Target) : (endTurns t s).held = s.held := rfl

@[simp] theorem cutShort_held (s : State) (n : Fin 24) : (cutShort n s).held = s.held := rfl

@[simp] theorem dropSweep_held (s : State) (n : Fin 24) : (dropSweep n s).held = s.held := rfl

@[simp] theorem insertUrgent_held (s : State) (ps : List Nat) : (insertUrgent ps s).held = s.held := rfl

@[simp] theorem tendGroups_held (s : State) : (tendGroups s).held = s.held :=
  held_of_bare (tendGroups_bare s)

@[simp] theorem leaveGroup_held (s : State) (n : Fin 24) : (leaveGroup n s).held = s.held :=
  held_of_bare (leaveGroup_bare s n)

@[simp] theorem memberOpened_held (s : State) (n : Fin 24) : (memberOpened n s).held = s.held :=
  held_of_bare (memberOpened_bare s n)

@[simp] theorem unlist_held (s : State) (n : Fin 24) : (unlist n s).held = s.held := rfl

@[simp] theorem dropDelivery_held (s : State) (n : Fin 24) : (dropDelivery n s).held = s.held :=
  held_of_bare (dropDelivery_bare s n)

@[simp] theorem endDelivery_held (s : State) (n : Fin 24) : (endDelivery n s).held = s.held :=
  held_of_bare (endDelivery_bare s n)

@[simp] theorem withdraw_held (s : State) (n : Fin 24) (p : Work → Bool) (d : Bool) :
    (withdraw n p d s).held = s.held := rfl

@[simp] theorem abandon_held (s : State) (n : Fin 24) : (abandon n s).held = s.held :=
  held_of_bare (abandon_bare s n)

@[simp] theorem abandonWhere_held (s : State) (p : Delivery → Bool) : (abandonWhere p s).held = s.held :=
  held_of_bare (abandonWhere_bare s p)

@[simp] theorem endGroups_held (s : State) (c : Cls) : (endGroups c s).held = s.held :=
  held_of_bare (endGroups_bare s c)

@[simp] theorem boundaries_held (s : State) : (boundaries s).held = s.held :=
  held_of_bare (boundaries_bare s)

@[simp] theorem raise_held (s : State) (n : Notice) : (raise n s).held = s.held := by
  unfold raise
  split <;> simp

@[simp] theorem wantAll_held (s : State) (rs : List (Fin 29)) : (wantAll rs s).held = s.held := by
  unfold wantAll
  exact foldl_keeps State.held _ (fun s r => want_held s r) _ _

@[simp] theorem raiseAfter_held (s : State) (n : Notice) (rs : List (Fin 29)) :
    (raiseAfter n rs s).held = s.held := by
  unfold raiseAfter
  split <;> simp

@[simp] theorem raiseForSlot_held (s : State) (n : Notice) (k : Fin 24) :
    (raiseForSlot n k s).held = s.held := by simp [raiseForSlot]

@[simp] theorem refreshServed_held (s : State) (n : Fin 24) :
    (refreshServed n s).held = s.held := by simp [refreshServed]

@[simp] theorem reevaluate_held (s : State) (n : Fin 24) : (reevaluate n s).held = s.held := by
  unfold reevaluate
  split <;> simp

@[simp] theorem reevaluateAll_held (s : State) : (reevaluateAll s).held = s.held := by
  unfold reevaluateAll
  exact forSlots_keeps State.held _ (fun n s => reevaluate_held s n) _ _

@[simp] theorem identified_held (s : State) (n : Fin 24) : (identified n s).held = s.held := by simp [identified]

@[simp] theorem setKeepalive_held (s : State) (n : Fin 24) :
    (setKeepalive n s).held = s.held := by simp [setKeepalive]

@[simp] theorem pollNow_held (s : State) (n : Fin 24) : (pollNow n s).held = s.held := by simp [pollNow]

@[simp] theorem toSilent_held (s : State) (n : Fin 24) : (toSilent n s).held = s.held := by simp [toSilent]

@[simp] theorem quarantine_held (s : State) (n : Fin 24) (r : Reason) : (quarantine n r s).held = s.held := by
  unfold quarantine
  dsimp only
  repeat' split
  all_goals simp

@[simp] theorem toIdentifying_held (s : State) (n : Fin 24) (st : Status) :
    (toIdentifying n st s).held = s.held := by simp [toIdentifying]

@[simp] theorem rosterEvent_held (s : State) (n : Fin 24) : (rosterEvent n s).held = s.held := by simp [rosterEvent]

@[simp] theorem rosterNote_held (s : State) (n : Fin 24) : (rosterNote n s).held = s.held := by simp [rosterNote]

@[simp] theorem backOff_held (s : State) (n : Fin 24) (t : Time) : (backOff n t s).held = s.held := by simp [backOff]

@[simp] theorem count_held (s : State) (n : Fin 24) (f : Counters → Counters) :
    (count n f s).held = s.held := by simp [count]

@[simp] theorem countFailure_held (s : State) (n : Fin 24) : (countFailure n s).held = s.held := by
  unfold countFailure
  dsimp only
  split <;> simp

@[simp] theorem deliveryFailure_held (s : State) (n : Fin 24) :
    (deliveryFailure n s).held = s.held := by simp [deliveryFailure]

@[simp] theorem missed_held (s : State) (n : Fin 24) : (missed n s).held = s.held := by
  unfold missed
  dsimp only
  repeat' split
  all_goals simp

@[simp] theorem releaseQuarantine_held (s : State) (n : Fin 24) :
    (releaseQuarantine n s).held = s.held := by simp [releaseQuarantine]

@[simp] theorem compareReport_held (s : State) (n : Fin 24) (h : HeldReport) :
    (compareReport n h s).held = s.held := by simp [compareReport]

@[simp] theorem compareHeld_held (s : State) : (compareHeld s).held = s.held := by
  unfold compareHeld
  refine forSlots_keeps State.held _ (fun n s => ?_) _ _
  split <;> simp

@[simp] theorem clearRepair_held (s : State) (n : Fin 24) : (clearRepair n s).held = s.held := by simp [clearRepair]

@[simp] theorem setRepair_held (s : State) (n : Fin 24) : (setRepair n s).held = s.held := by simp [setRepair]

@[simp] theorem countMismatch_held (s : State) (n : Fin 24) :
    (countMismatch n s).held = s.held := by simp [countMismatch]

@[simp] theorem compareStatus_held (s : State) (n : Fin 24) (st : Status) : (compareStatus n st s).held = s.held := by
  unfold compareStatus
  simp only [apply_ite State.held]
  simp

@[simp] theorem clearRepairs_held (s : State) : (clearRepairs s).held = s.held := by
  unfold clearRepairs
  exact forSlots_keeps State.held _ (fun n s => clearRepair_held s n) _ _

@[simp] theorem repairMismatch_held (s : State) (n : Fin 24) : (repairMismatch n s).held = s.held := by
  unfold repairMismatch
  simp only [apply_ite State.held]
  simp

@[simp] theorem restartSweep_held (s : State) (n : Fin 24) :
    (restartSweep n s).held = s.held := by simp [restartSweep]

@[simp] theorem judgeCommit_held (s : State) (n : Fin 24) (d : Delivery) (v : Verdict) :
    (judgeCommit n d v s).held = s.held := by
  unfold judgeCommit
  split
  · split <;> simp
  · split
    · simp
    · split <;> simp
    · split <;> simp

@[simp] theorem judgeRefused_held (s : State) (n : Fin 24) (d : Delivery) : (judgeRefused n d s).held = s.held := by
  unfold judgeRefused
  split <;> simp

@[simp] theorem editionsChanged_held (s : State) : (editionsChanged s).held = s.held := by
  unfold editionsChanged
  rw [reevaluateAll_held, forSlots_keeps State.held _ (fun n s => refreshIncapable_held s n)]

@[simp] theorem stageToInstall_held (s : State) : (stageToInstall s).held = s.held := rfl

@[simp] theorem flagUnconfirmed_held (s : State) (e : EditionRef) : (flagUnconfirmed e s).held = s.held := by
  unfold flagUnconfirmed
  refine forSlots_keeps State.held _ (fun n s => ?_) _ _
  dsimp only
  repeat' split
  all_goals simp

@[simp] theorem markTime_held (s : State) : (markTime s).held = s.held := rfl

@[simp] theorem beginVisit_held (s : State) (l : Fin 4) (a : Nat) :
    (beginVisit l a s).held = s.held := by simp [beginVisit]

@[simp] theorem countLine_held (s : State) (l : Fin 4) (d : Side) (f : LineCounters → LineCounters) :
    (countLine l d f s).held = s.held := by simp [countLine]

@[simp] theorem drive_held (s : State) (l : Fin 4) (ex : Exchange) : (drive l ex s).held = s.held := by simp [drive]

@[simp] theorem nextTag_held (s : State) (l : Fin 4) : ((nextTag l s).2).held = s.held := rfl

@[simp] theorem startExchange_held (s : State) (l : Fin 4) (w : Work) (f : RequestFrame) :
    (startExchange l w f s).held = s.held := by
  unfold startExchange
  simp only [drive_held]
  exact nextTag_held s l

@[simp] theorem takeBack_held (s : State) (l : Fin 4) (w : Work) : (takeBack l w s).held = s.held := by
  unfold takeBack
  dsimp only
  repeat' split
  all_goals simp

@[simp] theorem overExchange_held (s : State) (l : Fin 4) (ex : Exchange) : (overExchange l ex s).held = s.held := by
  unfold overExchange
  simp only [apply_ite State.held]
  simp

@[simp] theorem toGap_held (s : State) (l : Fin 4) : (toGap l s).held = s.held := by simp [toGap]

@[simp] theorem toFreshGap_held (s : State) (l : Fin 4) : (toFreshGap l s).held = s.held := by simp [toFreshGap]

@[simp] theorem countPage_held (s : State) (n : Fin 24) (r : PageRead) :
    (countPage n r s).held = s.held := by simp [countPage]

@[simp] theorem countMember_held (s : State) (r : PageRead) (n : Fin 24) : (countMember r n s).held = s.held := by
  unfold countMember
  split <;> simp

@[simp] theorem countGroup_held (s : State) (i : Nat) (ex : Exchange) : (countGroup i ex s).held = s.held := by
  unfold countGroup
  split
  · rfl
  · simp only [modGroup_held]; exact forSlots_keeps State.held _ (fun n s => countMember_held s _ n) _ _

@[simp] theorem countSent_held (s : State) (ex : Exchange) : (countSent ex s).held = s.held := by
  unfold countSent
  split
  · rfl
  · split <;> simp

@[simp] theorem broadcastEnds_held (s : State) (l : Fin 4) : (broadcastEnds l s).held = s.held := by
  unfold broadcastEnds
  dsimp only
  rw [forSlots_keeps State.held _ (fun n s => by split <;> simp)]
  simp

@[simp] theorem broadcastOver_held (s : State) (l : Fin 4) (ex : Exchange) :
    (broadcastOver l ex s).held = s.held := by
  unfold broadcastOver
  split <;> simp

@[simp] theorem noReplyEnds_held (s : State) (l : Fin 4) (ex : Exchange) : (noReplyEnds l ex s).held = s.held := by
  unfold noReplyEnds
  simp only [apply_ite State.held]
  simp

@[simp] theorem nextAttempt_held (s : State) (l : Fin 4) (ex : Exchange) : (nextAttempt l ex s).held = s.held := by
  unfold nextAttempt
  simp only [drive_held]
  exact nextTag_held s l

@[simp] theorem secondCopy_held (s : State) (l : Fin 4) (ex : Exchange) :
    (secondCopy l ex s).held = s.held := by simp [secondCopy]

@[simp] theorem toIdle_held (s : State) (l : Fin 4) : (toIdle l s).held = s.held := by simp [toIdle]

@[simp] theorem endQuietly_held (s : State) (l : Fin 4) (ex : Exchange) :
    (endQuietly l ex s).held = s.held := by simp [endQuietly]

@[simp] theorem afterFirstCopy_held (s : State) (l : Fin 4) (ex : Exchange) :
    (afterFirstCopy l ex s).held = s.held := by
  unfold afterFirstCopy
  split <;> simp

@[simp] theorem garbledAt_held (s : State) (l : Fin 4) (a : Nat) (n : Fin 24) :
    (garbledAt l a n s).held = s.held := by simp [garbledAt]

@[simp] theorem endGarbleRun_held (s : State) (n : Fin 24) :
    (endGarbleRun n s).held = s.held := by simp [endGarbleRun]

@[simp] theorem decideSuspects_held (s : State) (l : Fin 4) (a : Nat) (g : Bool) :
    (decideSuspects l a g s).held = s.held := by
  unfold decideSuspects
  refine forSlots_keeps State.held _ (fun n s => ?_) _ _
  dsimp only
  split <;> simp

@[simp] theorem setGarbles_held (s : State) (l : Fin 4) (a k : Nat) :
    (setGarbles l a k s).held = s.held := by simp [setGarbles]

@[simp] theorem garbledVisit_held (s : State) (l : Fin 4) (a : Nat) : (garbledVisit l a s).held = s.held := by
  unfold garbledVisit
  dsimp only
  split <;> simp

@[simp] theorem missDelivery_held (s : State) (ex : Exchange) (n : Fin 24) : (missDelivery ex n s).held = s.held := by
  unfold missDelivery
  split <;> simp

@[simp] theorem miss_held (s : State) (l : Fin 4) (ex : Exchange) : (miss l ex s).held = s.held := by
  unfold miss
  dsimp only
  repeat' split
  all_goals simp

@[simp] theorem failAttempt_held (s : State) (l : Fin 4) (ex : Exchange) : (failAttempt l ex s).held = s.held := by
  unfold failAttempt
  simp only [apply_ite State.held]
  simp

@[simp] theorem garbledReply_held (s : State) (l : Fin 4) (ex : Exchange) : (garbledReply l ex s).held = s.held := by
  unfold garbledReply onSlot
  simp only [failAttempt_held]
  split
  · simp
  · split <;> simp

@[simp] theorem goodReply_held (s : State) (l : Fin 4) (ex : Exchange) (r : Reply) :
    (goodReply l ex r s).held = s.held := by
  unfold goodReply
  dsimp only
  repeat' split
  all_goals simp

@[simp] theorem staleAt_held (s : State) (l : Fin 4) (bs : List Byte) : (staleAt l bs s).held = s.held := by
  unfold staleAt
  split <;> simp

@[simp] theorem afterStale_held (s : State) (l : Fin 4) (o : From) : (afterStale l o s).held = s.held := by
  unfold afterStale
  split <;> simp

@[simp] theorem receiveFrame_held (s : State) (l : Fin 4) (o : From) (bs : List Byte) (e : FrameEnd) :
    (receiveFrame l o bs e s).held = s.held := by
  unfold receiveFrame
  dsimp only
  repeat' split
  all_goals simp

@[simp] theorem reachPrimary_held (s : State) (l : Fin 4) : (reachPrimary l s).held = s.held := by
  unfold reachPrimary
  refine forSlots_keeps State.held _ (fun n s => ?_) _ _
  split <;> simp

@[simp] theorem changeLoop_held (s : State) (l : Fin 4) (b : Bool) : (changeLoop l b s).held = s.held := by
  unfold changeLoop
  split <;> simp

@[simp] theorem echo_held (s : State) (l : Fin 4) (b : Bool) : (echo l b s).held = s.held := by
  unfold echo
  simp only [apply_ite State.held]
  simp

@[simp] theorem statusMarks_held (s : State) (w : Work) (n : Fin 24) :
    (statusMarks w n s).held = s.held := by simp [statusMarks]

@[simp] theorem keptAside_held (s : State) (n : Fin 24) (st : Status) : (keptAside n st s).held = s.held := by
  unfold keptAside
  split <;> simp

@[simp] theorem takeCapability_held (s : State) (n : Fin 24) (c : Capability) :
    (takeCapability n c s).held = s.held := by simp [takeCapability]

@[simp] theorem rebindFound_held (s : State) (n : Fin 24) (b : Fin 4 × Nat) (c : Capability) (d : Side) :
    (rebindFound n b c d s).held = s.held := by
  unfold rebindFound
  dsimp only
  split <;> simp

@[simp] theorem markDuplicate_held (s : State) (n : Fin 24) : (markDuplicate n s).held = s.held := by
  unfold markDuplicate
  split <;> simp

@[simp] theorem rosterFull_held (s : State) (l : Fin 4) : (rosterFull l s).held = s.held := by
  have h : ({ s with roster := { s.roster with full := true } } : State).held = s.held := rfl
  unfold rosterFull
  dsimp only
  split
  · exact h
  · split <;> simp [h]

@[simp] theorem countRefusal_held (s : State) (l : Fin 4) : (countRefusal l s).held = s.held := by
  unfold countRefusal onSlot
  repeat' split
  all_goals simp

@[simp] theorem repairSent_held (s : State) (n : Fin 24) (p : Nat) :
    (repairSent n p s).held = s.held := by simp [repairSent]

@[simp] theorem takePageAck_held (s : State) (ex : Exchange) (c : List Byte) (n : Fin 24) :
    (takePageAck ex c n s).held = s.held := by
  unfold takePageAck
  split
  · split
    · split <;> simp
    · simp
  · rfl

@[simp] theorem committed_held (s : State) (keep : Bool) (n : Fin 24) :
    (committed keep n s).held = s.held := by simp [committed]

@[simp] theorem commitEdition_held (s : State) (n : Fin 24) (d : Delivery) : (commitEdition n d s).held = s.held := by
  unfold commitEdition
  split <;> simp

@[simp] theorem closeTally_held (s : State) (n : Fin 24) (d : Delivery) : (closeTally n d s).held = s.held := by
  unfold closeTally
  dsimp only
  split <;> simp

@[simp] theorem takeCheckReport_held (s : State) (ex : Exchange) (c : List Byte) (n : Fin 24) :
    (takeCheckReport ex c n s).held = s.held := by
  unfold takeCheckReport
  dsimp only
  repeat' split
  all_goals simp

@[simp] theorem busyWork_held (s : State) (w : Work) (n : Fin 24) : (busyWork w n s).held = s.held := by
  unfold busyWork
  split <;> simp

@[simp] theorem busyDue_held (s : State) (w : Work) (n : Fin 24) : (busyDue w n s).held = s.held := by
  unfold busyDue
  split <;> simp

@[simp] theorem countBusy_held (s : State) (n : Fin 24) : (countBusy n s).held = s.held := by simp [countBusy]

@[simp] theorem takeBusy_held (s : State) (l : Fin 4) : (takeBusy l s).held = s.held := by
  unfold takeBusy
  dsimp only
  repeat' split
  all_goals simp

@[simp] theorem dissolve_held (s : State) (g : Group) : (dissolve g s).held = s.held := by
  unfold dissolve
  simp only [setGroups_held, endTurns_held]
  exact forSlots_keeps State.held _ (fun n s => modDelivery_held s n _) _ _

@[simp] theorem dissolveLine_held (s : State) (l : Fin 4) : (dissolveLine l s).held = s.held := by
  unfold dissolveLine
  exact foldl_keeps State.held _ (fun s g => dissolve_held s g) _ _

@[simp] theorem refreshLine_held (s : State) (l : Fin 4) : (refreshLine l s).held = s.held := by
  unfold refreshLine
  exact forSlots_keeps State.held _ (fun n s => refreshServed_held s n) _ _

@[simp] theorem rateChanged_held (s : State) (r : Fin 7) (l : Fin 4) : (rateChanged r l s).held = s.held := by
  unfold rateChanged
  dsimp only
  split <;> simp

@[simp] theorem startPair_held (s : State) (l : Fin 4) : (startPair l s).held = s.held := by
  have h : ∀ (a b : Fin 4) (u : State), (passArbiter a b u).held = u.held := fun _ _ _ => rfl
  unfold startPair; simp [h]

@[simp] theorem splitOdd_held (s : State) (l : Fin 4) : (splitOdd l s).held = s.held := by simp [splitOdd]

@[simp] theorem leaveOff_held (s : State) (l : Fin 4) : (leaveOff l s).held = s.held := by simp [leaveOff]

@[simp] theorem applyPort_held (s : State) (l : Fin 4) : (applyPort l s).held = s.held := by
  unfold applyPort
  dsimp only
  repeat' split
  all_goals simp

@[simp] theorem applyModes_held (s : State) (l : Fin 4) : (applyModes l s).held = s.held := by
  unfold applyModes
  dsimp only
  split
  · rw [startPair_held, forLines_keeps State.held _ (fun l s => applyPort_held s l)]
  · exact forLines_keeps State.held _ (fun l s => applyPort_held s l) _ _

@[simp] theorem recordLine_held (s : State) (m : Nat) (i : Fin 4) (l : Fin 4) :
    (recordLine m i l s).held = s.held := by simp [recordLine]

@[simp] theorem silencePort_held (s : State) (l : Fin 4) : (silencePort l s).held = s.held := by simp [silencePort]

@[simp] theorem lineOffSlot_held (s : State) (n : Fin 24) : (lineOffSlot n s).held = s.held := by
  unfold lineOffSlot
  split <;> simp

@[simp] theorem dropReception_held (s : State) (l : Fin 4) : (dropReception l s).held = s.held := by
  obtain ⟨o, -, -, -, h⟩ | ⟨-, h⟩ := dropReception_cases l s <;> rw [h]
  exact afterStale_held s _ o

@[simp] theorem goOff_held (s : State) (ns : List (Fin 24)) (l : Fin 4) : (goOff ns l s).held = s.held := by
  have due (u : State) (v : Vector Bool 4) :
      ({ u with editions := { u.editions with timeDue := v } } : State).held = u.held := rfl
  have silent (u : State) : (forSlots lineOffSlot ns u).held = u.held :=
    forSlots_keeps State.held _ (fun n s => lineOffSlot_held s n) _ _
  have turns (gs : List Group) (u : State) : (gs.foldl (fun s g => endTurns (.group g.id) s) u).held = u.held :=
    foldl_keeps State.held _ (fun s g => endTurns_held s _) _ _
  unfold goOff
  dsimp only
  rw [modPort_held, apply_ite State.held, splitOdd_held, ite_self]
  refine (due _ _).trans ?_
  rw [modArbiter_held, setGroups_held, turns, silent, silencePort_held, dropReception_held]

@[simp] theorem takeBackUnstarted_held (s : State) (l : Fin 4) :
    (takeBackUnstarted l s).held = s.held := by simp [takeBackUnstarted]

@[simp] theorem rebindPair_held (s : State) (l : Fin 4) : (rebindPair l s).held = s.held := by
  unfold rebindPair
  rw [reachPrimary_held, modPort_held]
  refine forSlots_keeps State.held _ (fun n s => ?_) _ _
  exact modSlot_held s n _ fun _ => ⟨rfl, rfl⟩

@[simp] theorem acceptLine_held (s : State) (l : Fin 4) (m : Nat) (i : Fin 4) : (acceptLine l m i s).held = s.held := by
  have recorded (ls : List (Fin 4)) (u : State) : (forLines (recordLine m i) ls u).held = u.held :=
    forLines_keeps State.held _ (fun l s => recordLine_held s m i l) _ _
  have rated (f : Fin 4 → Fin 7) (ls : List (Fin 4)) (u : State) :
      (forLines (fun k s => rateChanged (f k) k s) ls u).held = u.held :=
    forLines_keeps State.held _ (fun l s => rateChanged_held s _ l) _ _
  have off (ns : List (Fin 24)) (ls : List (Fin 4)) (u : State) : (forLines (goOff ns) ls u).held = u.held :=
    forLines_keeps State.held _ (fun l s => goOff_held s ns l) _ _
  have back (ls : List (Fin 4)) (u : State) :
      (forLines (fun k s => if s.modeWaits k then takeBackUnstarted k s else s) ls u).held = u.held :=
    forLines_keeps State.held _ (fun l s => by split <;> simp) _ _
  unfold acceptLine
  simp only
  split
  · rw [off, rated]
    split <;> split <;> simp [recorded]
  · rw [apply_ite State.held, applyModes_held, ite_self, back, rated]
    split <;> split <;> simp [recorded]

/-! ### Line commands -/

theorem openFrame_after {s : State} {l : Fin 4} {n : Fin 24} {kind : OpenKind} {f : RequestFrame}
    (frame : s.openFrame l n kind = some f) : ∃ x, f.after = { s with sched := x } := by
  unfold State.openFrame at frame
  split at frame
  · cases frame
  · dsimp only at frame
    split at frame
    · cases frame
    · split at frame
      iterate 2
        · split at frame
          · cases frame
          · obtain ⟨d, -, rfl⟩ := Option.map_eq_some_iff.1 frame
            simp only [State.toSlot]
            split <;> exact ⟨_, rfl⟩
      iterate 2
        · obtain ⟨d, -, rfl⟩ := Option.map_eq_some_iff.1 frame
          exact ⟨_, rfl⟩

/-- The state with another scheduler, other line data of the roster and other due TIMEs. -/
def State.drawn (s : State) (x : Sched) (lines : Vector LineRoster 4) (due : Vector Bool 4) : State :=
  { s with sched := x, roster := { s.roster with lines := lines }, editions := { s.editions with timeDue := due } }

/-- What the start of a frame changes of the state besides the port. -/
theorem requestFrame_after {s : State} {l : Fin 4} {w : Work} {f : RequestFrame} (frame : s.requestFrame l w = some f) :
    ∃ x lines due, f.after = s.drawn x lines due := by
  have same : ∃ x lines due, s = s.drawn x lines due := ⟨s.sched, s.roster.lines, s.editions.timeDue, rfl⟩
  unfold State.requestFrame at frame
  cases w with
  | poll n | confirm n | identify n =>
    dsimp only at frame
    split at frame
    · cases frame
      exact same
    · cases frame
  | discovery =>
    obtain ⟨a, -, rfl⟩ := Option.map_eq_some_iff.1 frame
    exact ⟨_, _, s.editions.timeDue, rfl⟩
  | openTo n kind =>
    dsimp only at frame
    split at frame
    · obtain ⟨x, after⟩ := openFrame_after frame
      exact ⟨x, s.roster.lines, s.editions.timeDue, after⟩
    · cases frame
  | page n =>
    simp only [State.pageFrame, Option.bind_eq_bind] at frame
    split at frame
    · obtain ⟨d, -, frame⟩ := Option.bind_eq_some_iff.1 frame
      split at frame
      · obtain ⟨p, -, frame⟩ := Option.bind_eq_some_iff.1 frame
        obtain ⟨x, -, frame⟩ := Option.bind_eq_some_iff.1 frame
        cases frame
        exact ⟨_, s.roster.lines, s.editions.timeDue, rfl⟩
      · cases frame
    · cases frame
  | close n =>
    simp only [State.closeFrame, Option.bind_eq_bind] at frame
    split at frame
    · obtain ⟨d, -, frame⟩ := Option.bind_eq_some_iff.1 frame
      split at frame
      · cases frame
        exact ⟨_, s.roster.lines, s.editions.timeDue, rfl⟩
      · cases frame
    · cases frame
  | check n =>
    simp only [State.checkFrame, Option.bind_eq_bind] at frame
    split at frame
    · obtain ⟨d, -, frame⟩ := Option.bind_eq_some_iff.1 frame
      split at frame
      · cases frame
        exact same
      · cases frame
    · cases frame
  | activate n =>
    dsimp only at frame
    split at frame
    · cases frame
      exact ⟨_, s.roster.lines, s.editions.timeDue, rfl⟩
    · cases frame
  | discard n =>
    dsimp only at frame
    split at frame
    · obtain ⟨p, -, rfl⟩ := Option.map_eq_some_iff.1 frame
      exact same
    · cases frame
  | groupPage id =>
    simp only [State.groupFrame, Option.bind_eq_bind] at frame
    obtain ⟨g, -, frame⟩ := Option.bind_eq_some_iff.1 frame
    obtain ⟨p, -, frame⟩ := Option.bind_eq_some_iff.1 frame
    obtain ⟨d, -, frame⟩ := Option.bind_eq_some_iff.1 frame
    obtain ⟨x, -, frame⟩ := Option.bind_eq_some_iff.1 frame
    cases frame
    exact ⟨_, s.roster.lines, s.editions.timeDue, rfl⟩
  | activateAll =>
    obtain ⟨p, -, rfl⟩ := Option.map_eq_some_iff.1 frame
    exact same
  | time =>
    cases frame
    exact ⟨s.sched, s.roster.lines, _, rfl⟩

theorem requestFrame_held {s : State} {l : Fin 4} {w : Work} {f : RequestFrame} (frame : s.requestFrame l w = some f) :
    f.after.held = s.held := by
  obtain ⟨x, lines, due, after⟩ := requestFrame_after frame
  rw [after]
  rfl

theorem takeReply_held {l : Fin 4} {code : Byte} {f : Exchange → List Byte → Fin 24 → State → State}
    (keeps : ∀ e b n s, (f e b n s).held = s.held) (s : State) : (takeReply l code f s).held = s.held := by
  unfold takeReply
  split
  · rfl
  · dsimp only
    split
    · simp
    · rw [setKeepalive_held]
      split
      · simp
      · rw [keeps, overExchange_held]

/-! ### The edition manager -/

@[simp] theorem activate_held (s : State) : (activate s).held = s.held := by
  unfold activate
  dsimp only
  rw [raiseAfter_held, editionsChanged_held, flagUnconfirmed_held, stageToInstall_held, endGroups_held, abandonWhere_held]
  rfl

@[simp] theorem editionTests_held (s : State) : (editionTests s).held = s.held := by
  unfold editionTests riskCheck
  split
  · rfl
  · split
    · simp
    · split
      · rw [raiseAfter_held]
        rfl
      · rfl

@[simp] theorem withdrawPending_held (s : State) : (withdrawPending s).held = s.held := by
  unfold withdrawPending
  dsimp only
  rw [editionsChanged_held, endGroups_held, abandonWhere_held]
  rfl

end Sys2Proof.Machine

/-!
G stays at or below its limit, no slot records an H above G for the live identity, and the image digest stays the sum of
the page CRCs (R24, R26, R31).
-/
namespace Sys2Proof.Machine

theorem zero_le_word (x : Word) : 0 ≤ x := by simp [BitVec.le_def]

/-! ### The H that slots record -/

theorem heldOk_of {s u : State} (held : u.held = s.held) (identity : u.change.identity = s.change.identity)
    (gen : u.change.gen = s.change.gen) (ok : s.heldOk) : u.heldOk := by
  intro n
  have row : ((u.slot n).heldId, (u.slot n).heldH) = ((s.slot n).heldId, (s.slot n).heldH) := by
    simpa [State.held, State.slot] using congrArg (·[n]) held
  obtain ⟨heldId, heldH⟩ := Prod.mk.inj row
  rw [heldId, heldH, identity, gen]
  exact ok n

theorem heldOk_of_fixed {s u : State} (fixed : u.fixed = s.fixed) (held : u.held = s.held) (ok : s.heldOk) : u.heldOk := by
  obtain ⟨-, -, -, -, -, change, -⟩ := of_fixed fixed
  exact heldOk_of held (by rw [change]) (by rw [change]) ok

theorem modSlot_heldOk {s : State} {n : Fin 24} {f : Slot → Slot} (ok : s.heldOk)
    (here : (f (s.slot n)).heldId = s.change.identity → (f (s.slot n)).heldH ≤ s.change.gen) : (s.modSlot n f).heldOk := by
  intro k
  rw [State.modSlot_slot, State.modSlot_change]
  split
  · exact here
  · exact ok k

theorem setSlot_heldOk {s : State} {n : Fin 24} {v : Slot} (ok : s.heldOk)
    (here : v.heldId = s.change.identity → v.heldH ≤ s.change.gen) : (s.setSlot n v).heldOk := by
  intro k
  rw [State.setSlot_slot, State.setSlot_change]
  split
  · exact here
  · exact ok k

/-- R23: an H above G is not recorded for the live identity. -/
theorem recordedH_le {s : State} {identity : Word} (live : identity = s.change.identity) (v : Slot) (gen : Word) :
    s.recordedH v identity gen ≤ s.change.gen := by
  unfold State.recordedH
  split
  · exact zero_le_word _
  · split
    · exact zero_le_word _
    · next low => exact BitVec.not_lt.1 fun above => low ⟨live, above⟩

theorem recordStatus_heldOk (n : Fin 24) (st : Status) {s : State} (ok : s.heldOk) : (recordStatus n st s).heldOk :=
  modSlot_heldOk ok fun live => recordedH_le live _ _

theorem forceReload_heldOk (n : Fin 24) {s : State} (ok : s.heldOk) : (forceReload n s).heldOk :=
  modSlot_heldOk ok fun _ => zero_le_word _

theorem recordAccept_heldOk (n : Fin 24) (d : Delivery) (mask : BitVec 64) {s : State} (ok : s.heldOk) :
    (recordAccept n d mask s).heldOk := by
  unfold recordAccept
  split
  · exact modSlot_heldOk ok fun _ => zero_le_word _
  · exact modSlot_heldOk ok (ok n)
  · exact modSlot_heldOk ok (ok n)
  · exact ok
  · exact ok

theorem commitBlocklist_heldOk (n : Fin 24) (d : Delivery) (v : Verdict) {s : State} (ok : s.heldOk) :
    (commitBlocklist n d v s).heldOk := by
  unfold commitBlocklist
  dsimp only
  have reloaded := modSlot_heldOk (n := n) (f := fun v => { v with reload := if d.mode = .reload then false else v.reload })
    ok (ok n)
  generalize s.modSlot n (fun v => { v with reload := if d.mode = .reload then false else v.reload }) = u at reloaded ⊢
  have recorded := modSlot_heldOk (n := n)
    (f := fun v => { v with heldId := d.identity, heldH := u.recordedH v d.identity d.target })
    reloaded fun live => recordedH_le live _ _
  refine heldOk_of_fixed ?_ ?_ recorded <;> simp

theorem cleared_heldOk (n : Fin 24) {s : State} (ok : s.heldOk) :
    (s.modSlot n fun v => { v with heldId := 0, heldH := 0, heldActive := ⟨0, 0⟩, heldPending := none }).heldOk :=
  modSlot_heldOk ok fun _ => zero_le_word _

theorem recordKept_heldOk (n : Fin 24) (serial : BitVec 64) {s : State} (ok : s.heldOk) :
    (recordKept n serial s).heldOk := by
  unfold recordKept
  split
  · split
    · exact recordStatus_heldOk n _ ok
    · exact cleared_heldOk n ok
  · exact cleared_heldOk n ok

theorem takeCapability_heldOk (n : Fin 24) (c : Capability) {s : State} (ok : s.heldOk) : (takeCapability n c s).heldOk :=
  heldOk_of_fixed (takeCapability_fixed s n c) (takeCapability_held s n c) ok

theorem identified_heldOk (n : Fin 24) {s : State} (ok : s.heldOk) : (identified n s).heldOk :=
  heldOk_of_fixed (identified_fixed s n) (identified_held s n) ok

theorem quarantine_heldOk (n : Fin 24) (r : Reason) {s : State} (ok : s.heldOk) : (quarantine n r s).heldOk :=
  heldOk_of_fixed (quarantine_fixed s n r) (quarantine_held s n r) ok

theorem reevaluate_heldOk (n : Fin 24) {s : State} (ok : s.heldOk) : (reevaluate n s).heldOk :=
  heldOk_of_fixed (reevaluate_fixed s n) (reevaluate_held s n) ok

theorem acceptIdent_heldOk (n : Fin 24) (serial : BitVec 64) (c : Capability) {s : State} (ok : s.heldOk) :
    (acceptIdent n serial c s).heldOk := by
  have named : (s.modSlot n fun v => { v with serial := serial }).heldOk := modSlot_heldOk ok (ok n)
  unfold acceptIdent
  dsimp only
  generalize s.modSlot n (fun v => { v with serial := serial }) = u at named ⊢
  have capable (b : Bool) : (if b then u else takeCapability n c u).heldOk := by
    split
    · exact named
    · exact takeCapability_heldOk n c named
  have kept (b : Bool) := recordKept_heldOk n serial (capable b)
  have known (b : Bool) := identified_heldOk n (modSlot_heldOk (n := n)
    (f := fun v => { v with misses := 0, garbleRun := 0 }) (kept b) (kept b n))
  split
  · split
    · exact quarantine_heldOk n .store (known _)
    · split
      · exact reevaluate_heldOk n (heldOk_of_fixed (compareStatus_fixed _ n _) (compareStatus_held _ n _) (known _))
      · exact known _
  · exact known _

theorem replaceValidator_heldOk (n : Fin 24) (serial : BitVec 64) (c : Capability) {s : State} (ok : s.heldOk) :
    (replaceValidator n serial c s).heldOk := by
  have named : (takeCapability n c (s.modSlot n fun v => { v with serial := serial })).heldOk :=
    takeCapability_heldOk n c (modSlot_heldOk ok (ok n))
  unfold replaceValidator
  dsimp only
  generalize takeCapability n c (s.modSlot n fun v => { v with serial := serial }) = u at named ⊢
  have cleared : (clearRepair n u).heldOk := heldOk_of_fixed (clearRepair_fixed u n) (clearRepair_held u n) named
  refine heldOk_of_fixed (raiseForSlot_fixed _ _ _) (raiseForSlot_held _ _ _) (identified_heldOk n ?_)
  refine modSlot_heldOk (forceReload_heldOk n cleared) fun _ => ?_
  rw [forceReload, State.modSlot_slot, if_pos rfl]
  exact zero_le_word _

theorem judgeSerial_heldOk (n : Fin 24) (serial : BitVec 64) (c : Capability) {s : State} (ok : s.heldOk) :
    (judgeSerial n serial c s).heldOk := by
  unfold judgeSerial
  dsimp only
  split
  · exact acceptIdent_heldOk n serial c ok
  · split
    · exact quarantine_heldOk n .identity (modSlot_heldOk ok (ok n))
    · split
      · exact quarantine_heldOk n .clash (modSlot_heldOk ok (ok n))
      · split
        · exact quarantine_heldOk n .clash (modSlot_heldOk ok (ok n))
        · exact replaceValidator_heldOk n serial c ok

theorem takeIdent_heldOk (ex : Exchange) (b : List Byte) (n : Fin 24) {s : State} (ok : s.heldOk) :
    (takeIdent ex b n s).heldOk := by
  unfold takeIdent
  split
  · exact judgeSerial_heldOk n _ _ ok
  · exact ok

theorem bindFound_heldOk (n : Fin 24) (b : Fin 4 × Nat) (serial : BitVec 64) (c : Capability) (side : Side) {s : State}
    (ok : s.heldOk) : (bindFound n b serial c side s).heldOk := by
  unfold bindFound
  refine heldOk_of_fixed (raiseForSlot_fixed _ _ _) (raiseForSlot_held _ _ _)
    (reevaluate_heldOk n (takeCapability_heldOk n c (setSlot_heldOk ok fun _ => ?_)))
  exact zero_le_word _

theorem discovered_heldOk (l : Fin 4) (ex : Exchange) (b : List Byte) {s : State} (ok : s.heldOk) :
    (discovered l ex b s).heldOk := by
  have marked (ns : List (Fin 24)) : (forSlots markDuplicate ns s).heldOk :=
    heldOk_of_fixed (forSlots_keeps State.fixed _ (fun n s => markDuplicate_fixed s n) ns s)
      (forSlots_keeps State.held _ (fun n s => markDuplicate_held s n) ns s) ok
  unfold discovered
  dsimp only
  split
  · exact ok
  · split
    · split
      · exact bindFound_heldOk _ _ _ _ _ ok
      · exact heldOk_of_fixed (rosterFull_fixed s _) (rosterFull_held s _) ok
    · split
      · exact heldOk_of_fixed (rebindFound_fixed s _ _ _ _) (rebindFound_held s _ _ _ _) ok
      · exact marked [_]
    · exact marked _

theorem takeHeldData_heldOk (n : Fin 24) (st : Status) {s : State} (ok : s.heldOk) : (takeHeldData n st s).heldOk := by
  have recorded := recordStatus_heldOk n st ok
  unfold takeHeldData
  dsimp only
  generalize recordStatus n st s = u at recorded ⊢
  split
  · exact quarantine_heldOk n .store recorded
  · refine heldOk_of_fixed (s := u) ?_ ?_ recorded
    · rw [want_fixed, reevaluate_fixed, compareStatus_fixed]
      split <;> split <;> (try split) <;> simp
    · rw [want_held, reevaluate_held, compareStatus_held]
      split <;> split <;> (try split) <;> simp

theorem takeStatus_heldOk (ex : Exchange) (b : List Byte) (n : Fin 24) {s : State} (ok : s.heldOk) :
    (takeStatus ex b n s).heldOk := by
  have marked : (statusMarks ex.work n s).heldOk := heldOk_of_fixed (statusMarks_fixed s ex.work n) (statusMarks_held s ex.work n) ok
  unfold takeStatus
  dsimp only
  generalize statusMarks ex.work n s = u at marked ⊢
  split
  · exact marked
  · exact heldOk_of_fixed (by simp) (by simp) marked
  · exact heldOk_of_fixed (by simp) (by simp) marked
  iterate 2
    · split
      · exact heldOk_of_fixed (by simp) (by simp) marked
      · exact takeHeldData_heldOk n _ marked
  · split
    · exact heldOk_of_fixed (by simp) (by simp) marked
    · exact takeHeldData_heldOk n _ marked

theorem takeAccept_heldOk (ex : Exchange) (b : List Byte) (n : Fin 24) {s : State} (ok : s.heldOk) :
    (takeAccept ex b n s).heldOk := by
  unfold takeAccept
  split
  · exact ok
  · next d _ =>
    dsimp only
    refine heldOk_of_fixed (memberOpened_fixed _ n) (memberOpened_held _ n) (reevaluate_heldOk n (recordAccept_heldOk n d _ ?_))
    exact ok

theorem refused_heldOk (w : Work) (reason : Nat) (n : Fin 24) {s : State} (ok : s.heldOk) : (refused w reason n s).heldOk := by
  have ended : (endDelivery n s).heldOk := heldOk_of_fixed (endDelivery_fixed s n) (endDelivery_held s n) ok
  unfold refused
  split
  · exact ok
  · split
    · exact quarantine_heldOk n .store ended
    · split
      · exact reevaluate_heldOk n (forceReload_heldOk n ended)
      · exact heldOk_of_fixed (deliveryFailure_fixed s n) (deliveryFailure_held s n) ok

theorem takeCloseAck_heldOk (ex : Exchange) (b : List Byte) (n : Fin 24) {s : State} (ok : s.heldOk) :
    (takeCloseAck ex b n s).heldOk := by
  unfold takeCloseAck
  split
  · exact ok
  · split
    · split
      · exact commitBlocklist_heldOk n _ _ ok
      · exact heldOk_of_fixed (commitEdition_fixed s n _) (commitEdition_held s n _) ok
    · split
      · exact heldOk_of_fixed (closeTally_fixed s n _) (closeTally_held s n _) ok
      · exact heldOk_of_fixed (by simp) (by simp) ok

theorem takeReply_heldOk {l : Fin 4} {code : Byte} {f : Exchange → List Byte → Fin 24 → State → State}
    (keeps : ∀ e b n {s : State}, s.heldOk → (f e b n s).heldOk) {s : State} (ok : s.heldOk) : (takeReply l code f s).heldOk := by
  unfold takeReply
  split
  · exact ok
  · next ex content _ =>
    have ended : (overExchange l ex s).heldOk := heldOk_of_fixed (overExchange_fixed s l ex) (overExchange_held s l ex) ok
    dsimp only
    generalize overExchange l ex s = u at ended ⊢
    split
    · exact ended
    · refine heldOk_of_fixed (setKeepalive_fixed _ _) (setKeepalive_held _ _) ?_
      split
      · exact ended
      · exact keeps _ _ _ ended

/-! ### The commands of the lines -/

theorem heldOk_settled {u t : State} (settled : Settled u t) (ok : u.heldOk) : t.heldOk := by
  intro n
  rw [settled.change, State.slot, settled.roster]
  exact ok n

theorem scheduled_heldOk {f : State → State} {s t : State} (run : scheduled s f = .next t) (ok : s.heldOk)
    (keeps : (f s).heldOk) : t.heldOk := scheduled_holds (P := State.heldOk) heldOk_settled run ok keeps

theorem held_settled {u t : State} (settled : Settled u t) : t.held = u.held := by
  rw [State.held, settled.roster, State.held]

theorem scheduled_held {f : State → State} {s t : State} (run : scheduled s f = .next t) (keeps : (f s).held = s.held) :
    t.held = s.held :=
  scheduled_holds (P := fun u => u.held = s.held) (fun settled same => (held_settled settled).trans same) run rfl keeps

theorem recorded_held {f : State → State} {s t : State} (run : recorded s f = .next t) (keeps : (f s).held = s.held) :
    t.held = s.held :=
  recorded_holds (P := fun u => u.held = s.held) (fun settled same => (held_settled settled).trans same) run rfl keeps

theorem onSlot_held {ex : Exchange} {f : Fin 24 → State → State} (keeps : ∀ n s, (f n s).held = s.held) (s : State) :
    (onSlot ex f s).held = s.held := by
  unfold onSlot
  split
  · exact keeps _ s
  · rfl

theorem discoveryVisitDue_held {s t : State} (run : execDiscoveryVisitDue s = .next t) : t.held = s.held := by
  refine scheduled_held run ?_
  split
  · rw [forLines_keeps State.held _ fun l u => ?_]
    · rfl
    · split <;> simp
  · rfl

theorem frameStart_held {s t : State} {l : Fin 4} (run : execFrameStart l s = .next t) : t.held = s.held := by
  refine scheduled_held run ?_
  split
  · split
    · split
      · next f frame =>
        split
        · rw [startExchange_held, requestFrame_held frame]
        · rfl
      · exact takeBack_held s l _
    · rfl
  · rfl

theorem frameSent_held {s t : State} {l : Fin 4} (run : execFrameSent l s = .next t) : t.held = s.held := by
  refine scheduled_held run ?_
  split
  · split
    · rfl
    · split
      · rfl
      · dsimp only
        split <;> simp
  · rfl

theorem replyTimeout_held {s t : State} {l : Fin 4} (run : execReplyTimeout l s = .next t) : t.held = s.held := by
  refine scheduled_held run ?_
  split
  · next ex _ =>
    split
    · have counted (u : State) : (if ex.work = .discovery ∨ ex.silentPoll = true then u
          else countLine l ex.side (fun k => { k with timeouts := satInc k.timeouts }) u).held = u.held := by
        split <;> simp
      dsimp only
      rw [failAttempt_held]
      split
      · rw [setGarbles_held, counted, modPort_held]
      · rw [onSlot_held (fun n s => endGarbleRun_held s n), counted, modPort_held]
    · rfl
  · rfl

theorem gapEnd_held {s t : State} {l : Fin 4} (run : execGapEnd l s = .next t) : t.held = s.held := by
  refine scheduled_held run ?_
  dsimp only
  split
  · rfl
  · split
    · simp
    · split
      · simp
      · split
        · simp
        · split <;> simp
        · simp

/-- No command of the lines makes a slot record an H above G for the live identity. -/
theorem exec_heldOk {c : Instr} (line : lineCmd c = true) {s t : State} (run : exec c s = .next t) (ok : s.heldOk) :
    t.heldOk := by
  have same (held : t.held = s.held) : t.heldOk := by
    obtain ⟨u, run', fixed⟩ := exec_fixed line s
    rw [run] at run'
    cases run'
    exact heldOk_of_fixed fixed held ok
  unfold exec at run
  cases c with
  | keepaliveDue n => exact same (scheduled_held run (by split <;> simp))
  | backoffExpiry n => exact same (scheduled_held run (by split <;> simp))
  | replacementWindowClose n => exact same (recorded_held run (by simp))
  | discoveryVisitDue => exact same (discoveryVisitDue_held run)
  | identifyDue n => exact same (scheduled_held run (by split <;> simp))
  | lineRecordTimer l => exact same (recorded_held run (by split <;> simp))
  | lineModeChangeApplied l => exact same (scheduled_held run (by split <;> simp))
  | frameStart l => exact same (frameStart_held run)
  | frameSent l => exact same (frameSent_held run)
  | echoJudged l copy inTime => exact same (scheduled_held run (by dsimp only; split <;> simp))
  | headerMark l side => exact same (scheduled_held run (by split <;> [(split <;> simp); rfl]))
  | frameReceived l bytes ending => exact same (scheduled_held run (by split <;> [(split <;> simp); rfl]))
  | replyTimeout l => exact same (replyTimeout_held run)
  | gapEnd l => exact same (gapEnd_held run)
  | status l => exact scheduled_heldOk run ok (takeReply_heldOk (fun e b n _ ok => takeStatus_heldOk e b n ok) ok)
  | ident l =>
    refine scheduled_heldOk run ok ?_
    split
    · split
      · exact discovered_heldOk l _ _ (heldOk_of_fixed (overExchange_fixed s l _) (overExchange_held s l _) ok)
      · exact takeReply_heldOk (fun e b n _ ok => takeIdent_heldOk e b n ok) ok
    · exact ok
  | accept l => exact scheduled_heldOk run ok (takeReply_heldOk (fun e b n _ ok => takeAccept_heldOk e b n ok) ok)
  | refuse l =>
    refine scheduled_heldOk run ok (takeReply_heldOk (fun e b n _ ok => refused_heldOk e.work _ n ok) ?_)
    exact heldOk_of_fixed (countRefusal_fixed s l) (countRefusal_held s l) ok
  | pageAck l => exact same (scheduled_held run (takeReply_held (fun e b n s => takePageAck_held s e b n) s))
  | closeAck l => exact scheduled_heldOk run ok (takeReply_heldOk (fun e b n _ ok => takeCloseAck_heldOk e b n ok) ok)
  | checkReport l => exact same (scheduled_held run (takeReply_held (fun e b n s => takeCheckReport_held s e b n) s))
  | busy l => exact same (scheduled_held run (by simp))
  | _ => cases line

end Sys2Proof.Machine

/-!
Every step keeps the account of generations: G and its limit, the recorded H, the image digest.
-/
namespace Sys2Proof.Machine

/-- What the account of generations and the digest read of the change engine. -/
def ChangeEngine.books (c : ChangeEngine) : Word × Word × Bool × Word × List Word :=
  (c.identity, c.gen, c.batch.isSome, c.digest, c.table.map (·.crc))

/-- A step from `s` to `u` keeps the account, whatever the account of `s` holds. -/
structure Keeps (s u : State) : Prop where
  counts : s.genOk → s.heldOk → u.genOk ∧ u.heldOk
  digest : s.digestOk → u.digestOk

theorem Keeps.refl (s : State) : Keeps s s := ⟨.intro, id⟩

theorem Keeps.trans {s u v : State} (first : Keeps s u) (second : Keeps u v) : Keeps s v :=
  ⟨fun gen held => (first.counts gen held).elim second.counts, second.digest ∘ first.digest⟩

theorem digestOf_map (table : List StampRec) : digestOf table = (table.map (·.crc)).foldl (· + ·) 0 := by
  rw [digestOf, List.foldl_map]

theorem digestOk_of {s u : State} (books : u.change.books = s.change.books) (ok : s.digestOk) : u.digestOk := by
  simp only [ChangeEngine.books, Prod.mk.injEq] at books
  obtain ⟨-, -, -, digest, crcs⟩ := books
  rw [State.digestOk, digest, digestOf_map, crcs, ← digestOf_map]
  exact ok

/-- What reads the same books and the same recorded H, and leaves FAULTED alone, keeps the account. -/
theorem Keeps.of_books {s u : State} (books : u.change.books = s.change.books) (held : u.held = s.held)
    (faulted : u.isFaulted = s.isFaulted) : Keeps s u := by
  refine ⟨fun gen ok => ?_, digestOk_of books⟩
  simp only [ChangeEngine.books, Prod.mk.injEq] at books
  obtain ⟨identity, same, batch, -⟩ := books
  obtain ⟨limit, room⟩ := gen
  refine ⟨⟨by rwa [same], ?_⟩, heldOk_of held identity same ok⟩
  rwa [batch, faulted, same]

theorem isFaulted_of_engine {s u : State} (engine : u.engine = s.engine) : u.isFaulted = s.isFaulted := by
  rw [State.isFaulted, State.isFaulted, engine]

theorem Keeps.of_fixed {s u : State} (fixed : u.fixed = s.fixed) (held : u.held = s.held) : Keeps s u := by
  obtain ⟨-, engine, -, -, -, change, -⟩ := Machine.of_fixed fixed
  exact .of_books (by rw [change]) held (isFaulted_of_engine engine)

/-- What keeps change engine, roster and engine state keeps the account. -/
theorem Keeps.of_roster {s u : State} (change : u.change.books = s.change.books) (roster : u.roster = s.roster)
    (engine : u.engine = s.engine) : Keeps s u :=
  .of_books change (by rw [State.held, roster, State.held]) (isFaulted_of_engine engine)

theorem Keeps.of_offStrip {t : Strip} {s u : State} (same : u.offStrip t = s.offStrip t) : Keeps s u := by
  obtain ⟨-, engine, -, -, -, -, -, -, -, -, -, -, change, -, -, roster, -⟩ := offStrip_eq same
  exact .of_roster (by rw [change]) roster engine

theorem Keeps.of_offImage {s u : State} (same : u.offImage = s.offImage) (books : u.change.books = s.change.books) :
    Keeps s u := by
  obtain ⟨-, -, -, engine, -, -, roster, -⟩ := Machine.of_offImage same
  exact .of_roster books roster engine

theorem Keeps.settled {u t : State} (settled : Settled u t) : Keeps u t :=
  .of_roster (by rw [settled.change]) settled.roster settled.engine

theorem Keeps.ite {s u v : State} (c : Prop) [Decidable c] (yes : Keeps s u) (no : Keeps s v) :
    Keeps s (if c then u else v) := ite_holds (P := Keeps s) c yes no

theorem Keeps.foldl {β : Type} {f : State → β → State} (step : ∀ s x, Keeps s (f s x)) (xs : List β) (s : State) :
    Keeps s (xs.foldl f s) :=
  foldl_holds (P := Keeps s) (fun u x kept => kept.trans (step u x)) xs (.refl s)

theorem scheduled_keeps {f : State → State} {s t : State} (run : scheduled s f = .next t) (kept : Keeps s (f s)) :
    Keeps s t := scheduled_holds (P := Keeps s) (fun settled kept => kept.trans (.settled settled)) run (.refl s) kept

theorem recorded_keeps {f : State → State} {s t : State} (run : recorded s f = .next t) (kept : Keeps s (f s)) :
    Keeps s t := recorded_holds (P := Keeps s) (fun settled kept => kept.trans (.settled settled)) run (.refl s) kept

/-! ### Host interface and report -/

theorem keeps_editionTests (s : State) : Keeps s (editionTests s) := by
  have change : (editionTests s).change = s.change := (of_ledger (editionTests_ledger s)).1
  have engine : (editionTests s).engine = s.engine := congrArg Spine.engine (editionTests_spine s)
  exact .of_books (by rw [change]) (editionTests_held s) (isFaulted_of_engine engine)

theorem keeps_deferredTests (t : Strip) (s : State) : Keeps s (deferredTests t s).1 := by
  obtain ⟨-, -, same⟩ | ⟨-, same⟩ := deferredTests_cases t s
  · rw [same]
    exact Keeps.trans (u := setTestsDue false s) (.of_roster rfl rfl rfl) (keeps_editionTests _)
  · rw [same]
    exact .refl s

theorem keeps_completeRequest (t : Strip) (r : Result) (s : State) : Keeps s (completeRequest t r s) :=
  .of_offStrip (completeRequest_offStrip t r s)

theorem keeps_completeAfterSummary (t : Strip) (r : Result) (s : State) : Keeps s (completeAfterSummary t r s) :=
  .of_roster rfl rfl rfl

theorem keeps_handOutcome (t : Strip) (r : Result) (s : State) : Keeps s (handOutcome t r s) := by
  obtain ⟨-, same⟩ | ⟨-, same⟩ := handOutcome_cases t r s
  · rw [same]
    exact (keeps_deferredTests t s).trans (keeps_completeAfterSummary t r _)
  · rw [same]
    exact (keeps_deferredTests t s).trans (keeps_completeRequest t r _)

theorem keeps_raise (n : Notice) (s : State) : Keeps s (raise n s) := .of_fixed (raise_fixed s n) (raise_held s n)

theorem keeps_raiseAfter (n : Notice) (rs : List (Fin 29)) (s : State) : Keeps s (raiseAfter n rs s) :=
  .of_fixed (raiseAfter_fixed s n rs) (raiseAfter_held s n rs)

theorem keeps_want (r : Fin 29) (s : State) : Keeps s (want r s) := .of_roster rfl rfl rfl

theorem keeps_give (s : State) (w : Waiting) : Keeps s (give s w) := by
  unfold give
  split
  · exact keeps_raise _ s
  · exact keeps_handOutcome _ _ s

theorem keeps_release (r : Fin 29) (s : State) : Keeps s (release r s) := by
  have kept : Keeps s { s with report := { s.report with waiting := (released r s).2 } } := .of_roster rfl rfl rfl
  exact kept.trans (.foldl keeps_give _ _)

theorem keeps_stopRecordTimer (r : Fin 29) (s : State) : Keeps s (stopRecordTimer r s) := by
  unfold stopRecordTimer
  split <;> exact .of_roster rfl rfl rfl

theorem keeps_writeRecord (r : Fin 29) (stage : Nat) (s : State) : Keeps s (writeRecord r stage s) := .of_roster rfl rfl rfl

theorem keeps_rewriteRecord (r : Fin 29) (s : State) : Keeps s (rewriteRecord r s) := by
  have written := keeps_writeRecord r 3 s
  unfold rewriteRecord
  dsimp only
  generalize writeRecord r 3 s = u at written ⊢
  have counted : Keeps u { u with report := countRewrite r u.report } := .of_roster rfl rfl rfl
  generalize ({ u with report := countRewrite r u.report } : State) = v at counted ⊢
  exact written.trans (counted.trans ((keeps_stopRecordTimer r v).trans (keeps_release r _)))

theorem keeps_flushRecords (s : State) : Keeps s (flushRecords s) := by
  unfold flushRecords
  generalize List.finRange 29 = records
  exact .foldl (fun s r => .ite _ (keeps_rewriteRecord r s) (.refl s)) records s

theorem keeps_halted {s : State} (healthy : s.isFaulted = false) : Keeps s (halted s) := by
  have flushed := keeps_flushRecords s
  obtain ⟨engine, -⟩ := of_spine (flushRecords_spine s)
  have still : (flushRecords s).isFaulted = false := (isFaulted_of_engine engine).trans healthy
  clear engine
  unfold halted
  generalize flushRecords s = u at flushed still ⊢
  have stopped : Keeps u { u with engine := .haltedResumable } := .of_books rfl rfl still.symm
  generalize ({ u with engine := .haltedResumable } : State) = v at stopped ⊢
  exact flushed.trans (stopped.trans (keeps_rewriteRecord summaryRec _))

theorem halted_healthy (s : State) : (halted s).isFaulted = false := by
  have spine := halted_spine s
  generalize halted s = u at spine ⊢
  have engine : u.engine = .haltedResumable := congrArg Spine.engine spine
  rw [State.isFaulted, engine]

theorem keeps_entered {s : State} (healthy : s.isFaulted = false) : Keeps s (entered s) := .of_books rfl rfl healthy.symm

theorem keeps_resumed {s : State} (healthy : s.isFaulted = false) : Keeps s (resumed s) := by
  have tested : Keeps s s.resumeTested := (keeps_entered healthy).trans (keeps_editionTests (entered s))
  rw [resumed_eq]
  exact .ite _ (tested.trans (.of_roster rfl rfl rfl)) tested

theorem keeps_visitBoth (s : State) : Keeps s (visitBoth s) :=
  Keeps.trans (.of_offStrip (visit_offStrip .priority s)) (.of_offStrip (visit_offStrip .routine _))

theorem keeps_startStrips (s : State) : Keeps s (startStrips s) := (keeps_visitBoth s).trans (.of_roster rfl rfl rfl)

theorem keeps_resume {s : State} (healthy : s.isFaulted = false) : Keeps s (resume s) :=
  (keeps_resumed healthy).trans (keeps_startStrips _)

theorem keeps_takeRun (run : Bool) (s : State) : Keeps s (takeRun run s) := by
  have set : Keeps s { s with regs := { s.regs with run := run } } := .of_roster rfl rfl rfl
  unfold takeRun
  dsimp only
  split
  · next engine => exact .ite _ (.of_books rfl rfl (by simp [State.isFaulted, engine])) set
  · next engine => exact .ite _ set (.of_books rfl rfl (by simp [State.isFaulted, engine]))
  · next engine => exact .ite _ set (.of_books rfl rfl (by simp [State.isFaulted, engine, want, stopScan]))
  · exact set
  · next engine => exact .ite _ (set.trans (keeps_resume (by simp [State.isFaulted, engine]))) set
  · exact set

theorem keeps_coldStart (regs : Regs) (s : State) : Keeps s (coldStart regs s) := by
  refine ⟨fun _ _ => ⟨⟨by change (0 : Word) ≤ _; decide, nofun⟩, fun n _ => ?_⟩, fun _ => rfl⟩
  have cold : (coldStart regs s).slot n = .cold := reset_slot n
  rw [cold]
  exact BitVec.le_refl _

theorem pin_heldOk (n : Fin 24) (b : Fin 4 × Nat) (e : BitVec 64) (f : Bool) {s : State} (ok : s.heldOk) :
    (pin n b e f s).heldOk := by
  obtain ⟨-, -, -, -, -, change, -⟩ := of_fixed (pin_fixed s n b e f)
  intro k
  rw [change, pin_slot]
  split
  · unfold Slot.pinned
    split
    · exact ok n
    · exact fun _ => zero_le_word _
  · exact ok k

theorem free_heldOk (n : Fin 24) {s : State} (ok : s.heldOk) : (free n s).heldOk := by
  obtain ⟨-, -, -, -, -, change, -⟩ := of_fixed (free_fixed s n)
  intro k
  rw [change, free_slot]
  split
  · exact fun _ => zero_le_word _
  · exact ok k

theorem resync_heldOk (n : Fin 24) {s : State} (ok : s.heldOk) : (resync n s).heldOk := by
  obtain ⟨-, -, -, -, -, change, -⟩ := of_fixed (resync_fixed s n)
  intro k
  rw [change, resync_slot]
  split
  · exact fun _ => zero_le_word _
  · exact ok k

theorem clearCounters_held (r : Request) (s : State) : (clearCounters r s).1.held = s.held := by
  unfold clearCounters
  dsimp only
  refine (forLines_keeps State.held _ (fun l s => by split <;> simp) _ _).trans ?_
  exact forSlots_keeps State.held _ (fun n s => by split <;> simp) _ _

theorem setProfile_held (r : Request) (s : State) : (setProfile r s).1.held = s.held := by
  have stored (i : Fin 4) (p : Profile) : (storeProfile i p s).held = s.held :=
    forLines_keeps State.held _ (fun l s => rateChanged_held s _ l) _ _
  unfold setProfile
  split
  · split
    · split
      · rfl
      · exact stored _ _
    · rfl
  · rfl

theorem setProfile_change (r : Request) (s : State) : (setProfile r s).1.change = s.change := by
  unfold setProfile
  split
  · split
    · split
      · rfl
      · obtain ⟨-, -, -, -, -, change, -⟩ := of_offServed (storeProfile_offServed ‹_› (readProfile r ⟨_, ‹_›⟩).1 s)
        exact change
    · rfl
  · rfl

theorem keeps_answer {k : Nat} {answer : Request → State → State × Result} (kind : answerOf k = some answer)
    (r : Request) (s : State) : Keeps s (answer r s).1 := by
  have of {u : State} (fixed : u.fixed = s.fixed) (held : s.heldOk → u.heldOk) : Keeps s u := by
    obtain ⟨-, engine, -, -, -, change, -⟩ := Machine.of_fixed fixed
    refine ⟨fun gen ok => ⟨?_, held ok⟩, digestOk_of (by rw [change])⟩
    rw [State.genOk, change, isFaulted_of_engine engine]
    exact gen
  unfold answerOf at kind
  split_ifs at kind <;> cases kind
  · refine of (pinSlot_fixed r s) fun ok => ?_
    unfold pinSlot
    split
    · dsimp only
      split
      · exact ok
      · split
        · exact ok
        · exact pin_heldOk _ _ _ _ ok
    · exact ok
  · refine of (freeSlot_fixed r s) fun ok => ?_
    unfold freeSlot
    split
    · exact free_heldOk _ ok
    · exact ok
  · refine of (releaseSlot_fixed r s) fun ok => ?_
    unfold releaseSlot
    split
    · split
      · exact heldOk_of_fixed (releaseQuarantine_fixed s _) (releaseQuarantine_held s _) ok
      · exact ok
    · exact ok
  · refine of (resyncSlot_fixed r s) fun ok => ?_
    unfold resyncSlot
    split
    · split
      · exact ok
      · exact resync_heldOk _ ok
    · exact ok
  · exact .of_fixed (clearCounters_fixed r s) (clearCounters_held r s)
  · refine .of_fixed (setLine_fixed r s) ?_
    unfold setLine
    split
    · exact acceptLine_held s _ _ _
    · rfl
    · rfl
  · exact .of_books (by rw [setProfile_change]) (setProfile_held r s)
      (isFaulted_of_engine (congrArg Spine.engine (setProfile_sp r s)))

theorem keeps_takeUp (t : Strip) (o : Owner) (s : State) : Keeps s (takeUp t o s) := by
  obtain ⟨x, p, same, -⟩ := takeUp_eq t o s
  rw [same]
  exact .of_roster rfl rfl rfl

theorem atOnce_keeps {s t : State} {x : Strip} {k : Nat} {answer : Request → State → State × Result}
    (run : scheduled s (atOnce x k answer) = .next t) (kind : answerOf k = some answer) : Keeps s t := by
  refine scheduled_keeps run ?_
  unfold atOnce
  split
  · exact (keeps_takeUp x .atOnce s).trans ((keeps_answer kind _ _).trans (keeps_completeRequest _ _ _))
  · exact .refl s

/-! ### The change engine -/

theorem set_map_crc (table : List StampRec) (p : Nat) {r r' : StampRec} (here : table[p]? = some r) (same : r'.crc = r.crc) :
    (table.set p r').map (·.crc) = table.map (·.crc) := by
  refine List.ext_getElem? fun i => ?_
  rw [List.getElem?_map, List.getElem?_map, List.getElem?_set]
  split
  · next at' =>
    subst at'
    obtain ⟨inside, found⟩ := List.getElem?_eq_some_iff.1 here
    simp [inside, found, same]
  · rfl

theorem setLive_crcs (table : List StampRec) (p k : Nat) : (setLive table p k).map (·.crc) = table.map (·.crc) := by
  unfold setLive
  split
  · next r found => exact set_map_crc table p found rfl
  · rfl

theorem touchNew_books (header : Bool) (p live : Nat) (hot : Bool) (s : State) (r : Rebuild) :
    (touchNew header p live hot s r).change.books = s.change.books := by
  unfold touchNew
  split <;> rfl

theorem mirror_books (header : Bool) (i : Item) (s : State) : (mirror header i s).change.books = s.change.books := by
  unfold mirror
  split
  · rfl
  · dsimp only
    generalize (if i.operation = 1 then _ else _ : Applied) = a
    split
    · exact touchNew_books _ _ _ _ _ _
    · split <;> rfl

theorem applyLive_books {b : Batch} {s : State} (running : s.change.batch = some b) :
    (applyLive b s).change.books = s.change.books := by
  unfold applyLive
  dsimp only
  generalize s.applied b = a
  split
  · simp [ChangeEngine.books, running, setLive_crcs]
  · rfl

theorem applyNext_books {b : Batch} {s : State} (running : s.change.batch = some b) :
    (applyNext b s).1.change.books = s.change.books := by
  unfold applyNext
  dsimp only
  split
  · rw [mirror_books, applyLive_books running]
  · exact applyLive_books running

theorem itemDone_books (o : ItemOutcome) (s : State) : (itemDone o s).change.books = s.change.books := by
  unfold itemDone
  split
  · rfl
  · next running => simp [ChangeEngine.books, running]

theorem keeps_item {b : Batch} {s : State} (running : s.change.batch = some b) :
    Keeps s (itemDone (applyNext b s).2 (applyNext b s).1) :=
  .of_offImage ((itemDone_offImage _ _).trans (applyNext_offImage b s)) ((itemDone_books _ _).trans (applyNext_books running))

/-- The batch is over: no batch is left that bounds G. -/
def batchOver (s : State) : State := { s with change := { s.change with batch := none } }

theorem keeps_batchOver (s : State) : Keeps s (batchOver s) :=
  ⟨fun gen ok => ⟨⟨gen.1, fun none => nomatch none⟩, ok⟩, id⟩

theorem batchOver_keeps_endBatch (b : Batch) (s : State) : Keeps (batchOver s) (endBatch b s) := by
  change Keeps (batchOver s) (if b.changed = [] ∧ b.anyFull = false then completeRequest b.strip b.result (batchOver s)
    else completeAfterSummary b.strip b.result
      (if b.anyFull then raiseAfter .saturated [summaryRec] (batchOver s) else batchOver s))
  generalize batchOver s = u
  refine .ite _ (keeps_completeRequest _ _ u) ?_
  exact Keeps.trans (.ite _ (keeps_raiseAfter _ _ u) (.refl u)) (keeps_completeAfterSummary _ _ _)

theorem keeps_endBatch (b : Batch) (s : State) : Keeps s (endBatch b s) :=
  (keeps_batchOver s).trans (batchOver_keeps_endBatch b s)

theorem changeItem_keeps {s t : State} (run : execChangeItem s = .next t) : Keeps s t := by
  unfold execChangeItem at run
  refine scheduled_keeps run ?_
  split
  · next b running =>
    refine .ite _ ?_ (.refl s)
    have done := keeps_item running
    dsimp only
    generalize itemDone (applyNext b s).2 (applyNext b s).1 = u at done ⊢
    split
    · exact .ite _ (done.trans (keeps_endBatch _ u)) done
    · exact done
  · exact .refl s

theorem digestOf_sum (table : List StampRec) : digestOf table = (table.map (·.crc)).sum := by
  rw [digestOf_map, List.sum_eq_foldl]

/-- The sum of the page CRCs after one of them changed. -/
theorem digestOf_set (table : List StampRec) (p : Nat) {r : StampRec} (r' : StampRec) (here : table[p]? = some r) :
    digestOf (table.set p r') = digestOf table - r.crc + r'.crc := by
  obtain ⟨inside, found⟩ := List.getElem?_eq_some_iff.1 here
  have inside' : p < (table.map (·.crc)).length := by rwa [List.length_map]
  rw [digestOf_sum, digestOf_sum, List.map_set, List.sum_set', dif_pos inside', List.getElem_map, found, ← add_assoc,
    sub_eq_add_neg]

theorem bringUp_digestOk (urgent : Bool) (p : Nat) {s : State} (ok : s.digestOk) : (bringUp urgent p s).digestOk := by
  unfold bringUp
  dsimp only
  split
  · exact ok
  · next r here =>
    generalize headerCrc s.mem (s.imageBase s.change.region) p r.live s.change.gen s.change.identity = crc
    generalize writeHeader s.mem (s.imageBase s.change.region) p r.live s.change.gen s.change.identity = mem
    unfold State.digestOk at ok ⊢
    dsimp only
    rw [digestOf_set _ _ _ here, ok]

theorem bringUpAll_digestOk (urgent : Bool) (ps : List Nat) {s : State} (ok : s.digestOk) :
    (bringUpAll urgent ps s).digestOk :=
  foldl_holds (P := State.digestOk) (fun _ p ok => bringUp_digestOk urgent p ok) ps ok

/-- G, identity and batch: what bringing pages up leaves of the change engine. -/
def ChangeEngine.head (c : ChangeEngine) : Word × Word × Option Batch := (c.identity, c.gen, c.batch)

theorem bringUp_eq (urgent : Bool) (p : Nat) (s : State) :
    ∃ mem table digest, bringUp urgent p s = { s with mem := mem, change := { s.change with table := table, digest := digest } } := by
  unfold bringUp
  dsimp only
  split
  · exact ⟨s.mem, s.change.table, s.change.digest, rfl⟩
  · exact ⟨_, _, _, rfl⟩

theorem bringUp_head (urgent : Bool) (p : Nat) (s : State) : (bringUp urgent p s).change.head = s.change.head := by
  obtain ⟨mem, table, digest, same⟩ := bringUp_eq urgent p s
  rw [same]
  rfl

theorem bringUpAll_head (urgent : Bool) (ps : List Nat) (s : State) : (bringUpAll urgent ps s).change.head = s.change.head :=
  foldl_keeps (fun s : State => s.change.head) _ (fun s p => bringUp_head urgent p s) ps s

/-- `u` is `s` with G raised by 1, for the account of generations. -/
structure Raised (s u : State) : Prop where
  head : u.change.head = (s.change.identity, s.change.gen + 1, s.change.batch)
  held : u.held = s.held
  faulted : u.isFaulted = s.isFaulted
  digest : s.digestOk → u.digestOk

theorem Raised.of_fixed {s u v : State} (raised : Raised s u) (fixed : v.fixed = u.fixed) (held : v.held = u.held) :
    Raised s v := by
  obtain ⟨-, engine, -, -, -, change, -⟩ := Machine.of_fixed fixed
  exact ⟨by rw [change, raised.head], held.trans raised.held, (isFaulted_of_engine engine).trans raised.faulted,
    fun ok => digestOk_of (by rw [change]) (raised.digest ok)⟩

theorem bringUpAll_raised (urgent : Bool) (ps : List Nat) (s : State) : Raised s (bringUpAll urgent ps (raiseG s)) := by
  obtain ⟨-, -, -, engine, -, -, roster, -⟩ := of_offImage ((bringUpAll_offImage urgent ps _).trans (raiseG_offImage s))
  exact ⟨bringUpAll_head urgent ps (raiseG s), by rw [State.held, roster, State.held], isFaulted_of_engine engine,
    fun ok => bringUpAll_digestOk urgent ps (s := raiseG s) ok⟩

theorem imageSettled_raised {s u : State} (raised : Raised s u) : Raised s (imageSettled u) := by
  have still : Raised s { u with change := { u.change with changing := false } } :=
    ⟨raised.head, raised.held, raised.faulted, raised.digest⟩
  exact still.of_fixed ((reevaluateAll_fixed _).trans (compareHeld_fixed _)) ((reevaluateAll_held _).trans (compareHeld_held _))

/-- G raised from below its limit stays at or below it, and above what the slots record. -/
theorem Raised.counts {s u : State} (raised : Raised s u) (room : s.change.gen < Config.spentG) (ok : s.heldOk) :
    u.change.gen ≤ Config.spentG ∧ u.heldOk := by
  have head := raised.head
  simp only [ChangeEngine.head, Prod.mk.injEq] at head
  obtain ⟨identity, gen, -⟩ := head
  have next : s.change.gen.toNat + 1 = u.change.gen.toNat := by
    rw [gen]
    have : Config.spentG.toNat = 4294967040 := by decide
    bv_omega
  refine ⟨?_, fun n live => ?_⟩
  · rw [BitVec.lt_def] at room
    rw [BitVec.le_def]
    omega
  · have limit : (u.slot n).heldH.toNat ≤ s.change.gen.toNat :=
      heldOk_of (s := s) (u := { u with change := { u.change with gen := s.change.gen } }) raised.held identity rfl ok n live
    rw [BitVec.le_def]
    omega

/-- A rise of G from below its limit keeps the account where no batch goes on. -/
theorem Raised.keeps {s u : State} (raised : Raised s u) (room : s.genOk → s.change.gen < Config.spentG) :
    Keeps s (batchOver u) := by
  refine ⟨fun gen ok => ?_, raised.digest⟩
  obtain ⟨limit, held⟩ := raised.counts (room gen) ok
  exact ⟨⟨limit, fun none => nomatch none⟩, held⟩

theorem batchOver_idle {s : State} (none : s.change.batch = none) : batchOver s = s := by
  rw [batchOver, ← none]

theorem batchEnd_keeps {s t : State} (run : execBatchEnd s = .next t) : Keeps s t := by
  unfold execBatchEnd at run
  refine scheduled_keeps run ?_
  split
  · next b running =>
    split
    · next ready =>
      simp only [Bool.and_eq_true] at ready
      obtain ⟨⟨work, -⟩, -⟩ := ready
      have room (gen : s.genOk) : s.change.gen < Config.spentG :=
        gen.2 (by rw [running]; rfl) (not_isFaulted_of_working work)
      have ends {u : State} (raised : Raised s u) : Keeps s (endBatch b u) :=
        (raised.keeps room).trans (batchOver_keeps_endBatch b u)
      have raised (urgent : Bool) : Raised s (imageSettled (bringUpAll urgent b.changed (raiseG s))) :=
        imageSettled_raised (bringUpAll_raised urgent b.changed s)
      dsimp only
      split
      · exact ends ((raised _).of_fixed (insertUrgent_fixed _ _) (insertUrgent_held _ _))
      · exact ends (raised _)
    · exact .refl s
  · exact .refl s

/-! ### The purge job -/

theorem purgePage_books (sd p : Nat) (x : State × List Nat) : (purgePage sd p x).1.change.books = x.1.change.books := by
  unfold purgePage
  dsimp only
  split
  · rfl
  · simp [ChangeEngine.books, setLive_crcs]

theorem purgePages_books (sd k : Nat) (s : State) : (purgePages sd k s).1.change.books = s.change.books :=
  foldl_keeps (fun x : State × List Nat => x.1.change.books) _ (fun x p => purgePage_books sd p x) _ _

theorem keeps_purgePages (sd k : Nat) (s : State) : Keeps s (purgePages sd k s).1 :=
  .of_offImage (purgePages_offImage sd k s) (purgePages_books sd k s)

theorem keeps_takePurge (s : State) : Keeps s (takePurge s) := by
  obtain ⟨x, same⟩ := takePurge_eq s
  rw [same]
  exact .of_roster rfl rfl rfl

/-- Where no batch runs G is below its limit unless it is spent. -/
theorem room_of_spent {s : State} (unspent : s.spent = false) (gen : s.change.gen ≤ Config.spentG) : s.change.gen < Config.spentG := by
  have other : s.change.gen ≠ Config.spentG := by simpa [State.spent] using unspent
  bv_omega

theorem keeps_purge {s : State} (idle : s.change.batch = none) : Keeps s (purge s) := by
  have taken := keeps_takePurge s
  obtain ⟨x, same⟩ := takePurge_eq s
  have vacant : (takePurge s).change.batch = none := by rw [same]; exact idle
  unfold purge
  dsimp only
  clear same
  generalize takePurge s = u at taken vacant ⊢
  split
  · exact taken.trans (.of_roster rfl rfl rfl)
  · next unspent =>
    have purged := keeps_purgePages u.clock.serviceDay u.change.pages u
    have books := purgePages_books u.clock.serviceDay u.change.pages u
    generalize purgePages u.clock.serviceDay u.change.pages u = x at purged books ⊢
    obtain ⟨v, changed⟩ := x
    dsimp only at purged books ⊢
    split
    · exact taken.trans purged
    · have raised := imageSettled_raised (bringUpAll_raised false changed v)
      generalize imageSettled (bringUpAll false changed (raiseG v)) = w at raised ⊢
      simp only [ChangeEngine.books, Prod.mk.injEq, vacant] at books
      obtain ⟨-, gen, batch, -⟩ := books
      have still : v.spent = false := by simpa [State.spent, gen] using unspent
      have head := raised.head
      simp only [ChangeEngine.head, Prod.mk.injEq] at head
      obtain ⟨-, -, same⟩ := head
      have ended : batchOver w = w := batchOver_idle (by rw [same]; simpa using batch)
      have kept := raised.keeps fun ok => room_of_spent still ok.1
      rw [ended] at kept
      exact (taken.trans purged).trans (kept.trans (keeps_want _ w))

theorem purgeJob_keeps {s t : State} (run : execPurgeJob s = .next t) : Keeps s t := by
  unfold execPurgeJob at run
  refine scheduled_keeps run ?_
  split
  · next may =>
    refine keeps_purge ?_
    simp only [State.mayPurge, State.changeIdle, Bool.and_eq_true, Option.isNone_iff_eq_none] at may
    obtain ⟨⟨-, ⟨⟨batch, -⟩, -⟩, -⟩, -⟩ := may
    exact batch
  · exact .refl s

/-! ### Format and rebuild -/

theorem room_of_refuseBatch {list n : Nat} {c : ChangeEngine} (fits : refuseBatch list n c = none)
    (limit : c.gen ≤ Config.spentG) : c.gen < Config.spentG := by
  have other : c.gen ≠ Config.spentG := by
    unfold refuseBatch at fits
    split_ifs at fits
    assumption
  bv_omega

theorem applyChanges_keeps {s t : State} {x : Strip} (run : execApplyChanges x s = .next t) : Keeps s t := by
  unfold execApplyChanges at run
  refine scheduled_keeps run (.ite _ ?_ (.refl s))
  have taken : Keeps s (resumeRebuild (takeUp x .change s)) := (keeps_takeUp x .change s).trans (.of_roster rfl rfl rfl)
  dsimp only
  generalize resumeRebuild (takeUp x .change s) = u at taken ⊢
  split
  · exact taken.trans (keeps_completeRequest _ _ u)
  · next fits =>
    exact taken.trans ⟨fun gen ok => ⟨⟨gen.1, fun _ _ => room_of_refuseBatch fits gen.1⟩, ok⟩, id⟩

theorem formatImage_keeps {s t : State} {x : Strip} (run : execFormatImage x s = .next t) : Keeps s t := by
  unfold execFormatImage at run
  refine scheduled_keeps run (.ite _ ?_ (.refl s))
  have taken := keeps_takeUp x .change s
  dsimp only
  split
  · exact taken.trans (keeps_completeRequest _ _ _)
  · exact taken.trans (.of_roster rfl rfl rfl)

theorem lowerH_heldOk {s : State} (gen : s.change.gen = 1) : (lowerH s).heldOk := by
  obtain ⟨-, -, -, -, -, change, -⟩ := of_fixed (lowerH_fixed s)
  intro n
  rw [change, lowerH_slot, gen, Slot.lowered]
  split
  · exact fun _ => zero_le_word _
  · next low => exact fun live => BitVec.not_lt.1 fun above => low ⟨live, above⟩

/-- A new image with G at 1 and the effects of a switch keep the account: an H above 1 of the new identity is lowered. -/
theorem switch_keeps {s u : State} (gen : u.change.gen = 1) (digest : u.digestOk) : Keeps s (switchEffects u) := by
  obtain ⟨-, -, -, -, -, change, -⟩ := of_fixed (switchEffects_fixed u)
  refine ⟨fun _ _ => ⟨⟨?_, fun _ _ => ?_⟩, ?_⟩, fun _ => digestOk_of (by rw [change]) digest⟩
  · rw [change, gen]
    decide
  · rw [change, gen]
    decide
  · unfold switchEffects
    dsimp only
    refine heldOk_of_fixed (reevaluateAll_fixed _) (reevaluateAll_held _) (heldOk_of_fixed
      (forSlots_keeps State.fixed _ (fun n s => refreshIncapable_fixed s n) _ _)
      (forSlots_keeps State.held _ (fun n s => refreshIncapable_held s n) _ _) (lowerH_heldOk ?_))
    obtain ⟨-, -, -, -, -, same, -⟩ := of_fixed ((clearRepairs_fixed _).trans ((endGroups_fixed _ .routine).trans
      (abandonWhere_fixed u fun d => d.mode.isBlocklist)))
    rw [same, gen]

theorem formatSwitch_keeps {s t : State} (run : execFormatSwitch s = .next t) : Keeps s t := by
  unfold execFormatSwitch at run
  refine scheduled_keeps run ?_
  split
  · exact .ite _ ((switch_keeps (u := switchTo _ s) rfl rfl).trans (keeps_completeAfterSummary _ _ _)) (.refl s)
  · exact .refl s

theorem rebuildImage_keeps {s t : State} {x : Strip} (run : execRebuildImage x s = .next t) : Keeps s t := by
  unfold execRebuildImage at run
  refine scheduled_keeps run (.ite _ ?_ (.refl s))
  have taken := keeps_takeUp x .change s
  dsimp only
  split
  · exact taken.trans (keeps_completeRequest _ _ _)
  · exact taken.trans (.of_roster rfl rfl rfl)

theorem placeCopied_books (hot : Bool) (s : State) (e : Entry) : (placeCopied hot s e).change.books = s.change.books := by
  unfold placeCopied
  split
  · rfl
  · dsimp only
    split
    · exact touchNew_books _ _ _ _ _ _
    · rfl

theorem copyPage_books (p : Nat) (s : State) : (copyPage p s).change.books = s.change.books := by
  unfold copyPage
  split
  · exact foldl_keeps (fun s : State => s.change.books) _ (fun s e => placeCopied_books _ s e) _ s
  · rfl

theorem copyPages_books (k : Nat) (s : State) : (copyPages k s).change.books = s.change.books :=
  foldl_keeps (fun s : State => s.change.books) _ (fun s _ => copyPage_books _ s) _ s

theorem finishPage_books (p : Nat) (s : State) : (finishPage p s).change.books = s.change.books := by
  unfold finishPage
  split
  · rfl
  · split <;> rfl

theorem finishPages_books (first k : Nat) (s : State) : (finishPages first k s).change.books = s.change.books :=
  foldl_keeps (fun s : State => s.change.books) _ (fun s _ => finishPage_books _ s) _ s

theorem keeps_copyPages (k : Nat) (s : State) : Keeps s (copyPages k s) :=
  .of_offImage (copyPages_offImage k s) (copyPages_books k s)

theorem keeps_finishPages (first k : Nat) (s : State) : Keeps s (finishPages first k s) :=
  .of_offImage (finishPages_offImage first k s) (finishPages_books first k s)

theorem keeps_failRebuild (r : Rebuild) (s : State) : Keeps s (failRebuild r s) := .of_roster rfl rfl rfl

theorem keeps_copySlice (s : State) : Keeps s (copySlice s) := by
  have copied := keeps_copyPages (min slicePages (s.change.pages - s.change.copyCursor)) s
  unfold copySlice
  dsimp only
  generalize copyPages (min slicePages (s.change.pages - s.change.copyCursor)) s = u at copied ⊢
  generalize min slicePages (s.change.pages - s.change.copyCursor) = k
  have moved : Keeps s { u with change := { u.change with copyCursor := u.change.copyCursor + k } } :=
    copied.trans (.of_roster rfl rfl rfl)
  split
  · exact moved
  · exact .ite _ moved (.ite _ (moved.trans (keeps_failRebuild _ _)) (moved.trans (.of_roster rfl rfl rfl)))

theorem keeps_finishSlice (r : Rebuild) (s : State) : Keeps s (finishSlice r s) := by
  have finished := keeps_finishPages r.finished (min slicePages (r.pages - r.finished)) s
  unfold finishSlice
  dsimp only
  generalize finishPages r.finished (min slicePages (r.pages - r.finished)) s = u at finished ⊢
  split
  · exact finished
  · refine .ite _ (finished.trans (.of_roster rfl rfl rfl)) (.ite _ (finished.trans (keeps_failRebuild _ u)) ?_)
    exact (switch_keeps (u := swapTo _ u) rfl rfl).trans (keeps_completeAfterSummary _ _ _)

theorem keeps_nextSlice (r : Rebuild) (s : State) : Keeps s (nextSlice r s) := by
  unfold nextSlice
  split
  · exact .of_roster rfl rfl rfl
  · exact keeps_copySlice s
  · exact keeps_finishSlice r s

theorem rebuildSlice_keeps {s t : State} (run : execRebuildSlice s = .next t) : Keeps s t := by
  unfold execRebuildSlice at run
  refine scheduled_keeps run ?_
  split
  · exact .ite _ ((keeps_nextSlice _ s).trans (.of_roster rfl rfl rfl)) (.refl s)
  · exact .refl s

/-! ### The edition manager and the clock -/

theorem keeps_editionsChanged (s : State) : Keeps s (editionsChanged s) := .of_fixed (editionsChanged_fixed s) (editionsChanged_held s)

theorem keeps_withdrawPending (s : State) : Keeps s (withdrawPending s) := by
  have emptied : Keeps s (want summaryRec (emptyPending s)) := .of_roster rfl rfl rfl
  refine emptied.trans (Keeps.trans ?_ (keeps_editionsChanged _))
  exact .of_fixed ((endGroups_fixed _ _).trans (abandonWhere_fixed _ _)) ((endGroups_held _ _).trans (abandonWhere_held _ _))

theorem keeps_endLoad (l : Load) (s : State) : Keeps s (endLoad l s) := by
  have loaded (p : PendingSlot) : Keeps s (want summaryRec (setLoad none (setPending p s))) := .of_roster rfl rfl rfl
  unfold endLoad
  dsimp only
  refine Keeps.trans ?_ ((keeps_editionTests _).trans (keeps_completeAfterSummary _ _ _))
  exact (loaded _).trans (keeps_editionsChanged _)

theorem keeps_failLoad (l : Load) (s : State) : Keeps s (failLoad l s) := by
  unfold failLoad
  refine Keeps.trans ?_ ((keeps_editionTests _).trans (keeps_completeAfterSummary _ _ _))
  exact .of_roster rfl rfl rfl

theorem keeps_writeProduct (l : Load) (p : Product) (s : State) : Keeps s (writeProduct l p s) :=
  .of_offImage (mem_offImage s _) rfl

theorem keeps_closePage (page products : Nat) (s : State) : Keeps s (closePage page products s) := .of_roster rfl rfl rfl

theorem keeps_storeProduct (l : Load) (p : Product) (s : State) : Keeps s (storeProduct l p s) := by
  have closed (c : Prop) [Decidable c] :
      Keeps s (if c then closePage (l.next / 15) (l.next % 15 + 1) (writeProduct l p s) else writeProduct l p s) :=
    .ite _ ((keeps_writeProduct l p s).trans (keeps_closePage _ _ _)) (keeps_writeProduct l p s)
  unfold storeProduct
  dsimp only
  exact .ite _ ((closed _).trans (keeps_endLoad _ _)) ((closed _).trans (.of_roster rfl rfl rfl))

theorem loadEdition_keeps {s t : State} {x : Strip} (run : execLoadEdition x s = .next t) : Keeps s t := by
  unfold execLoadEdition at run
  refine scheduled_keeps run (.ite _ ?_ (.refl s))
  have taken := keeps_takeUp x .edition s
  have withdrawn (c : Prop) [Decidable c] :
      Keeps s (if c then withdrawPending (takeUp x .edition s) else takeUp x .edition s) :=
    .ite _ (taken.trans (keeps_withdrawPending _)) taken
  dsimp only
  split
  · exact .ite _ ((withdrawn _).trans (keeps_completeAfterSummary _ _ _)) ((withdrawn _).trans (keeps_completeRequest _ _ _))
  · exact (withdrawn _).trans (.of_roster rfl rfl rfl)

theorem productRecord_keeps {s t : State} (run : execProductRecord s = .next t) : Keeps s t := by
  unfold execProductRecord at run
  refine scheduled_keeps run ?_
  split
  · exact .ite _ (.ite _ (keeps_failLoad _ s) (keeps_storeProduct _ _ s)) (.refl s)
  · exact .refl s

theorem rescheduleEdition_keeps {s t : State} {x : Strip} (run : execRescheduleEdition x s = .next t) : Keeps s t := by
  unfold execRescheduleEdition at run
  refine scheduled_keeps run (.ite _ ?_ (.refl s))
  have taken := keeps_takeUp x .edition s
  refine .ite _ ?_ (taken.trans (keeps_completeRequest _ _ _))
  refine Keeps.trans ?_ ((keeps_editionTests _).trans (keeps_completeAfterSummary _ _ _))
  exact taken.trans (.of_roster rfl rfl rfl)

theorem withdrawEdition_keeps {s t : State} {x : Strip} (run : execWithdrawEdition x s = .next t) : Keeps s t := by
  unfold execWithdrawEdition at run
  refine scheduled_keeps run (.ite _ ?_ (.refl s))
  have taken := keeps_takeUp x .edition s
  exact .ite _ (taken.trans ((keeps_withdrawPending _).trans (keeps_completeAfterSummary _ _ _)))
    (taken.trans (keeps_completeRequest _ _ _))

theorem keeps_clockNotice (s : State) : Keeps s (clockNotice s) := by
  unfold clockNotice
  exact .ite _ (keeps_raiseAfter _ _ s) (.ite _ (.refl s) (.of_roster rfl rfl rfl))

theorem keeps_queuePurge (s : State) : Keeps s (queuePurge s) := by
  unfold queuePurge
  split
  · exact .refl s
  · split
    · exact .of_roster rfl rfl rfl
    · exact .refl s

theorem keeps_serviceDayEffects (old : Option Nat) (s : State) : Keeps s (serviceDayEffects old s) := by
  have noted := (keeps_queuePurge s).trans (keeps_clockNotice _)
  unfold serviceDayEffects
  dsimp only
  split
  · exact noted
  · exact .ite _ noted (.ite _ (keeps_clockNotice s) (.refl s))

theorem setClock_keeps {s t : State} {x : Strip} (run : execSetClock x s = .next t) : Keeps s t := by
  unfold execSetClock at run
  refine scheduled_keeps run (.ite _ ?_ (.refl s))
  have taken := keeps_takeUp x .edition s
  refine .ite _ (taken.trans (keeps_completeRequest _ _ _)) ?_
  refine Keeps.trans ?_ ((keeps_editionTests _).trans (keeps_completeAfterSummary _ _ _))
  have set (c : Clock) : Keeps s { takeUp x .edition s with clock := c } := taken.trans (.of_roster rfl rfl rfl)
  exact (set _).trans ((keeps_serviceDayEffects _ _).trans (.of_roster rfl rfl rfl))

theorem keeps_tickTests (s : State) : Keeps s (tickTests s) := by
  unfold tickTests
  exact .ite _ (keeps_editionTests s) (.ite _ (.of_roster rfl rfl rfl) (.refl s))

theorem keeps_tickClock (s : State) : Keeps s (tickClock s) := by
  have ticked : Keeps s { s with clock := s.clock.tick } := .of_roster rfl rfl rfl
  have served := ticked.trans (keeps_serviceDayEffects (some s.clock.serviceDay) _)
  unfold tickClock
  dsimp only
  generalize serviceDayEffects (some s.clock.serviceDay) { s with clock := s.clock.tick } = u at served ⊢
  have wanted : Keeps s (if u.running then want summaryRec u else u) := .ite _ (served.trans (keeps_want _ u)) served
  have tested := wanted.trans (keeps_tickTests _)
  exact .ite _ (tested.trans (.of_roster rfl rfl rfl)) tested

theorem minuteTick_keeps {s t : State} (run : execMinuteTick s = .next t) : Keeps s t := by
  unfold execMinuteTick at run
  refine scheduled_keeps run (.ite _ (.ite _ ?_ (keeps_tickClock s)) (.refl s))
  have stopped : Keeps s { s with clock := { s.clock with stopped := true } } := .of_roster rfl rfl rfl
  exact .ite _ (.refl s) (stopped.trans (keeps_raise .clock _))

/-! ### Registers, report and engine -/

theorem controlWrite_keeps {s t : State} {v : Word} (run : controlWrite v s = .next t) : Keeps s t := by
  unfold controlWrite at run
  split at run
  · cases run
    exact .refl s
  · split at run
    · cases run
      exact keeps_coldStart _ s
    · split at run
      · cases run
        exact .refl s
      · exact scheduled_keeps run (keeps_takeRun _ s)

theorem kick_keeps {s t : State} {v : Word} (run : execKick v s = .next t) : Keeps s t :=
  scheduled_keeps run (.ite _ (keeps_visitBoth s) (.refl s))

theorem registerPort_keeps {s t : State} {o v : Word} (run : registerPort o v s = .next t) : Keeps s t := by
  have next {u : State} (h : (Host.Outcome.next u : Out) = .next t) (kept : Keeps s u) : Keeps s t := by
    cases h
    exact kept
  have registers : ∀ u : Regs, Keeps s { s with regs := u } := fun _ => .of_roster rfl rfl rfl
  unfold registerPort at run
  split at run
  · exact controlWrite_keeps run
  · split at run
    · exact kick_keeps run
    · split at run
      · exact next run (.ite _ (.refl s) (registers _))
      · split at run
        · exact next run (.ite _ (.refl s) (registers _))
        · exact next run (.ite _ (.refl s) (.ite _ (registers _) (.refl s)))

theorem drainComplete_keeps {s t : State} (run : execDrainComplete s = .next t) : Keeps s t := by
  unfold execDrainComplete at run
  refine scheduled_keeps run ?_
  split
  · next ready =>
    have halts : Keeps s (halted s) := keeps_halted (by rw [State.isFaulted, ready.1])
    have healthy := halted_healthy s
    dsimp only
    generalize halted s = u at halts healthy ⊢
    exact .ite _ (halts.trans (keeps_resume healthy)) halts
  · exact .refl s

theorem reportRewrite_keeps {s t : State} {r : Fin 29} (run : execReportRewrite r s = .next t) : Keeps s t := by
  unfold execReportRewrite at run
  refine recorded_keeps run (.ite _ ?_ (.refl s))
  have rewritten := keeps_rewriteRecord r s
  dsimp only
  generalize rewriteRecord r s = u at rewritten ⊢
  exact .ite _ (rewritten.trans (.of_fixed (boundaries_fixed u) (boundaries_held u))) rewritten

theorem keeps_fault (c : FaultCause) (s : State) : Keeps s (fault c s) :=
  ⟨fun gen ok => ⟨⟨gen.1, fun _ up => nomatch up⟩, ok⟩, id⟩

theorem descriptorRead_keeps {s t : State} (run : execDescriptorRead s = .next t) : Keeps s t := by
  unfold execDescriptorRead at run
  exact recorded_keeps run (.ite _ (.ite _ (.of_roster rfl rfl rfl) (keeps_fault _ s)) (.refl s))

theorem startingEnd_keeps {s t : State} (run : execStartingEnd s = .next t) : Keeps s t := by
  unfold execStartingEnd at run
  refine scheduled_keeps run ?_
  split
  · next ready =>
    have healthy : s.isFaulted = false := by rw [State.isFaulted, ready.1]
    exact (keeps_entered healthy).trans (keeps_startStrips _)
  · exact .refl s

/-! ### What stands before a failing access -/

theorem keeps_atEntry (s : State) : Keeps s s.atEntry := by
  unfold State.atEntry
  split
  · next engine => exact .ite _ (keeps_entered (by rw [State.isFaulted, engine])) (.refl s)
  · next engine =>
    have set : Keeps s { s with regs := { s.regs with run := true } } := .of_roster rfl rfl rfl
    exact set.trans (keeps_resumed (by simp [State.isFaulted, engine]))
  · next engine =>
    have halts : Keeps s (halted s) := keeps_halted (by rw [State.isFaulted, engine])
    exact .ite _ (halts.trans (keeps_resumed (halted_healthy s))) (.refl s)
  all_goals exact .refl s

theorem keeps_reach (t : Strip) (s : State) : Keeps s (reach t s) := by
  have entry := keeps_atEntry s
  unfold reach
  split
  · exact entry
  · exact .ite _ (entry.trans (.of_offStrip (visit_offStrip .priority _))) entry

theorem keeps_beforeOutcome (t : Strip) (s : State) : Keeps s (beforeOutcome t s) := by
  have written := keeps_writeRecord summaryRec 3 s
  unfold beforeOutcome
  generalize writeRecord summaryRec 3 s = u at written ⊢
  generalize countRewrite summaryRec s.report = report
  dsimp only
  generalize (released summaryRec { u with report := report }).1.takeWhile (fun w => !w.isOutcome t) = ws
  have counted (w : List Waiting) : Keeps u { u with report := { report with waiting := w } } := .of_roster rfl rfl rfl
  exact written.trans ((counted _).trans (.foldl keeps_give ws _))

theorem requestResult_keeps {s u : State} {t : Strip} {r : Result} (due : s.requestResult t = some (u, r)) : Keeps s u := by
  unfold State.requestResult at due
  split at due
  · split at due
    · split at due
      · next answer kind =>
        have kept := keeps_answer kind ‹Request› s
        rw [Option.some.inj due] at kept
        exact kept
      · obtain ⟨o, -, same⟩ := Option.map_eq_some_iff.1 due
        cases same
        exact .refl s
    · cases due
  · cases due

theorem heldResult_keeps {s u : State} {t : Strip} {r : Result} (due : s.heldResult t = some (u, r)) : Keeps s u := by
  unfold State.heldResult at due
  split at due
  · next b running =>
    split at due
    · have kept := keeps_item running
      dsimp only at due
      generalize itemDone (applyNext b s).2 (applyNext b s).1 = v at kept due
      obtain ⟨b', -, same⟩ := Option.bind_eq_some_iff.1 due
      split at same
      · cases same
        exact kept
      · cases same
    · exact requestResult_keeps due
  · exact requestResult_keeps due

theorem resultDue_keeps {s u : State} {t : Strip} {notify : Bool} {r : Result}
    (due : s.resultDue t = some (u, notify, r)) : Keeps s u := by
  unfold State.resultDue at due
  split at due
  · split at due
    · dsimp only at due
      split at due
      · cases due
      · cases due
        exact (keeps_beforeOutcome t s).trans (keeps_deferredTests t _)
    · obtain ⟨x, held, same⟩ := Option.map_eq_some_iff.1 due
      cases same
      exact heldResult_keeps held
  · split at due
    · cases due
      exact .of_roster rfl rfl rfl
    · cases due

theorem keeps_afterCompletions (t : Strip) : ∀ (done : Nat) (s : State), Keeps s (afterCompletions t done s)
  | 0, s => .refl s
  | done + 1, s => by
    unfold afterCompletions
    split
    · next due =>
      exact (resultDue_keeps due).trans ((Keeps.of_offStrip (finish_offStrip t _ _ _)).trans (keeps_afterCompletions t done _))
    · exact .refl s

/-- The same books and the same recorded H. -/
structure Alike (u v : State) : Prop where
  books : v.change.books = u.change.books
  held : v.held = u.held

theorem stampPage_alike (urgent : Bool) (p : Nat) (s : State) : Alike s (stampPage urgent p s) := by
  unfold stampPage
  dsimp only
  split
  · exact ⟨rfl, rfl⟩
  · next r here =>
    refine ⟨?_, rfl⟩
    have crcs := set_map_crc s.change.table p here
      (r' := { r with stamp := s.change.gen, hot := if urgent then s.change.gen else r.hot }) rfl
    simp only [ChangeEngine.books, crcs]

/-- The account where a part has just failed: G bounded, H bounded by it, and the digest. -/
structure Bounded (s u : State) : Prop where
  counts : s.genOk → s.heldOk → u.change.gen ≤ Config.spentG ∧ u.heldOk
  digest : s.digestOk → u.digestOk

theorem Keeps.bounded {s u : State} (kept : Keeps s u) : Bounded s u :=
  ⟨fun gen ok => (kept.counts gen ok).imp_left And.left, kept.digest⟩

theorem Bounded.faulted {s u : State} (bounded : Bounded s u) (c : FaultCause) : Keeps s (fault c u) :=
  ⟨fun gen ok => (bounded.counts gen ok).imp_left fun limit => ⟨limit, fun _ up => nomatch up⟩, bounded.digest⟩

theorem Keeps.trans_bounded {s u v : State} (kept : Keeps s u) (bounded : Bounded u v) : Bounded s v :=
  ⟨fun gen ok => (kept.counts gen ok).elim bounded.counts, bounded.digest ∘ kept.digest⟩

theorem Bounded.trans {s u v : State} (bounded : Bounded s u) (same : Alike u v) : Bounded s v := by
  refine ⟨fun gen ok => ?_, digestOk_of same.books ∘ bounded.digest⟩
  obtain ⟨limit, held⟩ := bounded.counts gen ok
  have books := same.books
  simp only [ChangeEngine.books, Prod.mk.injEq] at books
  obtain ⟨identity, gen, -⟩ := books
  exact ⟨by rwa [gen], heldOk_of same.held identity gen held⟩

theorem partialHeaders_bounded (urgent : Bool) (changed : List Nat) (done : Nat) {s : State}
    (room : s.genOk → s.change.gen < Config.spentG) : Bounded s (partialHeaders urgent changed done s) := by
  have raised := bringUpAll_raised urgent (changed.take done) s
  have bounded : Bounded s (bringUpAll urgent (changed.take done) (raiseG s)) :=
    ⟨fun gen ok => raised.counts (room gen) ok, raised.digest⟩
  unfold partialHeaders
  dsimp only
  generalize bringUpAll urgent (changed.take done) (raiseG s) = u at bounded ⊢
  split
  · exact bounded.trans (stampPage_alike urgent _ u)
  · exact bounded

theorem keeps_partialFormat (t : Strip) (done : Nat) (s : State) : Keeps s (partialFormat t done s) := by
  have taken := keeps_takeUp t .change s
  unfold partialFormat
  exact .ite _ (.ite _ (taken.trans (.of_roster rfl rfl rfl)) taken) (.refl s)

theorem keeps_partialSlice (done : Nat) (s : State) : Keeps s (partialSlice done s) := by
  unfold partialSlice
  split
  · exact .refl s
  · refine .ite _ (.refl s) ?_
    split
    · exact .of_roster rfl rfl rfl
    · exact keeps_copyPages _ s
    · exact keeps_finishPages _ _ s

theorem purged_spent (s : State) :
    (purgePages (takePurge s).clock.serviceDay (takePurge s).change.pages (takePurge s)).1.spent = s.spent := by
  have books := purgePages_books (takePurge s).clock.serviceDay (takePurge s).change.pages (takePurge s)
  generalize (purgePages (takePurge s).clock.serviceDay (takePurge s).change.pages (takePurge s)).1 = u at books ⊢
  obtain ⟨x, same⟩ := takePurge_eq s
  simp only [ChangeEngine.books, same, Prod.mk.injEq] at books
  obtain ⟨-, gen, -⟩ := books
  rw [State.spent, gen, State.spent]

theorem beforeError_bounded (a : Access) {s : State} (healthy : s.isFaulted = false) : Bounded s (beforeError a s) := by
  have reached (t : Strip) (k : Nat) : Keeps s (afterCompletions t k (reach t s)) :=
    (keeps_reach t s).trans (keeps_afterCompletions t k _)
  have purged (sd k : Nat) : Keeps s (purgePages sd k (takePurge s)).1 := (keeps_takePurge s).trans (keeps_purgePages sd k _)
  have room {b : Batch} (running : s.change.batch = some b) (gen : s.genOk) : s.change.gen < Config.spentG :=
    gen.2 (by rw [running]; rfl) healthy
  cases a with
  | markRead t done => exact (reached t done).bounded
  | takenWrite t done => exact (reached t done).bounded
  | requestRead t done => exact Keeps.bounded (.ite _ ((reached t done).trans (.of_roster rfl rfl rfl)) (reached t done))
  | completionWrite t done stage =>
    simp only [beforeError]
    split
    · next due =>
      have kept := (reached t done).trans (resultDue_keeps due)
      exact (kept.trans (.of_offStrip (writeCompletion_offStrip t _ _ _ _))).bounded
    · exact (reached t done).bounded
  | mirrorPage =>
    simp only [beforeError]
    split
    · next running =>
      exact (Keeps.ite _ (.of_offImage (applyLive_offImage _ s) (applyLive_books running)) (.refl s)).bounded
    · exact (Keeps.refl s).bounded
  | mirrorHeader =>
    simp only [beforeError]
    split
    · next running =>
      refine (Keeps.ite _ ?_ (.refl s)).bounded
      exact .of_offImage ((mirror_offImage _ _ _).trans (applyLive_offImage _ s))
        ((mirror_books _ _ _).trans (applyLive_books running))
    · exact (Keeps.refl s).bounded
  | itemOutcome =>
    simp only [beforeError]
    split
    · next running =>
      exact (Keeps.ite _ (.of_offImage (applyNext_offImage _ s) (applyNext_books running)) (.refl s)).bounded
    · exact (Keeps.refl s).bounded
  | batchHeader done =>
    simp only [beforeError]
    split
    · next running =>
      split
      · exact partialHeaders_bounded _ _ done (room running)
      · exact (Keeps.refl s).bounded
    · exact (Keeps.refl s).bounded
  | formatPage t done => exact (keeps_partialFormat t done s).bounded
  | purgePage done => exact Keeps.bounded (.ite _ (purged _ done) (.refl s))
  | purgeHeader done =>
    simp only [beforeError]
    split
    · next ready =>
      split
      · exact (purged _ _).bounded
      · refine (purged _ _).trans_bounded (partialHeaders_bounded false _ done fun ok => room_of_spent ?_ ok.1)
        simp only [Bool.and_eq_true, Bool.not_eq_true'] at ready
        rw [← ready.2]
        exact purged_spent s
    · exact (Keeps.refl s).bounded
  | rebuildPage done => exact (keeps_partialSlice done s).bounded
  | editionClose =>
    simp only [beforeError]
    split
    · exact (Keeps.ite _ (keeps_writeProduct _ _ s) (.refl s)).bounded
    · exact (Keeps.refl s).bounded
  | reportWrite r stage =>
    have flushed := keeps_flushRecords s
    obtain ⟨engine, -⟩ := of_spine (flushRecords_spine s)
    simp only [beforeError]
    generalize flushRecords s = u at flushed engine ⊢
    refine (Keeps.ite _ (keeps_writeRecord r _ s) (.ite _ ?_ (.refl s))).bounded
    have stopped : Keeps u { u with engine := .haltedResumable } :=
      .of_books rfl rfl ((isFaulted_of_engine engine).trans healthy).symm
    exact flushed.trans (stopped.trans (keeps_writeRecord _ _ _))
  | descriptorRead | itemRead | itemPage | productRead | editionPage | framePage => exact (Keeps.refl s).bounded

theorem memoryError_keeps {s t : State} {a : Access} (run : execMemoryError a s = .next t) : Keeps s t := by
  unfold execMemoryError at run
  refine recorded_keeps run ?_
  split
  · next access =>
    have healthy : s.isFaulted = false := by
      cases up : s.isFaulted with
      | false => rfl
      | true => rw [canAccess_of_faulted up] at access; cases access
    exact (beforeError_bounded a healthy).faulted .memory
  · exact .refl s

/-- Every command keeps the account of generations and the digest. -/
theorem exec_keeps {c : Instr} {s t : State} (run : exec c s = .next t) : Keeps s t := by
  cases line : lineCmd c with
  | true =>
    obtain ⟨u, run', fixed⟩ := exec_fixed line s
    rw [run] at run'
    cases run'
    obtain ⟨-, engine, -, -, -, change, -⟩ := of_fixed fixed
    refine ⟨fun gen ok => ⟨?_, exec_heldOk line run ok⟩, digestOk_of (by rw [change])⟩
    rw [State.genOk, change, isFaulted_of_engine engine]
    exact gen
  | false =>
    unfold exec at run
    cases c with
    | powerOn => cases run; exact keeps_coldStart _ s
    | resetPinLow => cases run; exact .of_roster rfl rfl rfl
    | run v => exact controlWrite_keeps run
    | restart v => exact controlWrite_keeps run
    | registerWrite o v st =>
      have stored : Keeps s { s with mem := Memory.storeAll s.mem st } := .of_roster rfl rfl rfl
      exact stored.trans (registerPort_keeps run)
    | kick v => exact kick_keeps run
    | eventsClear v => cases run; exact .ite _ (.refl s) (.of_roster rfl rfl rfl)
    | evmaskWrite v => cases run; exact .ite _ (.refl s) (.of_roster rfl rfl rfl)
    | descriptorRead => exact descriptorRead_keeps run
    | startingEnd => exact startingEnd_keeps run
    | drainComplete => exact drainComplete_keeps run
    | memoryError a => exact memoryError_keeps run
    | scanIntervalExpiry => exact scheduled_keeps run (.ite _ ((keeps_visitBoth s).trans (.of_roster rfl rfl rfl)) (.refl s))
    | applyChanges x => exact applyChanges_keeps run
    | changeItem => exact changeItem_keeps run
    | batchEnd => exact batchEnd_keeps run
    | formatImage x => exact formatImage_keeps run
    | formatSwitch => exact formatSwitch_keeps run
    | rebuildImage x => exact rebuildImage_keeps run
    | rebuildSlice => exact rebuildSlice_keeps run
    | purgeJob => exact purgeJob_keeps run
    | loadEdition x => exact loadEdition_keeps run
    | productRecord => exact productRecord_keeps run
    | rescheduleEdition x => exact rescheduleEdition_keeps run
    | withdrawEdition x => exact withdrawEdition_keeps run
    | setClock x => exact setClock_keeps run
    | minuteTick => exact minuteTick_keeps run
    | pinSlot x => exact atOnce_keeps (k := Kind.pinSlot) run rfl
    | freeSlot x => exact atOnce_keeps (k := Kind.freeSlot) run rfl
    | releaseSlot x => exact atOnce_keeps (k := Kind.releaseSlot) run rfl
    | resyncSlot x => exact atOnce_keeps (k := Kind.resyncSlot) run rfl
    | clearCounters x => exact atOnce_keeps (k := Kind.clearCounters) run rfl
    | setLine x => exact atOnce_keeps (k := Kind.setLine) run rfl
    | setProfile x => exact atOnce_keeps (k := Kind.setProfile) run rfl
    | reportRewrite r => exact reportRewrite_keeps run
    | _ => cases line

/-- With no command queued the account is untouched: the passing of time changes timers and the clock. -/
theorem idle_keeps (s : State) : Keeps s (idle s) := by
  unfold idle
  split
  · exact .refl s
  · split
    · exact .of_roster rfl rfl rfl
    · refine .of_books rfl (Vector.ext fun i _ => ?_) rfl
      simp [State.held, State.passed, State.slotElapsed, State.slot]

/-- Settles O60: each command is a walk through operations that keep the account; G rises only at the end of a batch and of
a purge job. -/
theorem generationsKept : Obligations.GenerationsKept := by
  intro s t run
  have kept : Keeps s t := by
    unfold step at run
    split at run
    · cases run
      exact idle_keeps s
    · next c rest _ =>
      have popped : Keeps s { s with pending := rest } := .of_roster rfl rfl rfl
      exact popped.trans (exec_keeps run)
  exact ⟨kept.counts, kept.digest⟩

end Sys2Proof.Machine

/-!
What an exchange boundary leaves alone in the scheduler: the marks of the slots, and what an arbiter has due.
-/
namespace Sys2Proof.Machine

/-- The marks of every slot and, line by line, the ACTIVATE and the discovery visit due: no boundary changes them. -/
def State.dues (s : State) : Vector Marks 24 × Vector (Option (BitVec 16) × Bool) 4 :=
  (s.sched.marks, s.sched.arbiters.map fun a => (a.activateDue, a.discoveryDue))

theorem State.marks_of_dues {s u : State} (same : u.dues = s.dues) (n : Fin 24) : u.marks n = s.marks n :=
  congrArg (fun x : Vector Marks 24 × Vector (Option (BitVec 16) × Bool) 4 => x.1[n]) same

theorem State.arbiter_of_dues {s u : State} (same : u.dues = s.dues) (l : Fin 4) :
    (u.arbiter l).activateDue = (s.arbiter l).activateDue ∧ (u.arbiter l).discoveryDue = (s.arbiter l).discoveryDue := by
  have line := congrArg (fun x : Vector Marks 24 × Vector (Option (BitVec 16) × Bool) 4 => x.2[l]) same
  simp only [State.dues, Fin.getElem_fin, Vector.getElem_map] at line
  exact ⟨congrArg Prod.fst line, congrArg Prod.snd line⟩

theorem dues_modArbiter (s : State) (l : Fin 4) (f : Arbiter → Arbiter)
    (keeps : ∀ a, (f a).activateDue = a.activateDue ∧ (f a).discoveryDue = a.discoveryDue) :
    (s.modArbiter l f).dues = s.dues := by
  refine Prod.ext rfl (Vector.ext fun i hi => ?_)
  simp only [State.dues, State.modArbiter, Vector.getElem_map, Vector.getElem_set]
  split
  · next e =>
    subst e
    exact Prod.ext (keeps _).1 (keeps _).2
  · rfl

@[simp] theorem modPort_dues (s : State) (l : Fin 4) (f : Port → Port) : (s.modPort l f).dues = s.dues := rfl
@[simp] theorem setGroups_dues (s : State) (gs : List Group) : (s.setGroups gs).dues = s.dues := rfl
@[simp] theorem setDelivery_dues (s : State) (n : Fin 24) (d : Option Delivery) : (s.setDelivery n d).dues = s.dues := rfl
@[simp] theorem setSweep_dues (s : State) (n : Fin 24) (w : Sweep) : (s.setSweep n w).dues = s.dues := rfl
@[simp] theorem unlist_dues (s : State) (n : Fin 24) : (unlist n s).dues = s.dues := rfl
@[simp] theorem withdraw_dues (s : State) (n : Fin 24) (p : Work → Bool) (d : Bool) : (withdraw n p d s).dues = s.dues := rfl
@[simp] theorem cutShort_dues (s : State) (n : Fin 24) : (cutShort n s).dues = s.dues := rfl
@[simp] theorem handOver_dues (s : State) (l : Fin 4) (w : Work) : (handOver l w s).dues = s.dues := rfl

@[simp] theorem endTurns_dues (s : State) (t : Target) : (endTurns t s).dues = s.dues := by
  refine Prod.ext rfl (Vector.ext fun i hi => ?_)
  simp only [State.dues, endTurns, Vector.getElem_map]
  split
  · split <;> rfl
  · rfl

@[simp] theorem tendGroups_dues (s : State) : (tendGroups s).dues = s.dues := by
  simp only [tendGroups, setGroups_dues]
  exact foldl_keeps State.dues _ (fun s g => endTurns_dues s _) _ _

@[simp] theorem leaveGroup_dues (s : State) (n : Fin 24) : (leaveGroup n s).dues = s.dues := by simp [leaveGroup]

@[simp] theorem dropDelivery_dues (s : State) (n : Fin 24) : (dropDelivery n s).dues = s.dues := by
  unfold dropDelivery; split <;> simp

@[simp] theorem endDelivery_dues (s : State) (n : Fin 24) : (endDelivery n s).dues = s.dues := by
  unfold endDelivery
  split
  · split <;> simp
  · rfl

@[simp] theorem abandon_dues (s : State) (n : Fin 24) : (abandon n s).dues = s.dues := by simp [abandon]

@[simp] theorem clearWay_dues (s : State) (c : Cls) (w : Work) : (clearWay c w s).dues = s.dues := by
  unfold clearWay
  split
  · simp
  · split <;> simp
  · rfl

@[simp] theorem newTurn_dues (s : State) (l : Fin 4) (c : Cls) (p : Option Nat) (ch : Choice) :
    (newTurn l c p ch s).dues = s.dues := by
  have lg := forSlots_keeps State.dues leaveGroup (fun n s => leaveGroup_dues s n)
  have turn (s : State) (f : Arbiter → Option Turn × Pointers) :
      (s.modArbiter l fun a => { a with turn := (f a).1, pointers := (f a).2 }).dues = s.dues :=
    dues_modArbiter _ _ _ fun _ => ⟨rfl, rfl⟩
  unfold newTurn
  simp only
  split
  · simp [lg, turn _ fun a => (_, _)]
  · split <;> simp [turn _ fun a => (_, _)]

@[simp] theorem arbitrate_dues (s : State) (l : Fin 4) : (arbitrate l s).dues = s.dues := by
  unfold arbitrate
  split
  · split
    · exact dues_modArbiter _ _ _ fun _ => ⟨rfl, rfl⟩
    · split
      · split
        · split <;> simp
        · simp
      · simp
  · rfl

@[simp] theorem boundaries_dues (s : State) : (boundaries s).dues = s.dues :=
  forLines_keeps State.dues _ (fun l s => arbitrate_dues s l) _ _

end Sys2Proof.Machine

/-!
The expiries of the timers (O38) and the echo of a loop (O45).
-/
namespace Sys2Proof.Machine

/-! ### Vectors set member by member -/

/-- Setting every member of a vector in turn, each by its own old value, is the vector of the new values. -/
theorem foldl_set {α : Type} {k : Nat} (g : Fin k → α → α) (v : Vector α k) :
    (List.finRange k).foldl (fun v i => v.set i (g i v[i])) v = Vector.ofFn fun i => g i v[i] := by
  have go : ∀ (is : List (Fin k)) (_ : is.Nodup) (v : Vector α k) (j : Fin k),
      (is.foldl (fun v i => v.set i (g i v[i])) v)[j] = if j ∈ is then g j v[j] else v[j] := by
    intro is
    induction is with
    | nil => exact fun _ _ _ => rfl
    | cons i is ih =>
      intro nodup v j
      obtain ⟨fresh, rest⟩ := List.nodup_cons.1 nodup
      rw [List.foldl_cons, ih rest]
      by_cases here : i = j
      · subst here
        simp [fresh]
      · have apart : i.val ≠ j.val := fun e => here (Fin.ext e)
        simp [Ne.symm here, apart]
  refine Vector.ext fun j hj => ?_
  have own := go (List.finRange k) (List.nodup_finRange k) v ⟨j, hj⟩
  rw [if_pos (List.mem_finRange _)] at own
  rw [Vector.getElem_ofFn]
  exact own

/-- A fold over the slots that changes each slot by itself. -/
theorem forSlots_modSlot (g : Fin 24 → Slot → Slot) (s : State) :
    forSlots (fun n s => s.modSlot n (g n)) allSlots s =
      { s with roster := { s.roster with slots := Vector.ofFn fun n => g n (s.slot n) } } := by
  have go : ∀ (ns : List (Fin 24)) (s : State), forSlots (fun n s => s.modSlot n (g n)) ns s =
      { s with roster := { s.roster with
          slots := ns.foldl (fun v (n : Fin 24) => v.set n (g n v[n])) s.roster.slots } } := by
    intro ns
    induction ns with
    | nil => exact fun _ => rfl
    | cons n ns ih => exact fun s => (ih (s.modSlot n (g n))).trans rfl
  rw [go, allSlots, foldl_set]
  rfl

theorem State.modArbiter_same (s : State) (l : Fin 4) (f : Arbiter → Arbiter) (same : f (s.arbiter l) = s.arbiter l) :
    s.modArbiter l f = s := by
  have arbiters : s.sched.arbiters.set l (f (s.arbiter l)) = s.sched.arbiters := by
    rw [same]
    exact Vector.set_getElem_self _
  rw [State.modArbiter, arbiters]

/-- A fold over the lines that changes each arbiter by itself. -/
theorem forLines_modArbiter (g : Fin 4 → Arbiter → Arbiter) (s : State) :
    forLines (fun l s => s.modArbiter l (g l)) allLines s =
      { s with sched := { s.sched with arbiters := Vector.ofFn fun l => g l (s.arbiter l) } } := by
  have go : ∀ (ls : List (Fin 4)) (s : State), forLines (fun l s => s.modArbiter l (g l)) ls s =
      { s with sched := { s.sched with
          arbiters := ls.foldl (fun v (l : Fin 4) => v.set l (g l v[l])) s.sched.arbiters } } := by
    intro ls
    induction ls with
    | nil => exact fun _ => rfl
    | cons l ls ih => exact fun s => (ih (s.modArbiter l (g l))).trans rfl
  rw [go, allLines, foldl_set]
  rfl

/-- A state settled with respect to one is settled with respect to another that differs in timers of line records only. -/
theorem Settled.of_ports {u t : State} (settled : Settled u t) (ps : Vector Port 4)
    (core : ∀ l : Fin 4, ps[l].core = (u.port l).core) (exchange : ∀ l : Fin 4, ps[l].exchange = (u.port l).exchange) :
    Settled { u with ports := ps } t := by
  have ready (l : Fin 4) : ({ u with ports := ps } : State).portReady l = u.portReady l := by
    have same {α : Type} (f : Port → α) (k : Fin 4) : f ps[k].core = f (u.port k).core := congrArg f (core k)
    have mode (k : Fin 4) : ps[k].mode = (u.port k).mode := same Port.mode k
    have applied (k : Fin 4) : ps[k].applied = (u.port k).applied := same Port.applied k
    have forming : ps[l].forming = (u.port l).forming := same Port.forming l
    have xstate : ps[l].xstate = (u.port l).xstate := same Port.xstate l
    have port (k : Fin 4) : ({ u with ports := ps } : State).port k = ps[k] := rfl
    simp only [State.portReady, State.running, State.lineOn, port, mode, applied, forming, xstate, exchange]
  exact { settled with
    ports := fun l => (settled.ports l).trans (core l).symm
    quiet := fun idle => by
      obtain ⟨sched, sweeps, same⟩ := settled.quiet fun l => (ready l).symm.trans (idle l)
      exact ⟨sched, sweeps, fun l => (same l).trans (exchange l).symm⟩ }

/-! ### The timers -/

theorem State.slotLineOn_of {s : State} {n : Fin 24} {l : Fin 4} (line : s.lineOf n = some l) :
    s.slotLineOn n = s.lineOn l := by simp only [State.slotLineOn, line]

theorem execKeepaliveDue_settled {s : State} {n : Fin 24} {l : Fin 4} (high : s.resetLow = false)
    (running : s.engine = .running) (line : s.lineOf n = some l) (lineOn : s.lineOn l = true)
    (set : (s.slot n).keepalive ≠ none) :
    ∃ t, execKeepaliveDue n s = .next t ∧ Settled (s.setSlot n { s.slot n with keepalive := some 0 }) t := by
  obtain ⟨t, run, settled⟩ := scheduled_settled (s := s) (f := fun s =>
    if s.running && s.slotLineOn n && (s.slot n).keepalive.isSome then pollNow n s else s) high
  have due : (s.running && s.slotLineOn n && (s.slot n).keepalive.isSome) = true := by
    simp [State.running, running, State.slotLineOn_of line, lineOn, Option.isSome_iff_ne_none, set]
  rw [if_pos due] at settled
  exact ⟨t, run, settled⟩

theorem execBackoffExpiry_settled {s : State} (n : Fin 24) (high : s.resetLow = false) (running : s.engine = .running) :
    ∃ t, execBackoffExpiry n s = .next t ∧ Settled (s.setSlot n { s.slot n with backoff := none }) t := by
  obtain ⟨t, run, settled⟩ := scheduled_settled (s := s) (f := fun s =>
    if s.running then s.modSlot n fun v => { v with backoff := none } else s) high
  rw [if_pos (show s.running = true by simp [State.running, running])] at settled
  exact ⟨t, run, settled⟩

theorem execIdentifyDue_settled {s : State} {n : Fin 24} (high : s.resetLow = false) (running : s.engine = .running)
    (identifying : (s.slot n).state = .identifying) (set : (s.slot n).identify ≠ none) :
    ∃ t, execIdentifyDue n s = .next t ∧ Settled (s.setSlot n { s.slot n with identify := some 0 }) t := by
  obtain ⟨t, run, settled⟩ := scheduled_settled (s := s) (f := fun s =>
    if s.running && decide ((s.slot n).state = .identifying) && (s.slot n).identify.isSome then
      s.modSlot n fun v => { v with identify := some 0 }
    else s) high
  have due : (s.running && decide ((s.slot n).state = .identifying) && (s.slot n).identify.isSome) = true := by
    simp [State.running, running, identifying, Option.isSome_iff_ne_none, set]
  rw [if_pos due] at settled
  exact ⟨t, run, settled⟩

theorem execReplacementWindowClose_settled {s : State} (n : Fin 24) (high : s.resetLow = false) :
    ∃ t, execReplacementWindowClose n s = .next t ∧ Settled (s.setSlot n { s.slot n with window := none }) t :=
  recorded_settled (f := fun s => s.modSlot n fun v => { v with window := none }) high

/-- What the end of a discovery period makes of a running part (R92). -/
def State.visitsDue (s : State) : State :=
  { s with
    roster := { s.roster with visitLeft := 250 * Config.ms }
    sched := { s.sched with arbiters := Vector.ofFn fun l : Fin 4 =>
      { s.arbiter l with discoveryDue := (s.arbiter l).discoveryDue || s.lineOn l } } }

theorem execDiscoveryVisitDue_settled {s : State} (high : s.resetLow = false) (running : s.engine = .running) :
    ∃ t, execDiscoveryVisitDue s = .next t ∧
      (∀ l : Fin 4, (t.arbiter l).discoveryDue = ((s.arbiter l).discoveryDue || s.lineOn l)) ∧ Settled s.visitsDue t := by
  have period : (if s.running = true then
      forLines (fun l s => if s.lineOn l then s.modArbiter l fun a => { a with discoveryDue := true } else s) allLines
        { s with roster := { s.roster with visitLeft := visitPeriod } }
      else s) = s.visitsDue := by
    rw [if_pos (show s.running = true by simp [State.running, running])]
    have each : ∀ (ls : List (Fin 4)) (u : State), (∀ l, u.lineOn l = s.lineOn l) →
        forLines (fun l s => if s.lineOn l then s.modArbiter l fun a => { a with discoveryDue := true } else s) ls u =
        forLines (fun l u => u.modArbiter l fun a => { a with discoveryDue := a.discoveryDue || s.lineOn l }) ls u := by
      intro ls
      induction ls with
      | nil => exact fun _ _ => rfl
      | cons l ls ih =>
        intro u same
        have one : (if u.lineOn l then u.modArbiter l fun a => { a with discoveryDue := true } else u) =
            u.modArbiter l fun a => { a with discoveryDue := a.discoveryDue || s.lineOn l } := by
          rw [same]
          split
          · next on => simp only [on, Bool.or_true]
          · next off => exact (State.modArbiter_same _ _ _ (by simp only [Bool.not_eq_true] at off; simp [off])).symm
        refine (congrArg (forLines _ ls) one).trans ?_
        exact ih _ same
    refine (each _ _ fun _ => rfl : _ = forLines _ allLines { s with roster := { s.roster with visitLeft := visitPeriod } }).trans ?_
    rw [forLines_modArbiter]
    rfl
  refine ⟨_, scheduled_next high, fun l => ?_, ?_⟩
  · change ((boundaries _).arbiter l).discoveryDue = _
    rw [(State.arbiter_of_dues (boundaries_dues _) l).2]
    simp only [period, State.visitsDue, State.arbiter, Fin.getElem_fin, Vector.getElem_ofFn]
  · simp only [period]
    exact settled_boundaries _ _

/-- What the end of the record timer of line `l` does (R115). -/
def State.timerEnded (s : State) (l : Fin 4) : State := s.modPort l fun p => { p with recordTimer := none }

theorem State.timerEnded_port (s : State) (l k : Fin 4) :
    ∃ r, (s.timerEnded l).port k = { s.port k with recordTimer := r } ∧ (k = l → r = none) := by
  rw [State.timerEnded, State.modPort_port]
  split
  · next here =>
    subst here
    exact ⟨none, rfl, fun _ => rfl⟩
  · next other => exact ⟨(s.port k).recordTimer, rfl, fun here => absurd here.symm other⟩

theorem State.timerEnded_lineLater (s : State) (l k : Fin 4) : (s.timerEnded l).lineLater k = s.lineLater k := by
  have same {α : Type} (f : Port → α) (g : ∀ p r, f { p with recordTimer := r } = f p) (k : Fin 4) :
      f ((s.timerEnded l).port k) = f (s.port k) := by
    obtain ⟨r, port, -⟩ := s.timerEnded_port l k
    rw [port, g]
  have mode := same Port.mode fun _ _ => rfl
  have counters := same Port.counters fun _ _ => rfl
  have xstate := same Port.xstate fun _ _ => rfl
  have roster (k : Fin 4) : (s.timerEnded l).lineRoster k = s.lineRoster k := rfl
  have acting : (s.timerEnded l).actingLine k = s.actingLine k := by
    simp only [State.actingLine, State.paired, mode]
    rfl
  simp only [State.lineLater, acting, counters, xstate, roster]

/-- A step that shows nothing new in the record of a line starts no timer for it. -/
theorem settle_port {old new : State} {l : Fin 4} (later : old.lineLater l = new.lineLater l) :
    (settle old new).port l = new.port l := by
  simp [settle, State.port, later]

theorem execLineRecordTimer_settled {s : State} {l : Fin 4} (high : s.resetLow = false) (working : s.working = true)
    (set : (s.port l).recordTimer ≠ none) :
    ∃ t, execLineRecordTimer l s = .next t ∧ t.report.wanted[lineRec l] = true ∧ (t.port l).recordTimer = none ∧
      Settled (want (lineRec l) s) t := by
  have fires : (if (s.working && (s.port l).recordTimer.isSome) = true then
      want (lineRec l) (s.modPort l fun p => { p with recordTimer := none }) else s) =
      want (lineRec l) (s.timerEnded l) := if_pos (by simp [working, Option.isSome_iff_ne_none, set])
  have port (k : Fin 4) : (want (lineRec l) (s.timerEnded l)).port k = (s.timerEnded l).port k := rfl
  refine ⟨_, recorded_next high, settle_wanted _ _ _ ?_, ?_, ?_⟩
  · simp only [fires, want_wanted, decide_true, Bool.true_or]
  · have later : (want (lineRec l) (s.timerEnded l)).lineLater l = s.lineLater l := s.timerEnded_lineLater l l
    obtain ⟨r, ended, none⟩ := s.timerEnded_port l l
    simp only [fires]
    rw [settle_port later.symm, port, ended]
    exact none rfl
  · simp only [fires]
    refine (settled_settle s (want (lineRec l) (s.timerEnded l))).of_ports s.ports (fun k => ?_) (fun k => ?_)
    all_goals
      obtain ⟨r, ended, -⟩ := s.timerEnded_port l k
      rw [port, ended]
      rfl

/-- Settles O38: each expiry has its one effect, and the boundary and the records due leave the rest. -/
theorem timersFallDue : Obligations.TimersFallDue :=
  ⟨fun _ _ _ high running line lineOn set => execKeepaliveDue_settled high running line lineOn set,
    fun _ n high running => execBackoffExpiry_settled n high running,
    fun _ _ high running identifying set => execIdentifyDue_settled high running identifying set,
    fun _ n high => execReplacementWindowClose_settled n high,
    fun _ high running => execDiscoveryVisitDue_settled high running,
    fun _ _ high working set => execLineRecordTimer_settled high working set⟩

/-! ### The echo of a loop -/

theorem State.modPort_modPort (s : State) (l : Fin 4) (f g : Port → Port) :
    (s.modPort l f).modPort l g = s.modPort l fun p => g (f p) := by
  simp only [State.modPort, State.port, Fin.getElem_fin, Vector.getElem_set_self, Vector.set_set]

/-- A working part is not FAULTED, so its notice waits for the records named. -/
theorem raiseAfter_working {s : State} (n : Notice) (rs : List (Fin 29)) (working : s.working = true) :
    raiseAfter n rs s = awaitRecords rs (.notice n) (wantAll rs s) := by
  rw [raiseAfter, not_isFaulted_of_working working, if_neg (by simp)]

/-- The part with loop `l` changed to BROKEN or INTACT, and the reach side of each slot by `reach` (R111). -/
def State.loopChanged (s : State) (l : Fin 4) (broken : Bool) (reach : Slot → Fin 24 → Side) : State :=
  { s.modPort l (fun q => { q with broken := broken, missRun := 0, goodRun := 0, echoDue := false }) with
    roster := { s.roster with slots := Vector.ofFn fun n => { s.slot n with reach := reach (s.slot n) n } }
    report := { s.report with
      wanted := (s.report.wanted.set (lineRec l) true).set (lineRec (partner l)) true
      waiting := s.report.waiting ++ [⟨[lineRec l, lineRec (partner l)], .notice .line⟩] } }

theorem State.slots_ofFn (s : State) : (Vector.ofFn fun n => s.slot n) = s.roster.slots :=
  Vector.ext fun i hi => by simp [State.slot]

theorem changeLoop_broken {s : State} {l : Fin 4} (working : s.working = true) :
    changeLoop l true (s.modPort l fun q => { q with echoDue := false }) = s.loopChanged l true fun v _ => v.reach := by
  rw [changeLoop, raiseAfter_working _ _ (by exact working), if_pos rfl, State.modPort_modPort, State.loopChanged,
    State.slots_ofFn]
  rfl

theorem State.modSlot_same (s : State) (n : Fin 24) (f : Slot → Slot) (same : f (s.slot n) = s.slot n) :
    s.modSlot n f = s := by
  have slots : s.roster.slots.set n (f (s.slot n)) = s.roster.slots := by
    rw [same]
    exact Vector.set_getElem_self _
  rw [State.modSlot, State.setSlot, slots]

/-- The slot with its reach side PRIMARY if its line is `l`. -/
def Slot.primaryOn (l : Fin 4) (v : Slot) : Slot :=
  { v with reach := if v.binding.map (·.1) = some l then .primary else v.reach }

theorem reachPrimary_eq (s : State) (l : Fin 4) :
    reachPrimary l s =
      { s with roster := { s.roster with slots := Vector.ofFn fun n => (s.slot n).primaryOn l } } := by
  have step (n : Fin 24) (s : State) :
      (if s.lineOf n = some l then s.modSlot n fun v => { v with reach := .primary } else s) =
        s.modSlot n (Slot.primaryOn l) := by
    split
    · next here =>
      change s.setSlot n _ = s.setSlot n _
      have here : (s.slot n).binding.map (·.1) = some l := here
      rw [Slot.primaryOn, if_pos here]
    · next other =>
      have other : ¬ (s.slot n).binding.map (·.1) = some l := other
      exact (State.modSlot_same _ _ _ (by rw [Slot.primaryOn, if_neg other])).symm
  have steps : (fun (n : Fin 24) (s : State) =>
      if s.lineOf n = some l then s.modSlot n fun v => { v with reach := .primary } else s) =
      fun n s => s.modSlot n (Slot.primaryOn l) := funext fun n => funext fun s => step n s
  rw [reachPrimary, steps]
  exact forSlots_modSlot (fun _ => Slot.primaryOn l) s

theorem changeLoop_intact {s : State} {l : Fin 4} (working : s.working = true) :
    changeLoop l false (s.modPort l fun q => { q with echoDue := false }) =
      s.loopChanged l false fun v n => if s.lineOf n = some l then .primary else v.reach := by
  have slots : (Vector.ofFn fun n => (s.slot n).primaryOn l) = Vector.ofFn fun n =>
      { s.slot n with reach := if s.lineOf n = some l then .primary else (s.slot n).reach } := rfl
  simp only [changeLoop, State.modPort_modPort, reachPrimary_eq, Bool.false_eq_true, if_false, State.modPort_slot,
    State.modPort_roster, slots, State.loopChanged]
  generalize (Vector.ofFn fun n =>
    { s.slot n with reach := if s.lineOf n = some l then .primary else (s.slot n).reach }) = slots
  exact raiseAfter_working _ _ working

/-- What the judgement of one echo makes of a part with loop `l` in force (R111). -/
def State.echoed (s : State) (l : Fin 4) (seen : Bool) : State :=
  let p := s.port l
  let judged (f : Port → Port) : State := s.modPort l fun q => f { q with echoDue := false }
  if p.broken then
    if seen then
      if p.goodRun = 1 then s.loopChanged l false fun v n => if s.lineOf n = some l then .primary else v.reach
      else judged fun q => { q with goodRun := q.goodRun + 1 }
    else judged fun q => { q with goodRun := 0 }
  else if seen then judged fun q => { q with missRun := 0 }
  else if p.missRun = 1 then s.loopChanged l true fun v _ => v.reach
  else judged fun q => { q with missRun := q.missRun + 1 }

theorem echo_eq {s : State} {l : Fin 4} (seen : Bool) (working : s.working = true) :
    echo l seen (s.modPort l fun q => { q with echoDue := false }) = s.echoed l seen := by
  simp only [echo, State.modPort_port, if_true, State.modPort_modPort, changeLoop_broken working, changeLoop_intact working,
    State.echoed, Nat.reduceEqDiff]

theorem execEchoJudged_settled {s : State} {l : Fin 4} (copy : List Byte) (inTime : Bool) (high : s.resetLow = false)
    (working : s.working = true) (due : (s.port l).echoDue = true) (looped : s.looped l = true) :
    ∃ t, execEchoJudged l copy inTime s = .next t ∧
      Settled (s.echoed l (inTime && decide (copy = (s.port l).tx))) t := by
  obtain ⟨t, run, settled⟩ := scheduled_settled (s := s) (f := fun s =>
    let p := s.port l
    if s.working && p.echoDue && s.looped l then
      echo l (inTime && decide (copy = p.tx)) (s.modPort l fun p => { p with echoDue := false })
    else s) high
  refine ⟨t, run, ?_⟩
  simp only [working, due, looped, Bool.and_self, if_true, echo_eq _ working] at settled
  exact settled

/-- Settles O45: by the loop state, by whether the echo was seen and by the run before it. -/
theorem echoMovesLoopState : Obligations.EchoMovesLoopState := by
  intro s l copy inTime high working due looped p seen judged changed
  obtain ⟨t, run, settled⟩ := execEchoJudged_settled copy inTime high working due looped
  have hit (h : seen) : (inTime && decide (copy = (s.port l).tx)) = true := by simp [h.1, show copy = (s.port l).tx from h.2]
  have miss (h : ¬ seen) : (inTime && decide (copy = (s.port l).tx)) = false := by
    rw [← Bool.not_eq_true]
    exact fun both => h (by simpa [seen, p] using both)
  have echoed {u : State} (same : s.echoed l (inTime && decide (copy = (s.port l).tx)) = u) : Settled u t := same ▸ settled
  simp only [State.echoed] at echoed
  refine ⟨t, run, fun intact h => echoed ?_, fun intact h first => echoed ?_, fun intact h second => echoed ?_,
    fun broken h => echoed ?_, fun broken h first => echoed ?_, fun broken h second => echoed ?_⟩
  · rw [intact, hit h]
    rfl
  · rw [intact, miss h, if_neg first]
    rfl
  · rw [intact, miss h, if_pos second]
    rfl
  · rw [broken, miss h]
    rfl
  · rw [broken, hit h, if_neg first]
    rfl
  · rw [broken, hit h, if_pos second]
    rfl

end Sys2Proof.Machine

/-!
What a boundary does across lines. An urgent OPEN on one line ends the delivery of its slot, and with it the slot leaves
the member list of the exchange of every port and every exchange handed out for it is taken back, whatever its line is.
The statements here speak of every state, the ones no run reaches too: an exchange that names a slot of another line is
changed by that line's boundary.
-/
namespace Sys2Proof.Machine

/-- Slot 0 on line 1 and slot 1 on line 0, both BEHIND. -/
def crossedSlots : Vector Slot 24 :=
  let bound (l : Fin 4) : Slot := { Slot.cold with state := .behind, binding := some (l, 1) }
  ((Vector.replicate 24 Slot.cold).set 0 (bound 1)).set 1 (bound 0)

/-- A part with port 0 as given, and an urgent OPEN due to slot 0 on line 1, which has a STAGE delivery. -/
def urgentElsewhere (p : Port) (groups : List Group) : State :=
  { State.reset with
    engine := .running
    change := { ChangeEngine.cold with pages := 1, gen := 1, identity := 1, table := [⟨1, 1, 0, 1⟩] }
    roster := { Roster.cold with slots := crossedSlots }
    sched := { Sched.cold with
      deliveries := (Vector.replicate 24 none).set 0 (some (Delivery.fresh .stage false false)), groups := groups }
    ports := ((Vector.replicate 4 Port.cold).set 0 p).set 1 { Port.cold with mode := .single, applied := .single } }

/-- An exchange for `w` that lists slot 0 as a member. -/
def listing (w : Work) (started : Bool) : Exchange := { handed w with started := started, members := [0], retries := 1 }

/-- The port of a SINGLE line with such an exchange. -/
def listingPort (x : XState) (w : Work) (started : Bool) : Port :=
  { Port.cold with mode := .single, applied := .single, xstate := x, exchange := some (listing w started) }

/-- The members that the exchange of port 0 lists after a command. -/
def membersAfter (c : Instr) (s : State) : Option (List (Fin 24)) :=
  match exec c s with
  | .next t => (t.port 0).exchange.map (·.members)
  | _ => none

theorem membersAfter_of {c : Instr} {s t : State} {ex : Exchange} (run : exec c s = .next t)
    (left : (t.port 0).exchange = some ex) : membersAfter c s = some ex.members := by
  simp only [membersAfter, run, left, Option.map_some]

/-- Refutes O46: a header mark on line 0 starts RECEIVING, and the boundary that ends its step makes the urgent OPEN of
slot 0 due on line 1 end that slot's delivery, which takes the slot off the list of the exchange that port 0 awaits. -/
theorem not_frameWithNoExchangeAwaiting : ¬ Obligations.FrameWithNoExchangeAwaiting := by
  intro h
  let s := urgentElsewhere (listingPort .awaiting .discovery true) []
  obtain ⟨t, run, same, -⟩ := h.1 s 0 .primary .awaiting rfl (by decide +kernel) rfl rfl (by rintro ex m ⟨⟩ ⟨⟩)
  have taken : membersAfter (.headerMark 0 .primary) s = some [] := by decide +kernel
  rw [membersAfter_of run (same.trans rfl)] at taken
  exact absurd taken (by decide)

/-- Refutes O44: port 0 awaits its reply after a frame, and its exchange no longer lists slot 0 of line 1. -/
theorem not_frameSentAwaitsOrEnds : ¬ Obligations.FrameSentAwaitsOrEnds := by
  intro h
  let s := urgentElsewhere (listingPort .sending .discovery true) []
  obtain ⟨t, run, -, -, -, awaits, -⟩ := h s 0 (listing .discovery true) rfl rfl rfl nofun
  have taken : membersAfter (.frameSent 0) s = some [] := by decide +kernel
  rw [membersAfter_of run (awaits rfl rfl).1] at taken
  exact absurd taken (by decide)

/-- Refutes O48: the exchange of port 0 whose reply timer ran out goes on with one retry less, and without slot 0. -/
theorem not_timeoutRetriesOrMisses : ¬ Obligations.TimeoutRetriesOrMisses := by
  intro h
  let s := urgentElsewhere (listingPort .awaiting (.poll 1) true) []
  obtain ⟨t, run, -, -, -, -, -, again, -⟩ :=
    h.1 s 0 (listing (.poll 1) true) 1 rfl (by decide) rfl rfl rfl rfl rfl rfl
  have taken : membersAfter (.replyTimeout 0) s = some [] := by decide +kernel
  rw [membersAfter_of run (again (by decide)).1] at taken
  exact absurd taken (by decide)

/-- Refutes O47: so does the exchange of port 0 after a garbled reply. -/
theorem not_awaitedFrameJudged : ¬ Obligations.AwaitedFrameJudged := by
  intro h
  let s := urgentElsewhere (listingPort (.receiving .awaiting) (.poll 1) true) []
  have judged := (h s 0 [] .complete (listing (.poll 1) true) rfl (by decide +kernel) rfl rfl).1 1 rfl rfl rfl rfl
  obtain ⟨t, run, -, -, -, -, garbled, -⟩ := judged
  have broken : ¬ 8 ≤ ([] : List Byte).length := by decide
  obtain ⟨⟨-, -, -, again, -⟩, -⟩ := garbled (fun intact => broken intact.2.1) (by decide)
  have taken : membersAfter (.frameReceived 0 [] .complete) s = some [] := by decide +kernel
  rw [membersAfter_of run again] at taken
  exact absurd taken (by decide)

/-- Refutes O42: a TIME handed to port 0 waits for the line to be idle, and its exchange no longer lists slot 0. -/
theorem not_frameStartDrivesRequest : ¬ Obligations.FrameStartDrivesRequest := by
  intro h
  let s := urgentElsewhere (listingPort .idle .time false) []
  obtain ⟨t, run, -, -, -, drawn, -⟩ := h.2.2 s 0 (listing .time false) rfl (by decide) rfl rfl rfl
  have waits := ((drawn _ rfl (by decide)).1 (by decide)).2
  have taken : membersAfter (.frameStart 0) s = some [] := by decide +kernel
  rw [membersAfter_of run waits] at taken
  exact absurd taken (by decide)

/-- A group of the STAGE class whose one member is slot 0 of line 1, with a page to send. -/
def strayGroup : Group := ⟨0, 0, .stage, [0], [], none, true, [0], none, 0⟩

/-- Refutes O43: port 0 starts the page of a group of line 0 that slot 0 of line 1 is a member of, and the frame no longer
counts for it. -/
theorem not_pageFrameCarriesPage : ¬ Obligations.PageFrameCarriesPage := by
  intro h
  let s := urgentElsewhere { listingPort .idle (.groupPage 0) false with idleTime := Config.second } [strayGroup]
  obtain ⟨t, run, -, fares⟩ :=
    h.2 s 0 0 (listing (.groupPage 0) false) strayGroup .stage 0 0 rfl (by decide) rfl rfl rfl rfl rfl rfl
      ⟨0, by decide, by decide⟩ (by decide) (by decide)
  obtain ⟨⟨e, left, -, -, -, -, -, members, -⟩, -⟩ := fares rfl
  have taken : membersAfter (.frameStart 0) s = some [] := by decide +kernel
  rw [membersAfter_of run left, members] at taken
  exact absurd taken (by decide)

/-! ### An exchange taken back on another line -/

/-- A part whose port 0 is in GAP with nothing to follow, with an urgent OPEN due to slot 0 on line 0; port 1 was handed a
page of slot 0 and has not started it, and the turn of its line is open. -/
def pageElsewhere : State :=
  let bound : Slot := { Slot.cold with state := .behind, binding := some (0, 1) }
  { State.reset with
    engine := .running
    change := { ChangeEngine.cold with pages := 1, gen := 1, identity := 1, table := [⟨1, 1, 0, 1⟩] }
    roster := { Roster.cold with slots := (Vector.replicate 24 Slot.cold).set 0 bound }
    sched := { Sched.cold with
      arbiters := (Vector.replicate 4 Arbiter.cold).set 1 { Arbiter.cold with turn := some ⟨.routine, .slot 0, 0⟩ } }
    ports := ((Vector.replicate 4 Port.cold).set 0 { Port.cold with mode := .single, applied := .single, xstate := .gap }).set 1
      { Port.cold with mode := .single, applied := .single, exchange := some (handed (.page 0)) } }

/-- The scheduler after a command. -/
def schedAfter (c : Instr) (s : State) : Option Sched :=
  match exec c s with
  | .next t => some t.sched
  | _ => none

/-- Refutes O56: at the end of the gap of port 0 no other port is ready, but the urgent OPEN that goes out there takes
back the exchange of port 1, which is then ready too and loses the turn of its line. -/
theorem not_arbiterServesFirstClass : ¬ Obligations.ArbiterServesFirstClass := by
  intro h
  obtain ⟨-, -, -, -, -, -, -, -, boundary⟩ := h
  obtain ⟨t, run, sched, -⟩ := boundary pageElsewhere 0 rfl rfl rfl rfl rfl (by decide +kernel)
  have lost : ((schedAfter (.gapEnd 0) pageElsewhere).map fun x => x.arbiters[1].turn) = some none := by decide +kernel
  simp only [schedAfter, run, sched, Option.map_some] at lost
  exact absurd lost (by decide +kernel)

/-! ### A group that still has to open a slot that is no member -/

/-- The STAGE group of slot 0, with slot 1 to open too. -/
def openingStray : Group := ⟨0, 0, .stage, [0], [0, 1], none, false, [], none, 0⟩

/-- A part with no port ready whose pending edition activates at the next minute; slot 1 has an INSTALL delivery. -/
def installElsewhere : State :=
  { State.reset with
    engine := .running
    clock := { Clock.cold with isSet := true }
    editions := { EditionMgr.cold with pending := { PendingSlot.empty .b with state := .pending, number := 1 } }
    sched := { Sched.cold with
      deliveries := (Vector.replicate 24 none).set 1 (some (Delivery.fresh .install false false)), groups := [openingStray] } }

/-- Refutes O34: the activation ends the INSTALL delivery of slot 1, which so leaves the list of slots to open of the group
of slot 0 that goes on as an INSTALL group. -/
theorem not_activationAtMinuteTick : ¬ Obligations.ActivationAtMinuteTick := by
  intro h
  have idle : ¬ installElsewhere.busyWith .edition := by
    rintro (load | ⟨w, waits, -⟩)
    · exact load rfl
    · cases waits
  obtain ⟨t, run, -, -, -, -, -, -, -, -, -, -, quiet⟩ :=
    h installElsewhere rfl (by decide) idle rfl (by decide) rfl (by decide) (by decide)
  obtain ⟨-, -, goesOn⟩ := quiet (by decide +kernel)
  have kept := goesOn openingStray (by decide +kernel) rfl (by decide) (by decide) (by decide +kernel)
  have groups : (schedAfter .minuteTick installElsewhere).map (·.groups) =
      some [{ openingStray with cls := .install, toOpen := [0] }] := by decide +kernel
  simp only [schedAfter, run, Option.map_some, Option.some.injEq] at groups
  rw [groups] at kept
  exact absurd kept (by decide)

end Sys2Proof.Machine

/-!
An exchange boundary as a sequence of single changes of the scheduler, and what each slot, delivery and port is after it.
-/
namespace Sys2Proof.Machine

/-! ### The choice of an exchange -/

theorem firstWork_some {f : Nat → Option Choice} : ∀ {ks : List Nat} {k : Nat} {ch : Choice},
    firstWork f ks = some (k, ch) → f k = some ch
  | q :: qs, k, ch, found => by
    unfold firstWork at found
    split at found
    · next c own =>
      cases found
      exact own
    · exact firstWork_some found

/-- What an offer of a class other than UPKEEP is: the ACTIVATE broadcast, or the work of a slot of the line. -/
theorem offer_some {s : State} {l : Fin 4} {c : Cls} {p : Option Nat} {ch : Choice} (other : c ≠ .upkeep)
    (offered : s.offer l c = some (p, ch)) :
    (c = .activation ∧ ch.work = .activateAll) ∨ ∃ n, s.lineOf n = some l ∧ s.slotWork c n = some ch := by
  have slot {k : Nat × Choice} (found : firstWork (s.workAt l c) (rotation ((s.arbiter l).pointers.get c) 24) = some k) :
      ∃ n, s.lineOf n = some l ∧ s.slotWork c n = some k.2 := by
    have own := firstWork_some (k := k.1) (ch := k.2) found
    unfold State.workAt at own
    split at own
    · next below =>
      split at own
      · next line => exact ⟨_, line, own⟩
      · cases own
    · cases own
  unfold State.offer at offered
  dsimp only at offered
  split at offered
  · exact absurd rfl other
  · split at offered
    · cases offered
      exact .inl ⟨rfl, rfl⟩
    · obtain ⟨k, found, same⟩ := Option.map_eq_some_iff.1 offered
      cases same
      exact .inr (slot found)
  · obtain ⟨k, found, same⟩ := Option.map_eq_some_iff.1 offered
    cases same
    exact .inr (slot found)

theorem urgentNext_some {s : State} {n : Fin 24} {d : Delivery} {ch : Choice} (next : s.urgentNext n d = some ch) :
    ch.work = .page n ∨ ch.work = .close n := by
  unfold State.urgentNext at next
  split_ifs at next
  all_goals
    cases next
    simp

/-- An urgent OPEN is to the slot whose work it is, and no DELTA or RELOAD of the slot is open. -/
theorem urgentWork_opens {s : State} {m n : Fin 24} {kind : OpenKind} {ch : Choice} (work : s.urgentWork m = some ch)
    (opens : ch.work = .openTo n kind) :
    n = m ∧ ∀ d, s.delivery n = some d → d.mode ≠ .delta ∧ d.mode ≠ .reload := by
  have own (opened : (if s.still && s.urgentNeed m then some (Choice.mk (.openTo m .blocklist) (.slot m)) else none) =
      some ch) : n = m := by
    split at opened
    · cases opened
      cases opens
      rfl
    · cases opened
  have next (d : Delivery) (going : s.urgentNext m d = some ch) : False := by
    rcases urgentNext_some going with work | work
    all_goals
      rw [opens] at work
      cases work
  unfold State.urgentWork at work
  dsimp only at work
  split at work
  · cases work
  · split at work
    · next none =>
      obtain rfl := own work
      refine ⟨rfl, fun d some => ?_⟩
      rw [none] at some
      cases some
    · next d some =>
      split at work
      · exact (next d work).elim
      · exact (next d work).elim
      all_goals
        next mode =>
        obtain rfl := own work
        refine ⟨rfl, fun d' same => ?_⟩
        rw [some] at same
        cases same
        rw [mode]
        exact ⟨nofun, nofun⟩

/-! ### The single changes of a boundary -/

/-- What a property of states needs for a boundary to keep it. -/
structure Bounds (P : State → Prop) : Prop where
  turn : ∀ s l f, s.lineOn l = true → P s → P (s.modArbiter l f)
  hand : ∀ s l w, s.lineOn l = true → (s.port l).xstate = .idle → P s → P (handOver l w s)
  leave : ∀ s n, P s → P (leaveGroup n s)
  abandons : ∀ s n l, s.lineOf n = some l → (s.port l).xstate = .idle →
    (∀ d, s.delivery n = some d → d.mode ≠ .delta ∧ d.mode ≠ .reload) → P s → P (abandon n s)
  forms : ∀ s g, g.target = none → g.planned = false → g.toOpen = g.members →
    (g.cls = .stage → s.editions.pending.state = .pending) →
    (g.members ≠ [] ∧ ∀ m ∈ g.members, s.deliverable m = true) → P s → P (s.setGroups (s.sched.groups ++ [g]))

theorem xstate_of_bare {s u : State} (same : u.bare = s.bare) (l : Fin 4) : (u.port l).xstate = (s.port l).xstate := by
  have port := congrArg (fun v : State => (v.ports[l]).xstate) same
  simpa [State.bare, State.port, Port.core] using port

theorem editions_of_bare {s u : State} (same : u.bare = s.bare) : u.editions = s.editions := by
  have editions := congrArg State.editions same
  exact editions

theorem stagingDue_pending {s : State} {n : Fin 24} (due : s.stagingDue n = true) : s.editions.pending.state = .pending := by
  unfold State.stagingDue State.pendingRef at due
  by_contra other
  rw [if_neg other] at due
  cases due

/-- A STAGE OPEN of a slot by itself is to stage the PENDING edition. -/
theorem stageWork_pending {s : State} {n : Fin 24} {kind : OpenKind} (work : s.stageWork n = some ⟨.openTo n kind, .slot n⟩) :
    s.editions.pending.state = .pending := by
  unfold State.stageWork at work
  split at work
  · cases work
  · split at work
    · cases work
    · split at work
      · unfold State.memberWork at work
        split at work
        · cases work
        · split at work <;> cases work
      · split at work
        · split at work
          · next due => exact stagingDue_pending due
          · cases work
        · split at work
          · unfold State.nextOf at work
            split_ifs at work <;> cases work
          · cases work

/-- A slot that a STAGE group can take lacks the PENDING edition, so that there is one. -/
theorem groupFor_pending {s : State} {l : Fin 4} {ch : Choice} {m : Fin 24} (joins : m ∈ s.groupFor l .stage ch) :
    s.editions.pending.state = .pending := by
  unfold State.groupFor at joins
  split at joins
  · split at joins
    · simp only [List.mem_filter, State.canJoin, Bool.and_eq_true, decide_eq_true_eq] at joins
      obtain ⟨-, ⟨⟨⟨-, work⟩, -⟩, -⟩, -⟩ := joins
      exact stageWork_pending work
    · cases joins
  · next wrong _ => cases wrong
  · cases joins

theorem deliverable_of_routineWork {s : State} {n : Fin 24} {ch : Choice} (work : s.routineWork n = some ch) :
    s.deliverable n = true := by
  unfold State.routineWork at work
  split at work
  · cases work
  · next ok =>
    simp only [State.blockOk, Bool.not_eq_true', Bool.not_eq_false, Bool.and_eq_true] at ok
    exact ok.1.1

theorem deliverable_of_stageWork {s : State} {n : Fin 24} {ch : Choice} (work : s.stageWork n = some ch) :
    s.deliverable n = true := by
  unfold State.stageWork at work
  split at work
  · cases work
  · next ok =>
    simp only [State.editionOk, Bool.not_eq_true', Bool.not_eq_false, Bool.and_eq_true] at ok
    exact ok.1

/-- A slot that a group can take is one that a delivery can be made to. -/
theorem groupFor_deliverable {s : State} {l : Fin 4} {c : Cls} {ch : Choice} {m : Fin 24} (joins : m ∈ s.groupFor l c ch) :
    s.deliverable m = true := by
  unfold State.groupFor at joins
  split at joins
  · split at joins
    · simp only [List.mem_filter, State.canJoin, Bool.and_eq_true, decide_eq_true_eq] at joins
      obtain ⟨-, ⟨⟨⟨-, work⟩, -⟩, -⟩, -⟩ := joins
      exact deliverable_of_stageWork work
    · cases joins
  · split at joins
    · simp only [List.mem_filter, State.canJoin, Bool.and_eq_true, decide_eq_true_eq] at joins
      obtain ⟨-, ⟨⟨⟨-, work⟩, -⟩, -⟩, -⟩ := joins
      exact deliverable_of_routineWork work
    · cases joins
  · cases joins

theorem deliverable_of_bare {s u : State} (same : u.bare = s.bare) (n : Fin 24) : u.deliverable n = s.deliverable n := by
  have slot : u.slot n = s.slot n := by
    have roster := congrArg (fun v : State => v.roster.slots[n]) same
    exact roster
  simp only [State.deliverable, slot]

theorem xstate_of_portReady {s : State} {l : Fin 4} (ready : s.portReady l = true) : (s.port l).xstate = .idle := by
  simp only [State.portReady, Bool.and_eq_true, decide_eq_true_eq] at ready
  exact ready.1.1.2

theorem lineOn_of_portReady {s : State} {l : Fin 4} (ready : s.portReady l = true) : s.lineOn l = true := by
  simp only [State.portReady, Bool.and_eq_true, decide_eq_true_eq] at ready
  obtain ⟨⟨⟨⟨⟨⟨-, on⟩, -⟩, -⟩, -⟩, -⟩, -⟩ := ready
  exact on

theorem lineOn_of_bare {s u : State} (same : u.bare = s.bare) (l : Fin 4) : u.lineOn l = s.lineOn l := by
  have port := congrArg (fun v : State => (v.ports[l]).mode) same
  have mode : (u.port l).mode = (s.port l).mode := by simpa [State.bare, State.port, Port.core] using port
  rw [State.lineOn, mode, State.lineOn]

section
variable {P : State → Prop}

theorem Bounds.forSlots_leave (b : Bounds P) : ∀ (ns : List (Fin 24)) {s : State}, P s → P (forSlots leaveGroup ns s)
  | [], _, holds => holds
  | n :: ns, s, holds => b.forSlots_leave ns (b.leave s n holds)

theorem Bounds.clearWay (b : Bounds P) {s : State} {l : Fin 4} {c : Cls} {p : Option Nat} {ch : Choice}
    (idle : (s.port l).xstate = .idle) (offered : s.offer l c = some (p, ch)) (holds : P s) :
    P (clearWay c ch.work s) := by
  unfold Sys2Proof.Machine.clearWay
  split
  · next opens =>
    obtain ⟨⟨⟩, -⟩ | ⟨m, line, work⟩ := offer_some (by decide) offered
    obtain ⟨rfl, modes⟩ := urgentWork_opens work opens
    exact b.abandons s _ l line idle modes holds
  · split
    · exact holds
    · exact b.leave s _ holds
  · exact holds

theorem Bounds.newTurn (b : Bounds P) {s : State} {l : Fin 4} {c : Cls} {p : Option Nat} {ch : Choice}
    (on : s.lineOn l = true) (idle : (s.port l).xstate = .idle) (offered : s.offer l c = some (p, ch)) (holds : P s) :
    P (newTurn l c p ch s) := by
  have cleared := b.clearWay idle offered holds
  have bare := clearWay_bare s c ch.work
  have idle : ((Sys2Proof.Machine.clearWay c ch.work s).port l).xstate = .idle := (xstate_of_bare bare l).trans idle
  have on : (Sys2Proof.Machine.clearWay c ch.work s).lineOn l = true := (lineOn_of_bare bare l).trans on
  revert cleared idle on
  unfold Sys2Proof.Machine.newTurn
  generalize Sys2Proof.Machine.clearWay c ch.work s = u
  intro cleared idle on
  dsimp only
  split
  · next m m' ms joined =>
    have pending : c = .stage → u.editions.pending.state = .pending := by
      rintro rfl
      exact groupFor_pending (l := l) (ch := ch) (m := m) (by rw [joined]; exact List.mem_cons_self)
    have joins : ∀ k ∈ m :: m' :: ms, u.deliverable k = true := fun k member =>
      groupFor_deliverable (l := l) (c := c) (ch := ch) (by rw [joined]; exact member)
    have left := b.forSlots_leave (m :: m' :: ms) cleared
    have bare : (forSlots leaveGroup (m :: m' :: ms) u).bare = u.bare :=
      forSlots_keeps State.bare leaveGroup (fun n s => leaveGroup_bare s n) _ _
    revert left bare
    generalize forSlots leaveGroup (m :: m' :: ms) u = v
    intro left bare
    have on : v.lineOn l = true := (lineOn_of_bare bare l).trans on
    refine b.hand _ _ _ on ?_ (b.turn _ _ _ on (b.forms _ _ ?_ ?_ ?_ ?_ ?_ left))
    · exact (xstate_of_bare bare l).trans idle
    · rfl
    · rfl
    · rfl
    · rw [editions_of_bare bare]
      exact pending
    · refine ⟨List.cons_ne_nil _ _, fun k member => ?_⟩
      rw [deliverable_of_bare bare]
      exact joins k member
  · split
    · exact b.hand _ _ _ on idle (b.turn _ _ _ on cleared)
    · exact b.hand _ _ _ on idle (b.turn _ _ _ on cleared)

theorem Bounds.arbitrate (b : Bounds P) {s : State} (l : Fin 4) (holds : P s) : P (arbitrate l s) := by
  unfold Sys2Proof.Machine.arbitrate
  split
  · next ready =>
    have idle := xstate_of_portReady ready
    have on := lineOn_of_portReady ready
    split
    · exact b.turn _ _ _ on holds
    · next c p ch first =>
      have offered : s.offer l c = some (p, ch) := by
        obtain ⟨c', -, own⟩ := List.exists_of_findSome?_eq_some first
        obtain ⟨o, offered, same⟩ := Option.map_eq_some_iff.1 own
        cases same
        exact offered
      split
      · split
        · split
          · exact b.hand _ _ _ on idle holds
          · exact b.newTurn on idle offered holds
        · exact b.newTurn on idle offered holds
      · exact b.newTurn on idle offered holds
  · exact holds

theorem Bounds.boundaries (b : Bounds P) {s : State} (holds : P s) : P (boundaries s) := by
  have go : ∀ (ls : List (Fin 4)) {s : State}, P s → P (forLines Sys2Proof.Machine.arbitrate ls s) := by
    intro ls
    induction ls with
    | nil => exact fun h => h
    | cons l ls ih => exact fun h => ih (b.arbitrate l h)
  exact go _ holds

end

end Sys2Proof.Machine

/-!
What is left of a state after the boundary and the records due that end its step: which deliveries and sweep records stay,
and the exchange of each port.
-/
namespace Sys2Proof.Machine

/-! ### Deliveries and sweep records -/

/-- The delivery and sweep records of the part. -/
def State.books (s : State) : Vector (Option Delivery) 24 × Vector Sweep 24 := (s.sched.deliveries, s.sweeps)

theorem of_books {s u : State} (same : s.books = u.books) (n : Fin 24) : s.delivery n = u.delivery n ∧ s.sweep n = u.sweep n :=
  ⟨congrArg (fun b : Vector (Option Delivery) 24 × Vector Sweep 24 => b.1[n]) same,
    congrArg (fun b : Vector (Option Delivery) 24 × Vector Sweep 24 => b.2[n]) same⟩

@[simp] theorem tendGroups_books (s : State) : (tendGroups s).books = s.books := by
  unfold tendGroups
  exact foldl_keeps State.books (fun s (g : Group) => endTurns (.group g.id) s) (fun _ _ => rfl) _ s

@[simp] theorem leaveGroup_books (s : State) (n : Fin 24) : (leaveGroup n s).books = s.books := by
  rw [leaveGroup, tendGroups_books]
  rfl

@[simp] theorem memberOpened_books (s : State) (n : Fin 24) : (memberOpened n s).books = s.books := by
  rw [memberOpened, tendGroups_books]
  rfl

/-- R181: the sweep record of a REPAIR cut short. -/
def Sweep.cut (w : Sweep) : Sweep :=
  { w with
    cursor := match w.list with
      | [] => w.cursor
      | p :: _ => p / 8 * 8
    list := [], held := none }

@[simp] theorem leaveGroup_delivery (s : State) (n k : Fin 24) : (leaveGroup n s).delivery k = s.delivery k :=
  (of_books (leaveGroup_books s n) k).1
@[simp] theorem leaveGroup_sweep (s : State) (n k : Fin 24) : (leaveGroup n s).sweep k = s.sweep k :=
  (of_books (leaveGroup_books s n) k).2
@[simp] theorem memberOpened_delivery (s : State) (n k : Fin 24) : (memberOpened n s).delivery k = s.delivery k :=
  (of_books (memberOpened_books s n) k).1
@[simp] theorem memberOpened_sweep (s : State) (n k : Fin 24) : (memberOpened n s).sweep k = s.sweep k :=
  (of_books (memberOpened_books s n) k).2
@[simp] theorem endTurns_delivery (s : State) (t : Target) (k : Fin 24) : (endTurns t s).delivery k = s.delivery k := rfl
@[simp] theorem endTurns_sweep (s : State) (t : Target) (k : Fin 24) : (endTurns t s).sweep k = s.sweep k := rfl
@[simp] theorem withdraw_delivery (s : State) (n k : Fin 24) (p : Work → Bool) (d : Bool) :
    (withdraw n p d s).delivery k = s.delivery k := rfl
@[simp] theorem withdraw_sweep (s : State) (n k : Fin 24) (p : Work → Bool) (d : Bool) :
    (withdraw n p d s).sweep k = s.sweep k := rfl
@[simp] theorem cutShort_delivery (s : State) (n k : Fin 24) : (cutShort n s).delivery k = s.delivery k := rfl
@[simp] theorem handOver_delivery (s : State) (l : Fin 4) (w : Work) (k : Fin 24) :
    (handOver l w s).delivery k = s.delivery k := rfl
@[simp] theorem handOver_sweep (s : State) (l : Fin 4) (w : Work) (k : Fin 24) : (handOver l w s).sweep k = s.sweep k := rfl

@[simp] theorem cutShort_sweep (s : State) (n k : Fin 24) :
    (cutShort n s).sweep k = if n = k then (s.sweep n).cut else s.sweep k := by
  rw [cutShort, State.setSweep_sweep]
  rfl

@[simp] theorem dropDelivery_delivery (s : State) (n k : Fin 24) :
    (dropDelivery n s).delivery k = if n = k then none else s.delivery k := by
  unfold dropDelivery
  split
  · simp
  · next none =>
    split
    · next here =>
      subst here
      simpa using none
    · rfl

@[simp] theorem dropDelivery_sweep (s : State) (n k : Fin 24) : (dropDelivery n s).sweep k = s.sweep k := by
  unfold dropDelivery
  split
  · simp
  · rfl

@[simp] theorem endDelivery_delivery (s : State) (n k : Fin 24) :
    (endDelivery n s).delivery k = if n = k then none else s.delivery k := by
  unfold endDelivery
  split
  · split <;> simp
  · next none =>
    split
    · next here =>
      subst here
      exact none
    · rfl

/-- The sweep record of slot `n` once its delivery has ended: cut short if the delivery was a REPAIR. -/
def State.sweepEnded (s : State) (n : Fin 24) : Sweep :=
  if (s.delivery n).map (·.mode) = some .repair then (s.sweep n).cut else s.sweep n

theorem endDelivery_sweep (s : State) (n k : Fin 24) :
    (endDelivery n s).sweep k = if n = k then s.sweepEnded n else s.sweep k := by
  unfold endDelivery State.sweepEnded
  split
  · next d some =>
    simp only [some, Option.map_some, Option.some.injEq]
    split
    · simp
    · simp only [id, dropDelivery_sweep]
      split
      · next here => rw [here]
      · rfl
  · next none =>
    simp only [none, Option.map_none, reduceCtorEq, if_false]
    split
    · next here => rw [here]
    · rfl

@[simp] theorem abandon_delivery (s : State) (n k : Fin 24) :
    (abandon n s).delivery k = if n = k then none else s.delivery k := by simp [abandon]

theorem abandon_sweep (s : State) (n k : Fin 24) :
    (abandon n s).sweep k = if n = k then s.sweepEnded n else s.sweep k := by
  simp only [abandon, leaveGroup_sweep, endDelivery_sweep, State.sweepEnded, withdraw_delivery, withdraw_sweep]
  rfl

/-- Slot `n` may lose its delivery to the urgent OPEN of a boundary. -/
def State.yieldsAt (s : State) (n : Fin 24) : Prop :=
  ∃ l d, s.lineOf n = some l ∧ (s.port l).xstate = .idle ∧ s.delivery n = some d ∧ d.mode ≠ .delta ∧ d.mode ≠ .reload

/-- The delivery of slot `n` and its sweep record after a boundary: as before, or the delivery given up for an urgent OPEN. -/
def BookAfter (u v : State) (n : Fin 24) : Prop :=
  (v.delivery n = u.delivery n ∧ v.sweep n = u.sweep n) ∨
  (u.yieldsAt n ∧ v.delivery n = none ∧ v.sweep n = u.sweepEnded n)

theorem lineOf_of_bare {s u : State} (same : u.bare = s.bare) (n : Fin 24) : u.lineOf n = s.lineOf n := by
  rw [State.lineOf, slot_of_bare same, State.lineOf]

theorem BookAfter.of_books {u v w : State} {n : Fin 24} (after : BookAfter u v n) (same : w.books = v.books) :
    BookAfter u w n := by
  obtain ⟨delivery, sweep⟩ := Sys2Proof.Machine.of_books same n
  simp only [BookAfter, delivery, sweep]
  exact after

theorem bounds_books (u : State) : Bounds fun v => v.bare = u.bare ∧ ∀ n, BookAfter u v n where
  turn s l f _ kept := ⟨kept.1, kept.2⟩
  hand s l w _ _ kept := ⟨(handOver_bare s l w).trans kept.1, fun n => (kept.2 n).of_books rfl⟩
  leave s n kept := ⟨(leaveGroup_bare s n).trans kept.1, fun k => (kept.2 k).of_books (leaveGroup_books s n)⟩
  forms s g _ _ _ _ _ kept := ⟨kept.1, kept.2⟩
  abandons s n l line idle modes kept := by
    obtain ⟨bare, books⟩ := kept
    refine ⟨(abandon_bare s n).trans bare, fun k => ?_⟩
    by_cases here : n = k
    · subst here
      rcases books n with ⟨delivery, sweep⟩ | ⟨yields, gone, ended⟩
      · cases has : u.delivery n with
        | none =>
          refine .inl ⟨by simp [has], ?_⟩
          rw [abandon_sweep, if_pos rfl, State.sweepEnded, delivery, has, sweep]
          rfl
        | some d =>
          obtain ⟨delta, reload⟩ := modes d (delivery.trans has)
          have yields : u.yieldsAt n :=
            ⟨l, d, (lineOf_of_bare bare n).symm.trans line, (xstate_of_bare bare l).symm.trans idle, has, delta, reload⟩
          refine .inr ⟨yields, by simp, ?_⟩
          rw [abandon_sweep, if_pos rfl, State.sweepEnded, State.sweepEnded, delivery, sweep]
      · refine .inr ⟨yields, by simp, ?_⟩
        rw [abandon_sweep, if_pos rfl, State.sweepEnded, gone, ended]
        rfl
    · have same : (abandon n s).delivery k = s.delivery k ∧ (abandon n s).sweep k = s.sweep k := by
        simp [abandon_sweep, here]
      simp only [BookAfter, same.1, same.2]
      exact books k

/-! ### The exchanges of the ports -/

/-- An exchange as other lines can leave it: what it is for and how it goes on stay. -/
def Exchange.Same (e e' : Exchange) : Prop :=
  e' = { e with members := e'.members, withdrawn := e'.withdrawn, detached := e'.detached }

/-- Between the exchange of a port and what the end of a delivery leaves of it: a started one stays. -/
structure ExchangeLeft (x y : Option Exchange) : Prop where
  started : ∀ e, x = some e → e.started = true → ∃ e', y = some e' ∧ e.Same e'
  before : ∀ e', y = some e' → ∃ e, x = some e ∧ e'.started = e.started

theorem ExchangeLeft.refl (x : Option Exchange) : ExchangeLeft x x :=
  ⟨fun e some _ => ⟨e, some, rfl⟩, fun e some => ⟨e, some, rfl⟩⟩

theorem ExchangeLeft.trans {x y z : Option Exchange} (h : ExchangeLeft x y) (k : ExchangeLeft y z) : ExchangeLeft x z where
  started e some started := by
    obtain ⟨e', some', same⟩ := h.started e some started
    have started' : e'.started = true := by rw [same]; exact started
    obtain ⟨e'', some'', same'⟩ := k.started e' some' started'
    refine ⟨e'', some'', ?_⟩
    rw [Exchange.Same, same', same]
  before e some := by
    obtain ⟨e', some', started'⟩ := k.before e some
    obtain ⟨e'', some'', started''⟩ := h.before e' some'
    exact ⟨e'', some'', started'.trans started''⟩

theorem unlist_left (s : State) (n : Fin 24) (l : Fin 4) :
    ExchangeLeft (s.port l).exchange ((unlist n s).port l).exchange := by
  rw [unlist_port]
  refine ⟨fun e some _ => ?_, fun e some => ?_⟩
  · rw [some]
    exact ⟨_, rfl, rfl⟩
  · obtain ⟨e', some', rfl⟩ := Option.map_eq_some_iff.1 some
    exact ⟨e', some', rfl⟩

/-- What a withdrawal for slot `n` leaves of an exchange. -/
def Exchange.afterWithdraw (n : Fin 24) (p : Work → Bool) (detach : Bool) (ex : Exchange) : Option Exchange :=
  if ex.work.slot = some n ∧ p ex.work = true then
    if ex.started then some { ex with withdrawn := true, detached := ex.detached || detach } else none
  else some ex

theorem withdraw_exchange (s : State) (n : Fin 24) (p : Work → Bool) (d : Bool) (l : Fin 4) :
    ((withdraw n p d s).port l).exchange = (s.port l).exchange.bind (Exchange.afterWithdraw n p d) := by
  simp only [withdraw, State.port, Fin.getElem_fin, Vector.getElem_map]
  generalize s.ports[l.val] = q
  unfold Exchange.afterWithdraw
  split
  · next ex has =>
    simp only [has, Option.bind_some]
    split_ifs <;> simp only [has]
  · next has => simp only [has, Option.bind_none]

theorem withdraw_left (s : State) (n : Fin 24) (p : Work → Bool) (d : Bool) (l : Fin 4) :
    ExchangeLeft (s.port l).exchange ((withdraw n p d s).port l).exchange := by
  rw [withdraw_exchange]
  refine ⟨fun e has started => ?_, fun e left => ?_⟩
  · rw [has, Option.bind_some, Exchange.afterWithdraw]
    split_ifs
    · exact ⟨_, rfl, rfl⟩
    · exact ⟨_, rfl, rfl⟩
  · obtain ⟨ex, has, same⟩ := Option.bind_eq_some_iff.1 left
    unfold Exchange.afterWithdraw at same
    split_ifs at same
    all_goals
      cases same
      exact ⟨_, has, rfl⟩

theorem tendGroups_ports (s : State) : (tendGroups s).ports = s.ports := by
  unfold tendGroups
  exact foldl_keeps State.ports (fun s (g : Group) => endTurns (.group g.id) s) (fun _ _ => rfl) _ s

@[simp] theorem leaveGroup_port (s : State) (n : Fin 24) (l : Fin 4) : (leaveGroup n s).port l = s.port l := by
  rw [State.port, leaveGroup, tendGroups_ports]
  rfl

theorem dropDelivery_left (s : State) (n : Fin 24) (l : Fin 4) :
    ExchangeLeft (s.port l).exchange ((dropDelivery n s).port l).exchange := by
  unfold dropDelivery
  split
  · rw [leaveGroup_port]
    exact unlist_left (s.setDelivery n none) n l
  · exact .refl _

theorem endDelivery_left (s : State) (n : Fin 24) (l : Fin 4) :
    ExchangeLeft (s.port l).exchange ((endDelivery n s).port l).exchange := by
  unfold endDelivery
  split
  · split
    · exact dropDelivery_left s n l
    · exact dropDelivery_left s n l
  · exact .refl _

theorem abandon_left (s : State) (n : Fin 24) (l : Fin 4) :
    ExchangeLeft (s.port l).exchange ((abandon n s).port l).exchange := by
  rw [abandon, leaveGroup_port]
  exact (withdraw_left s n Work.isDelivery false l).trans (endDelivery_left _ n l)

theorem ExchangeLeft.none {x y : Option Exchange} (left : ExchangeLeft x y) (gone : x = none) : y = none := by
  cases has : y with
  | none => rfl
  | some e =>
    obtain ⟨e', some', -⟩ := left.before e has
    rw [gone] at some'
    cases some'

/-- The exchange of port `l` after a boundary: a started one stays, and no port is handed one but an idle one to start. -/
structure ExchangeAfter (u v : State) (l : Fin 4) : Prop where
  started : ∀ e, (u.port l).exchange = some e → e.started = true → (u.port l).xstate ≠ .idle →
    ∃ e', (v.port l).exchange = some e' ∧ e.Same e'
  busy : (u.port l).xstate ≠ .idle → (u.port l).exchange = none → (v.port l).exchange = none
  fresh : (u.port l).exchange = none → ∀ e, (v.port l).exchange = some e → e.started = false
  off : u.lineOn l = false → (u.port l).exchange = none → (v.port l).exchange = none

theorem ExchangeAfter.refl (u : State) (l : Fin 4) : ExchangeAfter u u l where
  started e some _ _ := ⟨e, some, rfl⟩
  busy _ none := none
  off _ none := none
  fresh none e some := by
    rw [none] at some
    cases some

theorem ExchangeAfter.trans_left {u v w : State} {l : Fin 4} (after : ExchangeAfter u v l)
    (left : ExchangeLeft (v.port l).exchange (w.port l).exchange) : ExchangeAfter u w l where
  started e some started busy := by
    obtain ⟨e', some', same⟩ := after.started e some started busy
    have left := left.started e' some' (by rw [same]; exact started)
    obtain ⟨e'', some'', same'⟩ := left
    exact ⟨e'', some'', by rw [Exchange.Same, same', same]⟩
  busy busy none := left.none (after.busy busy none)
  off off none := left.none (after.off off none)
  fresh none e some := by
    obtain ⟨e', some', started⟩ := left.before e some
    exact started.trans (after.fresh none e' some')

theorem handOver_port_of_ne {s : State} {l k : Fin 4} (ne : l ≠ k) (w : Work) : (handOver l w s).port k = s.port k := by
  rw [handOver, State.modPort_port, if_neg ne]

theorem bounds_exchange (u : State) (l : Fin 4) : Bounds fun v => v.bare = u.bare ∧ ExchangeAfter u v l where
  turn s k f _ kept := ⟨kept.1, kept.2.trans_left (.refl _)⟩
  leave s n kept := by
    obtain ⟨bare, after⟩ := kept
    exact ⟨(leaveGroup_bare s n).trans bare, after.trans_left (by rw [leaveGroup_port]; exact .refl _)⟩
  forms s g _ _ _ _ _ kept := ⟨kept.1, kept.2.trans_left (.refl _)⟩
  abandons s n k _ _ _ kept := ⟨(abandon_bare s n).trans kept.1, kept.2.trans_left (abandon_left s n l)⟩
  hand s k w on idle kept := by
    obtain ⟨bare, after⟩ := kept
    refine ⟨(handOver_bare s k w).trans bare, ?_⟩
    by_cases here : k = l
    · subst here
      have idle : (u.port k).xstate = .idle := (xstate_of_bare bare k).symm.trans idle
      have on : u.lineOn k = true := (lineOn_of_bare bare k).symm.trans on
      refine ⟨fun _ _ _ busy => absurd idle busy, fun busy => absurd idle busy, fun _ e some => ?_,
        fun off => absurd (on.symm.trans off) (by decide)⟩
      rw [handOver, State.modPort_port, if_pos rfl] at some
      cases some
      rfl
    · exact after.trans_left (by rw [handOver_port_of_ne here]; exact .refl _)

/-! ### The end of a step -/

/-- `t` is `u` at the end of a step: after a boundary, with the records due. The shared memory, the registers and the strips
may differ by a request completed before the boundary. -/
structure Later (u t : State) : Prop extends Kept u t where
  dues : t.dues = u.dues
  book : ∀ n, BookAfter u t n
  exchange : ∀ l, ExchangeAfter u t l
  sched : ∀ P : Sched → EditionMgr → Prop, Bounds (fun v => P v.sched v.editions) → P u.sched u.editions → P t.sched t.editions

theorem ExchangeAfter.settle {u v : State} {l : Fin 4} (after : ExchangeAfter u v l) (s : State) :
    ExchangeAfter u (settle s v) l := after.trans_left (by rw [settle_exchange]; exact .refl _)

theorem later_boundaries (s u : State) : Later u (settle s (boundaries u)) where
  toKept := (settled_boundaries s u).toKept
  dues := boundaries_dues u
  book n := by
    obtain ⟨-, books⟩ := (bounds_books u).boundaries (s := u) ⟨rfl, fun n => .inl ⟨rfl, rfl⟩⟩
    exact (books n).of_books rfl
  exchange l := ((bounds_exchange u l).boundaries (s := u) ⟨rfl, .refl u l⟩).2.settle s
  sched P b holds := b.boundaries holds

/-- What the end of a step makes of a state it makes of one that differs in shared memory, registers and strips alone. -/
theorem Later.of_eq {u v t : State} (later : Later v t) (kept : Kept u t) (sched : v.sched = u.sched)
    (sweeps : v.sweeps = u.sweeps) (roster : v.roster = u.roster) (ports : v.ports = u.ports)
    (editions : v.editions = u.editions) : Later u t where
  toKept := kept
  dues := later.dues.trans (congrArg (fun x : Sched =>
    (x.marks, x.arbiters.map fun a => (a.activateDue, a.discoveryDue))) sched)
  book n := by
    have delivery : v.delivery n = u.delivery n := congrArg (fun x : Sched => x.deliveries[n]) sched
    have sweep : v.sweep n = u.sweep n := congrArg (fun x : Vector Sweep 24 => x[n]) sweeps
    have line : v.lineOf n = u.lineOf n := congrArg (fun x : Roster => (x.slots[n]).binding.map Prod.fst) roster
    have port (l : Fin 4) : v.port l = u.port l := congrArg (fun x : Vector Port 4 => x[l]) ports
    have book := later.book n
    simp only [BookAfter, State.yieldsAt, State.sweepEnded, delivery, sweep, line, port] at book ⊢
    exact book
  exchange l := by
    have port : v.port l = u.port l := congrArg (fun x : Vector Port 4 => x[l]) ports
    obtain ⟨started, busy, fresh, off⟩ := later.exchange l
    rw [port] at started busy fresh off
    have on : v.lineOn l = u.lineOn l := by rw [State.lineOn, port, State.lineOn]
    exact ⟨started, busy, fresh, on ▸ off⟩
  sched P b holds := later.sched P b (by rwa [sched, editions])

/-- A request that completes at the end of a step. -/
theorem later_completes {s : State} {t : Strip} {r : Result} {u : State} {q : Request} {h f : Bool}
    (holds : (u.strip t).scan = .holding q h f) (healthy : u.isFaulted = false)
    (pos : (u.strip t).position < u.stripCount t) (wf : Memory.wf u.mem = true) :
    Completed t r u (settle s (boundaries (completeRequest t r u))) ∧
      Later u (settle s (boundaries (completeRequest t r u))) := by
  obtain ⟨completed, kept⟩ := completes_settled (s := s) (r := r) holds healthy pos wf
  obtain ⟨-, -, -, -, -, -, -, -, ports, sched, sweeps, -, -, editions, -, roster, -⟩ :=
    offStrip_eq (t := t) (s := completeRequest t r u) (u := u) (by simp)
  exact ⟨completed, (later_boundaries s _).of_eq kept sched sweeps roster ports editions⟩

/-- A request acted on at once completes with its answer, at the end of the step on the state `v` the answer leaves. -/
theorem atOnce_later {s v : State} {t : Strip} {k : Nat} {answer : Request → State → State × Result} {r : Result}
    (take : s.canTake t .atOnce k) (answered : answer (s.request t) (takeUp t .atOnce s) = (v, r))
    (keeps : v.fixed = (takeUp t .atOnce s).fixed) (regs : v.regs = (takeUp t .atOnce s).regs) :
    ∃ t', scheduled s (atOnce t k answer) = .next t' ∧ Completed t r (takeUp t .atOnce s) t' ∧ Later v t' := by
  obtain ⟨high, may, pos, wf⟩ := take
  obtain ⟨work, q, f, hold⟩ := mayTake_holds may
  obtain ⟨mem, engine, -, -, exch, -⟩ := of_fixed keeps
  have spine := takeUp_spine s t .atOnce
  have strip : v.strip t = ⟨(s.strip t).position, .holding q false f⟩ := by
    rw [← takeUp_strip .atOnce hold]
    cases t <;> simp only [State.strip, exch]
  have descriptor : v.exch.descriptor = s.exch.descriptor := by
    rw [exch]
    exact congrArg Spine.descriptor spine
  have healthy : v.isFaulted = false := by
    have same : v.engine = s.engine := engine.trans (congrArg Spine.engine spine)
    simpa only [State.isFaulted, same] using not_isFaulted_of_working work
  have run : scheduled s (atOnce t k answer) = .next (settle s (boundaries (completeRequest t r v))) := by
    simp only [scheduled_next high, atOnce, may, if_true, answered]
  obtain ⟨completed, later⟩ := later_completes (s := s) (r := r) (congrArg StripState.scan strip) healthy
    (by rw [strip, (stripAddr_of_desc descriptor t).2]; exact pos) (by rw [mem, takeUp_mem]; exact wf)
  exact ⟨_, run, completed.of_eq exch mem regs, later⟩

theorem scheduled_later {s : State} {f : State → State} (high : s.resetLow = false) :
    ∃ t, scheduled s f = .next t ∧ Settled (f s) t ∧ Later (f s) t :=
  ⟨_, scheduled_next high, settled_boundaries _ _, later_boundaries _ _⟩

section
variable {u t : State}

theorem Later.slot (after : Later u t) (n : Fin 24) : t.slot n = u.slot n := by
  rw [State.slot, after.roster, State.slot]

theorem Later.lineRoster (after : Later u t) (l : Fin 4) : t.lineRoster l = u.lineRoster l := by
  rw [State.lineRoster, after.roster, State.lineRoster]

theorem Later.marks (after : Later u t) (n : Fin 24) : t.marks n = u.marks n := State.marks_of_dues after.dues n

/-- No boundary gives a slot a delivery. -/
theorem Later.delivery_none (after : Later u t) {n : Fin 24} (empty : u.delivery n = none) : t.delivery n = none := by
  rcases after.book n with ⟨same, -⟩ | ⟨-, gone, -⟩
  · exact same.trans empty
  · exact gone

theorem Later.delivery_some (after : Later u t) {n : Fin 24} {d : Delivery} (has : t.delivery n = some d) :
    u.delivery n = some d := by
  rcases after.book n with ⟨same, -⟩ | ⟨-, gone, -⟩
  · exact same.symm.trans has
  · rw [gone] at has
    cases has

/-- A slot of a line whose port is not IDLE keeps its delivery and its sweep record. -/
theorem Later.book_of_busy (after : Later u t) {n : Fin 24} {l : Fin 4} (line : u.lineOf n = some l)
    (busy : (u.port l).xstate ≠ .idle) : t.delivery n = u.delivery n ∧ t.sweep n = u.sweep n := by
  rcases after.book n with same | ⟨⟨k, d, line', idle, -⟩, -⟩
  · exact same
  · rw [line] at line'
    cases line'
    exact absurd idle busy

/-- So does a slot with a DELTA or a RELOAD open. -/
theorem Later.book_of_update (after : Later u t) {n : Fin 24} {d : Delivery} (has : u.delivery n = some d)
    (update : d.mode = .delta ∨ d.mode = .reload) : t.delivery n = u.delivery n ∧ t.sweep n = u.sweep n := by
  rcases after.book n with same | ⟨⟨k, d', -, -, has', delta, reload⟩, -⟩
  · exact same
  · rw [has] at has'
    cases has'
    rcases update with update | update
    · exact absurd update delta
    · exact absurd update reload

/-- The sweep record of a slot without a delivery stays. -/
theorem Later.sweep_of_none (after : Later u t) {n : Fin 24} (empty : u.delivery n = none) : t.sweep n = u.sweep n := by
  rcases after.book n with ⟨-, same⟩ | ⟨⟨k, d, -, -, has, -⟩, -⟩
  · exact same
  · rw [empty] at has
    cases has

theorem sweepEnded_cold {s : State} {n : Fin 24} (cold : s.sweep n = .cold) : s.sweepEnded n = .cold := by
  unfold State.sweepEnded
  rw [cold]
  split <;> rfl

theorem Later.sweep_cold (after : Later u t) {n : Fin 24} (cold : u.sweep n = .cold) : t.sweep n = .cold := by
  rcases after.book n with ⟨-, same⟩ | ⟨-, -, ended⟩
  · exact same.trans cold
  · exact ended.trans (sweepEnded_cold cold)

theorem port_eq_of_core {p q : Port} (same : p.core = q.core) :
    p = { q with exchange := p.exchange, recordTimer := p.recordTimer } := by
  obtain ⟨⟩ := p
  obtain ⟨⟩ := q
  simp only [Port.core, Port.mk.injEq] at same ⊢
  tauto

/-- A port after a step, but for its exchange and the timer of its record. -/
theorem Later.port (after : Later u t) (l : Fin 4) :
    ∃ x r, t.port l = { u.port l with exchange := x, recordTimer := r } := ⟨_, _, port_eq_of_core (after.ports l)⟩

end

end Sys2Proof.Machine

/-!
The requests of the roster that are acted on at once: PIN SLOT (O35), FREE, RELEASE and RESYNC SLOT (O36) and CLEAR
COUNTERS (O37).
-/
namespace Sys2Proof.Machine

/-! ### The slot and the line that a request names -/

theorem Request.slot_of {r : Request} {n : Fin 24} (names : r.param 8 1 = n.val) : r.slot = some n := by
  simp only [Request.slot, names, n.isLt, dif_pos]

theorem Request.slot_none {r : Request} (bad : 24 ≤ r.param 8 1) : r.slot = none := dif_neg (by omega)

theorem lineOfNat_val (l : Fin 4) : lineOfNat l.val = some l := dif_pos l.isLt

theorem lineOfNat_none {k : Nat} (bad : 4 ≤ k) : lineOfNat k = none := dif_neg (by omega)

theorem change_of_fixed {s u : State} (same : s.fixed = u.fixed) : s.change = u.change := by
  obtain ⟨-, -, -, -, -, change, -⟩ := of_fixed same
  exact change

theorem clock_of_fixed {s u : State} (same : s.fixed = u.fixed) : s.clock = u.clock := by
  obtain ⟨-, -, -, -, -, -, clock, -⟩ := of_fixed same
  exact clock

theorem profiles_of_fixed {s u : State} (same : s.fixed = u.fixed) : s.profiles = u.profiles := by
  obtain ⟨-, -, -, -, -, -, -, profiles, -⟩ := of_fixed same
  exact profiles

theorem takeUp_atOnce_slot (s : State) (t : Strip) (n : Fin 24) : (takeUp t .atOnce s).slot n = s.slot n := by
  obtain ⟨x, taken⟩ := takeUp_atOnce_eq_exch s t
  rw [taken]
  rfl

/-! ### What the operations on a slot leave of the scheduler -/

theorem marks_of_abandon (s : State) (n k : Fin 24) : (abandon n s).marks k = s.marks k :=
  State.marks_of_dues (abandon_dues s n) k

/-- A refused request of those acted on at once changes nothing but its strip slot. -/
theorem atOnce_refused {s : State} {t : Strip} {k : Nat} {answer : Request → State → State × Result} {r : Result}
    (take : s.canTake t .atOnce k) (answered : answer (s.request t) (takeUp t .atOnce s) = (takeUp t .atOnce s, r)) :
    ∃ t', scheduled s (atOnce t k answer) = .next t' ∧ Answers t r (takeUp t .atOnce s) t' := by
  obtain ⟨t', run, completed, later⟩ := atOnce_later take answered rfl rfl
  exact ⟨t', run, completed, later.toKept⟩

/-! ### PIN SLOT -/

/-- The state in which a slot is bound anew: no exchange is out for it, and its delivery is gone. -/
def vacated (n : Fin 24) (s : State) : State := abandon n (withdraw n (fun _ => true) true s)

theorem vacated_bare (n : Fin 24) (s : State) : (vacated n s).bare = s.bare := by simp [vacated]

theorem vacated_delivery (n : Fin 24) (s : State) : (vacated n s).delivery n = none := by simp [vacated]

theorem vacated_marks (n k : Fin 24) (s : State) : (vacated n s).marks k = s.marks k := marks_of_abandon _ n k

theorem pin_eq_vacated (n : Fin 24) (b : Fin 4 × Nat) (expected : BitVec 64) (frozen : Bool) (s : State) :
    pin n b expected frozen s =
      if (s.slot n).pinKeeps b expected then (vacated n s).setSlot n ((s.slot n).pinned b expected frozen)
      else dropSweep n (((vacated n s).setSlot n ((s.slot n).pinned b expected frozen)).modMarks n
        fun _ => ⟨false, false, false⟩) := pin_eq n b expected frozen s

section
variable (n : Fin 24) (b : Fin 4 × Nat) (expected : BitVec 64) (frozen : Bool) (s : State)

theorem pin_regs : (pin n b expected frozen s).regs = s.regs := by
  have regs := congrArg State.regs (vacated_bare n s)
  have regs : (vacated n s).regs = s.regs := regs
  rw [pin_eq_vacated]
  split <;> simpa [dropSweep] using regs

theorem pin_lines : (pin n b expected frozen s).roster.lines = s.roster.lines := by
  have lines := congrArg (fun s : State => s.roster.lines) (vacated_bare n s)
  have lines : (vacated n s).roster.lines = s.roster.lines := lines
  rw [pin_eq_vacated]
  split <;> exact lines

theorem pin_editions : (pin n b expected frozen s).editions = s.editions := by
  have editions := congrArg State.editions (vacated_bare n s)
  have editions : (vacated n s).editions = s.editions := editions
  rw [pin_eq_vacated]
  generalize vacated n s = v at editions
  split <;> exact editions

theorem pin_delivery : (pin n b expected frozen s).delivery n = none := by
  have gone := vacated_delivery n s
  rw [pin_eq_vacated]
  generalize vacated n s = v at gone
  split <;> exact gone

theorem pin_marks : (pin n b expected frozen s).marks n =
    if (s.slot n).pinKeeps b expected then s.marks n else ⟨false, false, false⟩ := by
  rw [pin_eq_vacated]
  split
  · exact vacated_marks n n s
  · simp [dropSweep]

theorem pin_sweep (cold : (s.slot n).pinKeeps b expected = false) : (pin n b expected frozen s).sweep n = .cold := by
  rw [pin_eq_vacated, if_neg (by simp [cold]), dropSweep, State.setSweep_sweep, if_pos rfl]

end

theorem bindingTaken_iff (s : State) (n : Fin 24) (b : Fin 4 × Nat) :
    s.bindingTaken n b = true ↔ ∃ m, m ≠ n ∧ (s.slot m).binding = some b := by
  simp [State.bindingTaken, allSlots]

theorem pinSlot_bad {r : Request} (bad : 24 ≤ r.param 8 1 ∨ 4 ≤ r.param 9 1 ∨ r.param 10 1 < 1 ∨ 30 < r.param 10 1)
    (s : State) : pinSlot r s = (s, .plain Outcome.badParam) := by
  unfold pinSlot
  split
  · next n l slot line =>
    have index : r.param 8 1 < 24 := by
      by_contra above
      rw [Request.slot_none (by omega)] at slot
      cases slot
    have number : r.param 9 1 < 4 := by
      by_contra above
      rw [lineOfNat_none (by omega)] at line
      cases line
    exact if_pos (by omega)
  · rfl

theorem pinSlot_good {r : Request} {n : Fin 24} {l : Fin 4} (slot : r.param 8 1 = n.val) (line : r.param 9 1 = l.val)
    (drop : ¬ (r.param 10 1 < 1 ∨ 30 < r.param 10 1)) (s : State) :
    pinSlot r s =
      if s.bindingTaken n (s.actingLine l, r.param 10 1) then (s, .plain Outcome.wrongState)
      else (pin n (s.actingLine l, r.param 10 1) (BitVec.ofNat 64 (r.param 11 8)) (decide (r.param 19 1 ≠ 0)) s,
        .plain Outcome.ok) := by
  unfold pinSlot
  rw [Request.slot_of slot, line, lineOfNat_val]
  exact if_neg drop

theorem Slot.pinKeeps_iff (old : Slot) (b : Fin 4 × Nat) (expected : BitVec 64) :
    old.pinKeeps b expected = true ↔ old.binding = some b ∧
      (if expected ≠ 0 then expected else if old.binding = some b then old.serial else 0) = old.serial := by
  simp [Slot.pinKeeps]

theorem Slot.pinned_eq (old : Slot) (b : Fin 4 × Nat) (expected : BitVec 64) (frozen : Bool) :
    old.pinned b expected frozen =
      let serial := if expected ≠ 0 then expected else if old.binding = some b then old.serial else 0
      let base : Slot := if old.binding = some b ∧ serial = old.serial then old else .cold
      { base with
        state := .silent, binding := some b, mode := .pinned, frozen := frozen
        serial := serial, serialSeen := 0, reason := .none, replaced := false, duplicate := false
        window := none, reach := .primary, misses := 0, failures := 0, garbleRun := 0, backoff := none
        keepalive := some 0, kept := none, identify := none, counters := old.counters } := by
  have keeps := old.pinKeeps_iff b expected
  unfold Slot.pinned
  dsimp only
  by_cases kept : old.pinKeeps b expected = true
  · rw [if_pos kept, if_pos (keeps.1 kept)]
    simp only [decide_eq_true_eq]
  · rw [if_neg kept, if_neg (fun k => kept (keeps.2 k))]
    simp only [decide_eq_true_eq]

/-- Settles O35: a refusal by `pinSlot_bad` and `bindingTaken_iff`; otherwise the slot is `pin_slot`'s. -/
theorem pinSlotBinds : Obligations.PinSlotBinds := by
  intro s t take r u drop expected bad
  obtain ⟨x, taken⟩ := takeUp_atOnce_eq_exch s t
  by_cases wrong : bad
  · obtain ⟨t', run, answers⟩ := atOnce_refused take (pinSlot_bad wrong _)
    exact ⟨t', run, fun _ => answers, fun _ _ fine => absurd wrong fine⟩
  have ranges : r.param 8 1 < 24 ∧ r.param 9 1 < 4 ∧ ¬ (drop < 1 ∨ 30 < drop) := by
    simp only [bad, not_or] at wrong
    omega
  obtain ⟨below, few, inside⟩ := ranges
  let n : Fin 24 := ⟨r.param 8 1, below⟩
  let l : Fin 4 := ⟨r.param 9 1, few⟩
  let b := (s.actingLine l, drop)
  have answered (v : State) := pinSlot_good (n := n) (l := l) rfl rfl inside v
  have slots := takeUp_atOnce_slot s t
  by_cases other : ∃ m, m ≠ n ∧ (s.slot m).binding = some b
  · have taken' : (takeUp t .atOnce s).bindingTaken n ((takeUp t .atOnce s).actingLine l, drop) = true := by
      rw [taken]
      exact (bindingTaken_iff s n b).2 other
    obtain ⟨t', run, answers⟩ := atOnce_refused take ((answered _).trans (if_pos taken'))
    refine ⟨t', run, fun nope => absurd nope wrong, fun n' l' _ slot line => ?_⟩
    obtain rfl : n = n' := Fin.ext slot
    obtain rfl : l = l' := Fin.ext line
    refine ⟨fun _ => answers, fun alone => ?_⟩
    obtain ⟨m, ne, holds⟩ := other
    exact absurd holds (alone m ne)
  · have free : ¬ (takeUp t .atOnce s).bindingTaken n ((takeUp t .atOnce s).actingLine l, drop) = true := by
      rw [taken]
      exact fun taken => other ((bindingTaken_iff s n b).1 taken)
    obtain ⟨t', run, completed, later⟩ := atOnce_later take ((answered _).trans (if_neg free)) (pin_fixed ..) (pin_regs ..)
    refine ⟨t', run, fun nope => absurd nope wrong, fun n' l' _ slot line => ?_⟩
    obtain rfl : n = n' := Fin.ext slot
    obtain rfl : l = l' := Fin.ext line
    refine ⟨fun holds => absurd holds other, fun alone => ⟨completed, ?_⟩⟩
    have mine : (takeUp t .atOnce s).slot n = s.slot n := slots n
    have acting : (takeUp t .atOnce s).actingLine l = s.actingLine l := by rw [taken]; rfl
    have keeps := Slot.pinKeeps_iff (s.slot n) b expected
    have slot (m : Fin 24) := (later.slot m).trans (pin_slot ..)
    have lines := (congrArg Roster.lines later.roster).trans (pin_lines ..)
    have marks := (later.marks n).trans (pin_marks ..)
    have sweep := fun cold => later.sweep_cold (pin_sweep n _ (BitVec.ofNat 64 (r.param 11 8)) _ _ cold)
    rw [mine, acting] at marks sweep
    refine ⟨?_, fun m ne => ?_, ?_, later.delivery_none (pin_delivery ..), ?_, fun cold => sweep ?_, ?_, ?_, ?_, ?_⟩
    · rw [slot, if_pos rfl, mine, acting]
      exact Slot.pinned_eq (s.slot n) b expected _
    · rw [slot, if_neg (Ne.symm ne), slots]
    · rw [lines, taken]
    · rw [marks, taken]
      exact if_congr keeps rfl rfl
    · exact Bool.eq_false_iff.2 fun kept => cold (keeps.1 kept)
    · rw [later.change, change_of_fixed (pin_fixed ..), taken]
    · rw [later.editions, pin_editions, taken]
    · rw [later.clock, clock_of_fixed (pin_fixed ..), taken]
    · rw [later.profiles, profiles_of_fixed (pin_fixed ..), taken]

/-! ### FREE, RELEASE and RESYNC SLOT -/

/-- FREE SLOT but for the roster-full flag. -/
def freed (n : Fin 24) (s : State) : State :=
  dropSweep n (((vacated n s).setSlot n .cold).modMarks n fun _ => ⟨false, false, false⟩)

theorem free_eq (n : Fin 24) (s : State) :
    free n s = { freed n s with roster := { (freed n s).roster with full := false } } := rfl

theorem free_regs (n : Fin 24) (s : State) : (free n s).regs = s.regs := by
  have regs := congrArg State.regs (vacated_bare n s)
  have regs : (vacated n s).regs = s.regs := regs
  rw [free_eq, freed]
  generalize vacated n s = v at regs
  exact regs

theorem free_delivery (n : Fin 24) (s : State) : (free n s).delivery n = none := by
  have gone := vacated_delivery n s
  rw [free_eq, freed]
  generalize vacated n s = v at gone
  exact gone

theorem free_marks (n : Fin 24) (s : State) : (free n s).marks n = ⟨false, false, false⟩ := by
  have cold : (freed n s).marks n = ⟨false, false, false⟩ := by simp [freed, dropSweep]
  rw [free_eq]
  generalize freed n s = v at cold
  exact cold

theorem free_sweep (n : Fin 24) (s : State) : (free n s).sweep n = .cold := by
  have cold : (freed n s).sweep n = .cold := by rw [freed, dropSweep, State.setSweep_sweep, if_pos rfl]
  rw [free_eq]
  generalize freed n s = v at cold
  exact cold

theorem free_full (n : Fin 24) (s : State) : (free n s).roster.full = false := by rw [free_eq]

theorem leaveBlocklist_delivery {n : Fin 24} {s : State} {d : Delivery} (has : s.delivery n = some d)
    (blocklist : d.mode.isBlocklist = true) : (leaveBlocklist n s).delivery n = none := by
  simp [leaveBlocklist, has, blocklist]

theorem resync_delivery {n : Fin 24} {s : State} {d : Delivery} (has : s.delivery n = some d)
    (blocklist : d.mode.isBlocklist = true) : (resync n s).delivery n = none := by
  have gone := leaveBlocklist_delivery has blocklist
  rw [resync_eq, resyncStart]
  generalize leaveBlocklist n s = v at gone
  split <;> exact gone

theorem resync_sweep (n : Fin 24) (s : State) : (resync n s).sweep n = .cold := by
  have cold : (resyncStart n s).sweep n = .cold := by rw [resyncStart, dropSweep, State.setSweep_sweep, if_pos rfl]
  rw [resync_eq]
  generalize resyncStart n s = v at cold
  split <;> exact cold

theorem resync_regs (n : Fin 24) (s : State) : (resync n s).regs = s.regs := by
  have regs := congrArg State.regs (leaveBlocklist_bare n s)
  have regs : (leaveBlocklist n s).regs = s.regs := regs
  rw [resync_eq, resyncStart]
  generalize leaveBlocklist n s = v at regs
  split <;> exact regs

section
variable {s : State} {t : Strip}

theorem exec_freeSlot (take : s.canTake t .atOnce Kind.freeSlot) :
    (24 ≤ (s.request t).param 8 1 →
      ∃ t', exec (.freeSlot t) s = .next t' ∧ Answers t (.plain Outcome.badParam) (takeUp t .atOnce s) t') ∧
    ∀ n : Fin 24, (s.request t).param 8 1 = n.val →
      ∃ t', exec (.freeSlot t) s = .next t' ∧ Completed t (.plain Outcome.ok) (takeUp t .atOnce s) t' ∧
        Later (free n (takeUp t .atOnce s)) t' := by
  refine ⟨fun wrong => atOnce_refused take ?_, fun n names => atOnce_later take ?_ (free_fixed ..) (free_regs ..)⟩
  · rw [freeSlot, Request.slot_none wrong]
  · rw [freeSlot, Request.slot_of names]

theorem exec_releaseSlot (take : s.canTake t .atOnce Kind.releaseSlot) :
    (24 ≤ (s.request t).param 8 1 →
      ∃ t', exec (.releaseSlot t) s = .next t' ∧ Answers t (.plain Outcome.badParam) (takeUp t .atOnce s) t') ∧
    ∀ n : Fin 24, (s.request t).param 8 1 = n.val →
      ((s.slot n).state ≠ .quarantined →
        ∃ t', exec (.releaseSlot t) s = .next t' ∧ Answers t (.plain Outcome.wrongState) (takeUp t .atOnce s) t') ∧
      ((s.slot n).state = .quarantined →
        ∃ t', exec (.releaseSlot t) s = .next t' ∧ Completed t (.plain Outcome.ok) (takeUp t .atOnce s) t' ∧
          Later (releaseQuarantine n (takeUp t .atOnce s)) t') := by
  refine ⟨fun wrong => atOnce_refused take ?_, fun n names => ⟨fun other => ?_, fun quarantined => ?_⟩⟩
  · rw [releaseSlot, Request.slot_none wrong]
  · refine atOnce_refused take ?_
    rw [releaseSlot, Request.slot_of names]
    exact if_neg (by rwa [takeUp_atOnce_slot])
  · refine atOnce_later take ?_ (releaseQuarantine_fixed ..) rfl
    rw [releaseSlot, Request.slot_of names]
    exact if_pos (by rwa [takeUp_atOnce_slot])

theorem exec_resyncSlot (take : s.canTake t .atOnce Kind.resyncSlot) :
    (24 ≤ (s.request t).param 8 1 →
      ∃ t', exec (.resyncSlot t) s = .next t' ∧ Answers t (.plain Outcome.badParam) (takeUp t .atOnce s) t') ∧
    ∀ n : Fin 24, (s.request t).param 8 1 = n.val →
      ((s.slot n).state = .vacant →
        ∃ t', exec (.resyncSlot t) s = .next t' ∧ Answers t (.plain Outcome.wrongState) (takeUp t .atOnce s) t') ∧
      ((s.slot n).state ≠ .vacant →
        ∃ t', exec (.resyncSlot t) s = .next t' ∧ Completed t (.plain Outcome.ok) (takeUp t .atOnce s) t' ∧
          Later (resync n (takeUp t .atOnce s)) t') := by
  refine ⟨fun wrong => atOnce_refused take ?_, fun n names => ⟨fun vacant => ?_, fun bound => ?_⟩⟩
  · rw [resyncSlot, Request.slot_none wrong]
  · refine atOnce_refused take ?_
    rw [resyncSlot, Request.slot_of names]
    exact if_pos (by rwa [takeUp_atOnce_slot])
  · refine atOnce_later take ?_ (resync_fixed ..) (resync_regs ..)
    rw [resyncSlot, Request.slot_of names]
    exact if_neg (by rwa [takeUp_atOnce_slot])

end

/-- Settles O36: what each request makes of its slot is `free_slot`, `releaseQuarantine` and `resync_slot`. -/
theorem freeReleaseResync : Obligations.FreeReleaseResync := by
  intro s t r u bad
  have slots := takeUp_atOnce_slot s t
  have inRange {n : Fin 24} (names : r.param 8 1 = n.val) : ¬ bad := by have := n.isLt; omega
  refine ⟨fun take => ?_, fun take => ?_, fun take => ?_⟩
  · obtain ⟨refused, accepted⟩ := exec_freeSlot take
    by_cases wrong : bad
    · obtain ⟨t', run, answers⟩ := refused wrong
      exact ⟨t', run, fun _ => answers, fun n names => absurd wrong (inRange names)⟩
    · obtain ⟨t', run, completed, later⟩ := accepted ⟨r.param 8 1, Nat.lt_of_not_le wrong⟩ rfl
      refine ⟨t', run, fun bad => absurd bad wrong, fun n names => ?_⟩
      obtain rfl : ⟨r.param 8 1, Nat.lt_of_not_le wrong⟩ = n := Fin.ext names
      have slot (m : Fin 24) := (later.slot m).trans (free_slot ..)
      refine ⟨completed, (slot _).trans (if_pos rfl), (later.marks _).trans (free_marks ..), later.sweep_cold (free_sweep ..),
        ?_, later.delivery_none (free_delivery ..), fun m ne => ?_⟩
      · rw [later.roster, free_full]
      · rw [slot, if_neg (Ne.symm ne), slots]
  · obtain ⟨refused, accepted⟩ := exec_releaseSlot take
    by_cases wrong : bad
    · obtain ⟨t', run, answers⟩ := refused wrong
      exact ⟨t', run, fun _ => answers, fun n names => absurd wrong (inRange names)⟩
    · obtain ⟨otherwise, quarantined⟩ := accepted ⟨r.param 8 1, Nat.lt_of_not_le wrong⟩ rfl
      by_cases is : (s.slot ⟨r.param 8 1, Nat.lt_of_not_le wrong⟩).state = .quarantined
      · obtain ⟨t', run, completed, later⟩ := quarantined is
        refine ⟨t', run, fun bad => absurd bad wrong, fun n names => ?_⟩
        obtain rfl : ⟨r.param 8 1, Nat.lt_of_not_le wrong⟩ = n := Fin.ext names
        have slot (m : Fin 24) := (later.slot m).trans (State.modSlot_slot ..)
        refine ⟨fun other => absurd is other, fun _ => ⟨completed, ?_, fun m ne => ?_⟩⟩
        · rw [slot, if_pos rfl, slots]
        · rw [slot, if_neg (Ne.symm ne), slots]
      · obtain ⟨t', run, answers⟩ := otherwise is
        refine ⟨t', run, fun bad => absurd bad wrong, fun n names => ?_⟩
        obtain rfl : ⟨r.param 8 1, Nat.lt_of_not_le wrong⟩ = n := Fin.ext names
        exact ⟨fun _ => answers, fun quarantined => absurd quarantined is⟩
  · obtain ⟨refused, accepted⟩ := exec_resyncSlot take
    by_cases wrong : bad
    · obtain ⟨t', run, answers⟩ := refused wrong
      exact ⟨t', run, fun _ => answers, fun n names => absurd wrong (inRange names)⟩
    · obtain ⟨vacant, otherwise⟩ := accepted ⟨r.param 8 1, Nat.lt_of_not_le wrong⟩ rfl
      by_cases is : (s.slot ⟨r.param 8 1, Nat.lt_of_not_le wrong⟩).state = .vacant
      · obtain ⟨t', run, answers⟩ := vacant is
        refine ⟨t', run, fun bad => absurd bad wrong, fun n names => ?_⟩
        obtain rfl : ⟨r.param 8 1, Nat.lt_of_not_le wrong⟩ = n := Fin.ext names
        exact ⟨fun _ => answers, fun other => absurd is other⟩
      · obtain ⟨t', run, completed, later⟩ := otherwise is
        refine ⟨t', run, fun bad => absurd bad wrong, fun n names => ?_⟩
        obtain rfl : ⟨r.param 8 1, Nat.lt_of_not_le wrong⟩ = n := Fin.ext names
        have slot (m : Fin 24) := (later.slot m).trans (resync_slot ..)
        refine ⟨fun vacant => absurd vacant is, fun _ => ⟨completed, ?_, later.sweep_cold (resync_sweep ..),
          fun d has blocklist => later.delivery_none (resync_delivery (d := d) ?_ blocklist), fun m ne => ?_⟩⟩
        · rw [slot, if_pos rfl, slots]
          rfl
        · obtain ⟨x, taken⟩ := takeUp_atOnce_eq_exch s t
          rw [taken]
          exact has
        · rw [slot, if_neg (Ne.symm ne), slots]

/-! ### CLEAR COUNTERS -/

/-- A fold over the lines whose step changes only its own port leaves the step's change in each. -/
theorem forLines_port {g : Fin 4 → Port → Port} {f : Fin 4 → State → State}
    (own : ∀ l s k, (f l s).port k = if l = k then g l (s.port l) else s.port k) :
    ∀ (ls : List (Fin 4)) (_ : ls.Nodup) (s : State) (k : Fin 4),
      (forLines f ls s).port k = if k ∈ ls then g k (s.port k) else s.port k
  | [], _, _, _ => rfl
  | l :: ls, nodup, s, k => by
    obtain ⟨fresh, rest⟩ := List.nodup_cons.1 nodup
    have step : forLines f (l :: ls) s = forLines f ls (f l s) := rfl
    rw [step, forLines_port own ls rest, own]
    by_cases here : l = k
    · subst here
      simp [fresh]
    · simp [here, Ne.symm here]

/-- R88: the slot with its counters and flags cleared. -/
def Slot.cleared (v : Slot) : Slot := { v with counters := .zero, replaced := false, duplicate := false }

/-- CLEAR COUNTERS at one slot. -/
def clearSlot (mask : BitVec 32) (n : Fin 24) (s : State) : State :=
  if mask.getLsbD n.val then want (rosterRec n) (s.modSlot n Slot.cleared) else s

/-- CLEAR COUNTERS at one line. -/
def clearLine (mask : BitVec 8) (l : Fin 4) (s : State) : State :=
  if mask.getLsbD l.val then s.modPort l fun p => { p with counters := .zero } else s

theorem clearCounters_eq (r : Request) (s : State) :
    clearCounters r s = (forLines (clearLine (BitVec.ofNat 8 (r.param 12 1))) allLines
      (forSlots (clearSlot (BitVec.ofNat 32 (r.param 8 4))) allSlots s), .plain Outcome.ok) := rfl

section
variable (slots : BitVec 32) (lines : BitVec 8) (s : State)

theorem clearSlots_slot (n : Fin 24) :
    (forSlots (clearSlot slots) allSlots s).slot n = if slots.getLsbD n.val then (s.slot n).cleared else s.slot n := by
  refine forSlots_slot (fun _ => ()) (fun _ n v => if slots.getLsbD n.val then v.cleared else v) (fun _ _ => rfl)
    (fun n s k => ?_) s n
  unfold clearSlot
  split
  · exact State.modSlot_slot ..
  · split
    · next here => rw [here]
    · rfl

theorem clearSlots_wanted {n : Fin 24} (marked : slots.getLsbD n.val = true) :
    ∀ (ns : List (Fin 24)) (s : State), n ∈ ns ∨ s.report.wanted[rosterRec n] = true →
      (forSlots (clearSlot slots) ns s).report.wanted[rosterRec n] = true
  | [], s, named => named.resolve_left (by simp)
  | m :: ns, s, named => by
    refine clearSlots_wanted marked ns (clearSlot slots m s) ?_
    rcases named with member | wanted
    · rcases List.mem_cons.1 member with rfl | member
      · right
        rw [clearSlot, if_pos marked, want_wanted]
        simp
      · exact .inl member
    · right
      unfold clearSlot
      split
      · rw [want_wanted]
        simpa using .inr wanted
      · exact wanted

theorem clearLines_port (l : Fin 4) :
    ((forLines (clearLine lines) allLines s).port l).counters =
      if lines.getLsbD l.val then .zero else (s.port l).counters := by
  have own (l : Fin 4) (s : State) (k : Fin 4) : (clearLine lines l s).port k =
      if l = k then (if lines.getLsbD l.val then { s.port l with counters := .zero } else s.port l) else s.port k := by
    unfold clearLine
    split
    · exact State.modPort_port ..
    · split
      · next here => rw [here]
      · rfl
  rw [forLines_port (g := fun l p => if lines.getLsbD l.val then { p with counters := .zero } else p) own allLines
    (List.nodup_finRange 4), if_pos (show l ∈ allLines from List.mem_finRange l)]
  split <;> rfl

theorem clearSlots_none (none : ∀ n : Fin 24, slots.getLsbD n.val = false) :
    forSlots (clearSlot slots) allSlots s = s :=
  forSlots_keeps id _ (fun n s => by simp only [clearSlot, none, Bool.false_eq_true, if_false, id]) allSlots s

theorem clearLines_none (none : ∀ l : Fin 4, lines.getLsbD l.val = false) :
    forLines (clearLine lines) allLines s = s :=
  forLines_keeps id _ (fun l s => by simp only [clearLine, none, Bool.false_eq_true, if_false, id]) allLines s

theorem clearSlots_port (l : Fin 4) : (forSlots (clearSlot slots) allSlots s).port l = s.port l :=
  forSlots_keeps (fun s => s.port l) _ (fun n s => by dsimp only [clearSlot]; split <;> rfl) allSlots s

theorem clearSlots_regs : (forSlots (clearSlot slots) allSlots s).regs = s.regs :=
  forSlots_keeps State.regs _ (fun n s => by dsimp only [clearSlot]; split <;> rfl) allSlots s

theorem clearLines_keeps : (forLines (clearLine lines) allLines s).regs = s.regs ∧
    (forLines (clearLine lines) allLines s).roster = s.roster ∧
    (forLines (clearLine lines) allLines s).report = s.report := by
  have keeps := forLines_keeps (fun s => (s.regs, s.roster, s.report)) (clearLine lines)
    (fun l s => by dsimp only [clearLine]; split <;> rfl) allLines s
  simpa only [Prod.mk.injEq] using keeps

end

/-- Settles O37: the two folds slot by slot (`clearSlots_slot`) and line by line (`clearLines_port`). -/
theorem clearCountersByMask : Obligations.ClearCountersByMask := by
  intro s t take slots lines u
  obtain ⟨x, taken⟩ := takeUp_atOnce_eq_exch s t
  let v := forSlots (clearSlot slots) allSlots u
  obtain ⟨regs, roster, report⟩ := clearLines_keeps lines v
  obtain ⟨t', run, completed, later⟩ :=
    atOnce_later take (clearCounters_eq (s.request t) u) (clearCounters_fixed (s.request t) u)
      (regs.trans (clearSlots_regs slots u))
  refine ⟨t', run, completed, fun n => ?_, fun l => ?_, fun noSlot noLine => ⟨completed, ?_⟩⟩
  · have slot : t'.slot n = if slots.getLsbD n.val then (s.slot n).cleared else s.slot n := by
      rw [later.slot, State.slot, roster, ← takeUp_atOnce_slot s t n]
      exact clearSlots_slot slots u n
    refine ⟨fun marked => ⟨?_, later.wanted _ ?_⟩, fun clear => ?_⟩
    · rw [slot, if_pos marked]
      rfl
    · rw [report]
      exact clearSlots_wanted slots marked allSlots u (.inl (List.mem_finRange n))
    · rw [slot, if_neg (by simp only [clear, Bool.false_eq_true, not_false_eq_true])]
  · have counters := congrArg Port.counters (later.ports l)
    have port : v.port l = s.port l := by
      refine (clearSlots_port slots u l).trans ?_
      simp only [u, taken]
      rfl
    rw [← port]
    exact counters.trans (clearLines_port lines v l)
  · rw [clearSlots_none _ _ noSlot, clearLines_none _ _ noLine] at later
    exact later.toKept

end Sys2Proof.Machine

/-!
The delivery groups: which are left when a slot leaves, when deliveries end, and when the groups of a class end; and what
the withdrawal of the PENDING edition leaves.
-/
namespace Sys2Proof.Machine

/-! ### A slot that leaves its group -/

/-- A group that is tended has members; its plan is fixed if its last OPEN is done with. -/
theorem mem_tendGroups {s : State} {g : Group} (member : g ∈ (tendGroups s).sched.groups) :
    ∃ h ∈ s.sched.groups, h.members ≠ [] ∧
      ((g = h ∧ ¬ (h.planned = false ∧ h.toOpen = [])) ∨
        (h.planned = false ∧ h.toOpen = [] ∧ ∃ plan, g = { h with planned := true, plan := plan })) := by
  unfold tendGroups at member
  have groups : ∀ gs : List Group, (gs.foldl (fun s g => endTurns (.group g.id) s) s).sched.groups = s.sched.groups :=
    fun gs => foldl_keeps (fun s : State => s.sched.groups) (fun s (g : Group) => endTurns (.group g.id) s) (fun _ _ => rfl) gs s
  obtain ⟨h, left, same⟩ := List.mem_map.1 member
  obtain ⟨here, some⟩ := List.mem_filter.1 left
  rw [groups] at here
  refine ⟨h, here, by simpa using some, ?_⟩
  split at same
  · next due =>
    simp only [Bool.and_eq_true, Bool.not_eq_true', List.isEmpty_iff] at due
    exact .inr ⟨due.1, due.2, _, same.symm⟩
  · next rests =>
    simp only [Bool.and_eq_true, Bool.not_eq_true', List.isEmpty_iff] at rests
    exact .inl ⟨same.symm, rests⟩

/-- The group without slot `n`. -/
def Group.without (n : Fin 24) (g : Group) : Group :=
  { g with members := g.members.filter (fun m => decide (m ≠ n)), toOpen := g.toOpen.filter (fun m => decide (m ≠ n)) }

theorem mem_leaveGroup {s : State} {n : Fin 24} {g : Group} (member : g ∈ (leaveGroup n s).sched.groups) :
    ∃ h ∈ s.sched.groups, (h.without n).members ≠ [] ∧
      ((g = h.without n ∧ ¬ (h.planned = false ∧ (h.without n).toOpen = [])) ∨
        (h.planned = false ∧ (h.without n).toOpen = [] ∧
          ∃ plan, g = { h.without n with planned := true, plan := plan })) := by
  obtain ⟨k, member, rest⟩ := mem_tendGroups member
  obtain ⟨h, here, rfl⟩ := List.mem_map.1 member
  exact ⟨h, here, rest⟩

/-- What is kept of the groups as slots leave. -/
def LeaveKeeps (Q : List Group → Prop) : Prop := ∀ s n, Q s.sched.groups → Q (leaveGroup n s).sched.groups

theorem LeaveKeeps.drop {Q : List Group → Prop} (keeps : LeaveKeeps Q) (s : State) (n : Fin 24) (holds : Q s.sched.groups) :
    Q (dropDelivery n s).sched.groups := by
  unfold dropDelivery
  split
  · exact keeps _ n holds
  · exact holds

theorem LeaveKeeps.endDelivery {Q : List Group → Prop} (keeps : LeaveKeeps Q) (s : State) (n : Fin 24)
    (holds : Q s.sched.groups) : Q (endDelivery n s).sched.groups := by
  have dropped := keeps.drop s n holds
  unfold Sys2Proof.Machine.endDelivery
  split
  · split
    · exact dropped
    · exact dropped
  · exact holds

theorem LeaveKeeps.abandon {Q : List Group → Prop} (keeps : LeaveKeeps Q) (s : State) (n : Fin 24)
    (holds : Q s.sched.groups) : Q (abandon n s).sched.groups :=
  keeps _ n (keeps.endDelivery (withdraw n Work.isDelivery false s) n holds)

theorem noClass_leave (c : Cls) : LeaveKeeps fun gs => ∀ g ∈ gs, g.cls ≠ c := by
  intro s n none g member
  obtain ⟨h, here, -, same⟩ := mem_leaveGroup member
  have own := none h here
  rcases same with ⟨rfl, -⟩ | ⟨-, -, plan, rfl⟩ <;> exact own

/-! ### The groups of a class -/

theorem endGroups_groups (c : Cls) (s : State) : (endGroups c s).sched.groups = s.sched.groups.filter fun g => g.cls ≠ c :=
  congrArg (List.filter fun g : Group => g.cls ≠ c) (foldl_keeps (fun s : State => s.sched.groups)
    (fun s (g : Group) => endTurns (.group g.id) s) (fun _ _ => rfl) (s.sched.groups.filter fun g => g.cls = c) s)

theorem endGroups_books (c : Cls) (s : State) : (endGroups c s).books = s.books :=
  foldl_keeps State.books (fun s (g : Group) => endTurns (.group g.id) s) (fun _ _ => rfl) _ s

theorem not_mem_endGroups {c : Cls} {s : State} : ∀ g ∈ (endGroups c s).sched.groups, g.cls ≠ c := by
  intro g member
  rw [endGroups_groups] at member
  simpa using (List.mem_filter.1 member).2

/-- A fold over the slots whose step changes its own slot's part of something leaves the step's change in each. -/
theorem forSlots_own {α : Type} {get : State → Fin 24 → α} {g : Fin 24 → α → α} {f : Fin 24 → State → State}
    (own : ∀ n s k, get (f n s) k = if n = k then g n (get s n) else get s k) (s : State) (k : Fin 24) :
    get (forSlots f allSlots s) k = g k (get s k) := by
  have go : ∀ (ns : List (Fin 24)) (_ : ns.Nodup) (s : State),
      get (forSlots f ns s) k = if k ∈ ns then g k (get s k) else get s k := by
    intro ns
    induction ns with
    | nil => exact fun _ _ => rfl
    | cons n ns ih =>
      intro nodup s
      obtain ⟨fresh, rest⟩ := List.nodup_cons.1 nodup
      have step : forSlots f (n :: ns) s = forSlots f ns (f n s) := rfl
      rw [step, ih rest, own]
      by_cases here : n = k
      · subst here
        simp [fresh]
      · simp [here, Ne.symm here]
  rw [go allSlots (List.nodup_finRange 24), if_pos (show k ∈ allSlots from List.mem_finRange k)]

theorem abandonWhere_delivery (p : Delivery → Bool) (s : State) (k : Fin 24) :
    (abandonWhere p s).delivery k = (s.delivery k).filter fun d => !p d := by
  refine forSlots_own (g := fun _ (o : Option Delivery) => o.filter fun d => !p d) (fun n s k => ?_) s k
  split
  · next d has =>
    split
    · next ends =>
      rw [abandon_delivery]
      split
      · rw [has]
        exact (if_neg (by simp [ends])).symm
      · rfl
    · next stays =>
      split
      · next here =>
        rw [← here, has]
        exact (if_pos (by simp [stays])).symm
      · rfl
  · next none =>
    split
    · next here => subst here; simp [none]
    · rfl

/-! ### The re-evaluation of the slots (R74) -/

/-- The reference to the PENDING edition. -/
def EditionMgr.pendingRef (e : EditionMgr) : Option EditionRef :=
  if e.pending.state = .pending then some ⟨e.pending.number, e.pending.digest⟩ else none

/-- The slot records the PENDING edition complete, or none as the part has none. -/
def Slot.pendingMatches (r : Option EditionRef) (v : Slot) : Bool :=
  match r with
  | some e => v.holdsPending e
  | none => v.heldPending.isNone

/-- The slot's held data matches the image and the editions. -/
def Slot.upToDate (c : ChangeEngine) (e : EditionMgr) (v : Slot) : Bool :=
  decide (v.heldId = c.identity) && decide (v.heldH = c.gen) &&
  decide (v.heldActive = ⟨e.active.number, e.active.digest⟩) && v.pendingMatches e.pendingRef &&
  !v.repair && !v.unconfirmed && !v.blIncapable && !v.edIncapable

theorem slotMatches_eq (s : State) (n : Fin 24) : s.slotMatches n = (s.slot n).upToDate s.change s.editions := by
  unfold State.slotMatches Slot.upToDate Slot.pendingMatches
  rfl

/-- The slot after a re-evaluation. -/
def Slot.judged (c : ChangeEngine) (e : EditionMgr) (v : Slot) : Slot :=
  if v.state = .behind ∨ v.state = .current then
    { v with state := if v.upToDate c e then .current else .behind }
  else v

theorem reevaluate_slot (s : State) (n k : Fin 24) :
    (reevaluate n s).slot k = if n = k then (s.slot n).judged s.change s.editions else s.slot k := by
  unfold reevaluate Slot.judged
  split
  · next state =>
    have active : (s.slot n).state = .behind ∨ (s.slot n).state = .current := .inl state
    rw [State.modSlot_slot, slotMatches_eq, if_pos active]
  · next state =>
    have active : (s.slot n).state = .behind ∨ (s.slot n).state = .current := .inr state
    rw [State.modSlot_slot, slotMatches_eq, if_pos active]
  · next behind current =>
    split
    · next here => rw [if_neg fun active => active.elim behind current, here]
    · rfl

theorem reevaluate_editions (s : State) (n : Fin 24) : (reevaluate n s).editions = s.editions := by
  unfold reevaluate
  split <;> rfl

theorem reevaluateAll_slot (s : State) (k : Fin 24) :
    (reevaluateAll s).slot k = (s.slot k).judged s.change s.editions :=
  forSlots_slot (fun s => (s.change, s.editions)) (fun x _ v => v.judged x.1 x.2)
    (fun n s => by rw [reevaluate_change, reevaluate_editions]) (fun n s k => reevaluate_slot s n k) s k

/-- The incapable flags of the slot, worked out anew (R73). -/
def Slot.gauged (c : ChangeEngine) (e : EditionMgr) (v : Slot) : Slot :=
  match v.cap with
  | some cap =>
    { v with blIncapable := decide (c.pages ≠ 0 ∧ cap.blocklist < c.pages)
             edIncapable := decide (cap.edition < 2 * e.largerTotal) }
  | none => { v with blIncapable := false, edIncapable := false }

theorem refreshIncapable_slot (s : State) (n k : Fin 24) :
    (refreshIncapable n s).slot k = if n = k then (s.slot n).gauged s.change s.editions else s.slot k :=
  State.modSlot_slot ..

theorem refreshAll_slot (s : State) (k : Fin 24) :
    (forSlots refreshIncapable allSlots s).slot k = (s.slot k).gauged s.change s.editions :=
  forSlots_slot (f := refreshIncapable) (fun s => (s.change, s.editions)) (fun x _ v => v.gauged x.1 x.2) (fun _ _ => rfl)
    (fun n s k => refreshIncapable_slot s n k) s k

theorem refreshAll_keeps (s : State) :
    (forSlots refreshIncapable allSlots s).change = s.change ∧ (forSlots refreshIncapable allSlots s).editions = s.editions ∧
    (forSlots refreshIncapable allSlots s).sched = s.sched ∧ (forSlots refreshIncapable allSlots s).sweeps = s.sweeps := by
  have keeps := forSlots_keeps (fun s => (s.change, s.editions, s.sched, s.sweeps)) refreshIncapable (fun _ _ => rfl) allSlots s
  simpa only [Prod.mk.injEq] using keeps

theorem reevaluateAll_keeps (s : State) :
    (reevaluateAll s).change = s.change ∧ (reevaluateAll s).editions = s.editions ∧
    (reevaluateAll s).sched = s.sched ∧ (reevaluateAll s).sweeps = s.sweeps := by
  unfold reevaluateAll
  have keeps := forSlots_keeps (fun s => (s.change, s.editions, s.sched, s.sweeps)) reevaluate
    (fun n s => by dsimp only [reevaluate]; split <;> rfl) allSlots s
  simpa only [Prod.mk.injEq] using keeps

theorem editionsChanged_slot (s : State) (k : Fin 24) :
    (editionsChanged s).slot k = ((s.slot k).gauged s.change s.editions).judged s.change s.editions := by
  obtain ⟨change, editions, -, -⟩ := refreshAll_keeps s
  rw [editionsChanged, reevaluateAll_slot, refreshAll_slot, change, editions]

theorem editionsChanged_sched (s : State) : (editionsChanged s).sched = s.sched ∧ (editionsChanged s).sweeps = s.sweeps := by
  obtain ⟨-, -, sched, sweeps⟩ := refreshAll_keeps s
  obtain ⟨-, -, sched', sweeps'⟩ := reevaluateAll_keeps (forSlots refreshIncapable allSlots s)
  exact ⟨sched'.trans sched, sweeps'.trans sweeps⟩

theorem judged_current {c : ChangeEngine} {e : EditionMgr} {v : Slot} (current : (v.judged c e).state = .current) :
    v.upToDate c e = true ∧ (v.judged c e).heldPending = v.heldPending ∧ (v.judged c e).heldActive = v.heldActive ∧
    (v.judged c e).unconfirmed = v.unconfirmed := by
  unfold Slot.judged at current ⊢
  split at current
  · next active =>
    rw [if_pos active]
    dsimp only at current
    split at current
    · next matched => exact ⟨matched, rfl, rfl, rfl⟩
    · cases current
  · next other => exact absurd (.inr current) other

/-! ### The withdrawal of the PENDING edition (R58) -/

theorem withdrawPending_frame (s : State) : (withdrawPending s).frame = (want summaryRec (emptyPending s)).frame := by
  simp [withdrawPending]

theorem withdrawPending_report (s : State) : (withdrawPending s).report = (want summaryRec s).report := by
  rw [withdrawPending, editionsChanged_report, endGroups_report, abandonWhere_report]
  rfl

theorem withdrawPending_delivery (s : State) (k : Fin 24) (d : Delivery) (has : (withdrawPending s).delivery k = some d) :
    d.mode ≠ .stage := by
  have same : (withdrawPending s).delivery k =
      (abandonWhere (fun d => d.mode = .stage) (want summaryRec (emptyPending s))).delivery k := by
    rw [withdrawPending]
    generalize abandonWhere _ _ = u
    rw [← (of_books (endGroups_books .stage u) k).1, State.delivery, (editionsChanged_sched _).1, State.delivery]
  rw [same, abandonWhere_delivery] at has
  obtain ⟨-, other⟩ := Option.filter_eq_some_iff.1 has
  simpa using other

theorem withdrawPending_groups (s : State) : ∀ g ∈ (withdrawPending s).sched.groups, g.cls ≠ .stage := by
  rw [withdrawPending, (editionsChanged_sched _).1]
  exact not_mem_endGroups

theorem withdrawPending_slot (s : State) (k : Fin 24) (current : ((withdrawPending s).slot k).state = .current) :
    ((withdrawPending s).slot k).heldPending = none := by
  have editions : (endGroups .stage (abandonWhere (fun d => d.mode = .stage) (want summaryRec (emptyPending s)))).editions =
      (emptyPending s).editions := by
    have frame : (endGroups .stage (abandonWhere (fun d => d.mode = .stage) (want summaryRec (emptyPending s)))).frame =
      (emptyPending s).frame := by simp
    exact (of_frame frame).2.2.2.2.2.1
  unfold withdrawPending at current ⊢
  rw [editionsChanged_slot] at current ⊢
  obtain ⟨matched, pending, -⟩ := judged_current current
  rw [pending]
  rw [editions] at matched ⊢
  simp only [Slot.upToDate, Bool.and_eq_true] at matched
  obtain ⟨⟨⟨⟨⟨-, none⟩, -⟩, -⟩, -⟩, -⟩ := matched
  simpa only [EditionMgr.pendingRef, emptyPending, setPending, PendingSlot.empty, reduceCtorEq, if_false, Slot.pendingMatches,
    Option.isNone_iff_eq_none] using none

/-- No STAGE group forms without a PENDING edition. -/
theorem bounds_noStage : Bounds fun v => v.editions.pending.state ≠ .pending ∧ ∀ g ∈ v.sched.groups, g.cls ≠ .stage where
  turn _ _ _ _ kept := kept
  hand _ _ _ _ _ kept := kept
  leave s n kept := by
    obtain ⟨pending, none⟩ := kept
    refine ⟨?_, noClass_leave .stage s n none⟩
    rw [editions_of_bare (leaveGroup_bare s n)]
    exact pending
  abandons s n _ _ _ _ kept := by
    obtain ⟨pending, none⟩ := kept
    refine ⟨?_, (noClass_leave .stage).abandon s n none⟩
    rw [editions_of_bare (abandon_bare s n)]
    exact pending
  forms s g _ _ _ stage _ kept := by
    obtain ⟨pending, none⟩ := kept
    refine ⟨pending, fun h member => ?_⟩
    rcases List.mem_append.1 member with old | new
    · exact none h old
    · rw [List.mem_singleton.1 new]
      exact fun class_ => pending (stage class_)

end Sys2Proof.Machine

/-!
The requests of the edition manager that end as they are taken up: RESCHEDULE EDITION, WITHDRAW EDITION (O31), LOAD EDITION
(O29) and SET CLOCK (O32).
-/
namespace Sys2Proof.Machine

/-! ### A request taken up -/

theorem takeUp_eq_exch {o : Owner} (other : o ≠ .change) (s : State) (t : Strip) : ∃ x, takeUp t o s = { s with exch := x } := by
  obtain ⟨x, p, taken, purge⟩ := takeUp_eq t o s
  refine ⟨x, taken.trans ?_⟩
  rw [purge other]

section
variable {s v : State} {t : Strip} {o : Owner} {k : Nat} {r : Result}

theorem working_of_canTake (take : s.canTake t o k) : s.working = true := by
  obtain ⟨-, may, -, -⟩ := take
  obtain ⟨work, -⟩ := mayTake_holds may
  exact work

/-- A request taken up completes at the end of the step, if the work on it left strips, memory, registers and engine. -/
theorem taken_completes (take : s.canTake t o k) (exch : v.exch = (takeUp t o s).exch)
    (engine : v.engine = s.engine) (mem : v.mem = s.mem) (regs : v.regs = s.regs) :
    Completed t r (takeUp t o s) (settle s (boundaries (completeRequest t r v))) ∧
      Later v (settle s (boundaries (completeRequest t r v))) := by
  obtain ⟨-, may, pos, wf⟩ := take
  obtain ⟨work, q, f, hold⟩ := mayTake_holds may
  have spine := takeUp_spine s t o
  have strip : v.strip t = ⟨(s.strip t).position, .holding q false f⟩ := by
    rw [← takeUp_strip o hold]
    cases t <;> simp only [State.strip, exch]
  have descriptor : v.exch.descriptor = s.exch.descriptor := by
    rw [exch]
    exact congrArg Spine.descriptor spine
  have healthy : v.isFaulted = false := by simpa only [State.isFaulted, engine] using not_isFaulted_of_working work
  obtain ⟨completed, later⟩ := later_completes (s := s) (r := r) (congrArg StripState.scan strip) healthy
    (by rw [strip, (stripAddr_of_desc descriptor t).2]; exact pos) (by rw [mem]; exact wf)
  have regs' : (takeUp t o s).regs = s.regs := by
    obtain ⟨x, p, taken, -⟩ := takeUp_eq t o s
    rw [taken]
  exact ⟨completed.of_eq exch (mem.trans (takeUp_mem s t o).symm) (regs.trans regs'.symm), later⟩

theorem taken_refused (take : s.canTake t o k) :
    Answers t r (takeUp t o s) (settle s (boundaries (completeRequest t r (takeUp t o s)))) := by
  obtain ⟨x, p, taken, -⟩ := takeUp_eq t o s
  obtain ⟨completed, later⟩ := taken_completes (r := r) (v := takeUp t o s) take rfl
    (by rw [taken]) (takeUp_mem s t o) (by rw [taken])
  exact ⟨completed, later.toKept⟩

end

/-! ### RESCHEDULE EDITION -/

theorem exec_rescheduleEdition {s : State} {t : Strip} (take : s.canTake t .edition Kind.rescheduleEdition) :
    exec (.rescheduleEdition t) s = .next (settle s (boundaries (
      if (takeUp t .edition s).pendingIs ((s.request t).param 8 2) then
        completeAfterSummary t (.plain Outcome.ok) (editionTests (want summaryRec (setPending
          { (takeUp t .edition s).editions.pending with effective := BitVec.ofNat 32 ((s.request t).param 10 4) }
          (takeUp t .edition s))))
      else completeRequest t (.plain Outcome.wrongState) (takeUp t .edition s)))) := by
  obtain ⟨high, may, -, -⟩ := take
  have step : exec (.rescheduleEdition t) s = execRescheduleEdition t s := rfl
  rw [step, execRescheduleEdition, scheduled_next high]
  simp only [may, if_true]

/-! ### What the edition tests leave -/

theorem editionTests_waiting {s : State} (work : s.working = true) :
    ∃ ws, (editionTests s).report.waiting = s.report.waiting ++ ws := by
  rcases editionTests_cases work with ⟨-, acts⟩ | ⟨-, acts⟩ | ⟨-, -, acts⟩ <;> rw [acts]
  · exact ⟨_, (activate_awaits work).waiting⟩
  · exact ⟨_, (warned_awaits s).waiting⟩
  · exact ⟨[], (List.append_nil _).symm⟩

theorem want_want (r : Fin 29) (s : State) : want r (want r s) = want r s := by
  simp only [want, Vector.set_set]

theorem leNat_lt : ∀ bs : List Byte, leNat bs < 256 ^ bs.length
  | [] => Nat.one_pos
  | b :: bs => by
    have rest := leNat_lt bs
    have byte := b.isLt
    simp only [leNat, List.length_cons, pow_succ]
    omega

theorem param_lt (r : Request) (off n : Nat) : r.param off n < 256 ^ n := by
  unfold Request.param fieldAt
  refine (leNat_lt _).trans_le (Nat.pow_le_pow_right (by decide) ?_)
  exact List.length_take_le n _

theorem want_of_summary (t : Strip) (r : Result) (s : State) :
    completeAfterSummary t r s = awaitRecords [summaryRec] (.outcome t r) (want summaryRec s) := rfl

theorem pendingIs_iff (s : State) (k : Nat) :
    s.pendingIs k = true ↔ s.editions.pending.state = .pending ∧ s.editions.pending.number.toNat = k := by
  simp [State.pendingIs]

/-- The PENDING edition moved to the minute of RESCHEDULE EDITION. -/
def State.moved (s : State) (minute : Nat) : State :=
  want summaryRec (setPending { s.editions.pending with effective := BitVec.ofNat 32 minute } s)

theorem reschedule_accepted {s : State} {t : Strip} (take : s.canTake t .edition Kind.rescheduleEdition)
    (mine : s.editions.pending.state = .pending ∧ s.editions.pending.number.toNat = (s.request t).param 8 2) :
    exec (.rescheduleEdition t) s = .next (settle s (boundaries (completeAfterSummary t (.plain Outcome.ok)
      (editionTests ((takeUp t .edition s).moved ((s.request t).param 10 4)))))) := by
  rw [exec_rescheduleEdition take, if_pos]
  · rfl
  · rw [pendingIs_iff, takeUp_editions]
    exact mine

theorem reschedule_refused {s : State} {t : Strip} (take : s.canTake t .edition Kind.rescheduleEdition)
    (other : ¬ (s.editions.pending.state = .pending ∧ s.editions.pending.number.toNat = (s.request t).param 8 2)) :
    ∃ t', exec (.rescheduleEdition t) s = .next t' ∧ Answers t (.plain Outcome.wrongState) (takeUp t .edition s) t' := by
  refine ⟨_, (exec_rescheduleEdition take).trans (congrArg _ (congrArg _ (congrArg _ (if_neg ?_)))), taken_refused take⟩
  rw [pendingIs_iff, takeUp_editions]
  exact other

theorem moved_rests {s : State} {minute : Nat} (work : s.working = true) (few : minute < 2 ^ 32)
    (far : s.clock.isSet = false ∨ s.clock.absolute + 10 < minute) : editionTests (s.moved minute) = s.moved minute := by
  have effective : (s.moved minute).editions.pending.effective.toNat = minute := Nat.mod_eq_of_lt few
  have clock : (s.moved minute).clock = s.clock := rfl
  rcases editionTests_cases (s := s.moved minute) work with ⟨due, -⟩ | ⟨risk, -⟩ | ⟨-, -, rests⟩
  · obtain ⟨-, set, reached⟩ := due
    rw [clock] at set reached
    rw [effective] at reached
    rcases far with unset | far
    · rw [unset] at set
      cases set
    · omega
  · obtain ⟨-, set, -, -, near, -⟩ := risk
    rw [clock] at set near
    rw [effective] at near
    rcases far with unset | far
    · rw [unset] at set
      cases set
    · omega
  · exact rests

/-- What an edition-manager request leaves as it makes the tests and lets its outcome wait for the summary. -/
theorem tested_settled {s u t' : State} {t : Strip} {r : Result} (work : u.working = true)
    (run : t' = settle s (boundaries (completeAfterSummary t r (editionTests u)))) :
    t'.mem = u.mem ∧ t'.change = u.change ∧ t'.clock = u.clock ∧ t'.report.wanted[summaryRec] = true ∧
    EditionTested u t' ∧ ∃ ws, t'.report.waiting = u.report.waiting ++ ws ++ [⟨[summaryRec], .outcome t r⟩] := by
  have settled := settled_boundaries s (completeAfterSummary t r (editionTests u))
  rw [← run] at settled
  obtain ⟨a, p, w, frame⟩ := editionTests_frame work
  obtain ⟨-, -, -, -, change, -, clock, -, mem, -⟩ := of_frame frame
  obtain ⟨ws, waiting⟩ := editionTests_waiting work
  have summary : t'.report.wanted[summaryRec] = true := settled.wanted summaryRec (by
    rw [want_of_summary, awaitRecords_wanted, want_wanted]
    rfl)
  have waiting' : t'.report.waiting = (editionTests u).report.waiting ++ [⟨[summaryRec], .outcome t r⟩] := settled.waiting
  refine ⟨settled.mem.trans mem, settled.change.trans change, settled.clock.trans clock, summary, ?_, ws, ?_⟩
  · obtain ⟨activates, warns, rests⟩ := editionTests_tested work
    have active : t'.editions.active = (editionTests u).editions.active := congrArg EditionMgr.active settled.editions
    have pending : t'.editions.pending = (editionTests u).editions.pending := congrArg EditionMgr.pending settled.editions
    refine ⟨fun due => ?_, fun risk => ?_, fun noDue noRisk => ?_⟩
    · obtain ⟨a, p, -, notice⟩ := activates due
      exact ⟨active.trans a, pending.trans p, summary, by rw [waiting']; exact List.mem_append_left _ notice⟩
    · obtain ⟨a, p, -, notice⟩ := warns risk
      exact ⟨active.trans a, pending.trans p, summary, by rw [waiting']; exact List.mem_append_left _ notice⟩
    · obtain ⟨a, p⟩ := rests noDue noRisk
      exact ⟨active.trans a, pending.trans p⟩
  · rw [waiting', waiting]

/-! ### WITHDRAW EDITION -/

theorem exec_withdrawEdition {s : State} {t : Strip} (take : s.canTake t .edition Kind.withdrawEdition) :
    exec (.withdrawEdition t) s = .next (settle s (boundaries (
      if (takeUp t .edition s).pendingIs ((s.request t).param 8 2) then
        completeAfterSummary t (.plain Outcome.ok) (withdrawPending (takeUp t .edition s))
      else completeRequest t (.plain Outcome.wrongState) (takeUp t .edition s)))) := by
  obtain ⟨high, may, -, -⟩ := take
  have step : exec (.withdrawEdition t) s = execWithdrawEdition t s := rfl
  rw [step, execWithdrawEdition, scheduled_next high]
  simp only [may, if_true]

/-- What a withdrawal leaves at the end of its step, whatever is done with the request. -/
theorem withdrawn_later {u v t' : State} (later : Later v t') (sched : v.sched = (withdrawPending u).sched)
    (roster : v.roster = (withdrawPending u).roster) (pending : v.editions.pending.state ≠ .pending) :
    (∀ k d, t'.delivery k = some d → d.mode ≠ .stage) ∧ (∀ g ∈ t'.sched.groups, g.cls ≠ .stage) ∧
    (∀ k, (t'.slot k).state = .current → (t'.slot k).heldPending = none) := by
  refine ⟨fun k d has => ?_, ?_, fun k => ?_⟩
  · have before := later.delivery_some has
    rw [State.delivery, sched] at before
    exact withdrawPending_delivery u k d before
  · have groups := later.sched (fun x e => e.pending.state ≠ .pending ∧ ∀ g ∈ x.groups, g.cls ≠ .stage) bounds_noStage
      ⟨pending, by rw [sched]; exact withdrawPending_groups u⟩
    exact groups.2
  · rw [later.slot, State.slot, roster]
    exact withdrawPending_slot u k

theorem withdrawPending_editions (u : State) :
    (withdrawPending u).editions = { u.editions with pending := .empty u.editions.pending.region } := by
  obtain ⟨-, -, -, -, -, editions, -⟩ := of_frame (withdrawPending_frame u)
  exact editions

theorem reschedule_far {s u : State} {t : Strip} {minute : Nat} (work : u.working = true) (few : minute < 2 ^ 32)
    (far : u.clock.isSet = false ∨ u.clock.absolute + 10 < minute) :
    Settled { u with
      editions := { u.editions with pending := { u.editions.pending with effective := BitVec.ofNat 32 minute } }
      report := { u.report with
        wanted := u.report.wanted.set summaryRec true
        waiting := u.report.waiting ++ [⟨[summaryRec], .outcome t ⟨1, false, 0⟩⟩] } }
      (settle s (boundaries (completeAfterSummary t (.plain Outcome.ok) (editionTests (u.moved minute))))) := by
  have rests : editionTests (u.moved minute) = u.moved minute := moved_rests work few far
  rw [rests, want_of_summary, State.moved, want_want]
  exact settled_boundaries s _

/-- Settles O31: RESCHEDULE makes the tests on the moved edition (`tested_settled`), WITHDRAW is `withdrawn_later`. -/
theorem rescheduleAndWithdraw : Obligations.RescheduleAndWithdraw := by
  refine ⟨?_, ?_⟩ <;> intro s t take
  · intro r u mine minute
    obtain ⟨x, taken⟩ := takeUp_eq_exch (o := .edition) nofun s t
    have taken' : u = { s with exch := x } := taken
    have work := working_of_canTake take
    by_cases own : mine
    · refine ⟨_, reschedule_accepted take own, fun other => absurd own other, fun _ far => ?_, fun _ => ?_⟩
      · exact reschedule_far (by rw [taken']; exact work) (param_lt r 10 4) (by rw [taken']; exact far)
      · obtain ⟨mem, change, clock, summary, tested, waiting⟩ :=
          tested_settled (s := s) (t := t) (r := .plain Outcome.ok) (u := u.moved minute) (by rw [taken']; exact work) rfl
        rw [show u = takeUp t .edition s from rfl] at mem change clock summary tested waiting
        revert mem change clock summary tested waiting
        generalize settle s _ = t'
        rw [taken]
        intro mem change clock summary tested waiting
        exact ⟨mem, change, clock, summary, tested.congr ⟨rfl, rfl, rfl⟩ rfl rfl (fun h => h) rfl, waiting⟩
    · obtain ⟨t', run, answers⟩ := reschedule_refused take own
      exact ⟨t', run, fun _ => answers, fun mine => absurd mine own, fun mine => absurd mine own⟩
  · intro u mine
    obtain ⟨x, taken⟩ := takeUp_eq_exch (o := .edition) nofun s t
    by_cases own : mine
    · have owned : u.pendingIs ((s.request t).param 8 2) = true := by
        rw [pendingIs_iff, takeUp_editions]
        exact own
      have run := exec_withdrawEdition take
      rw [if_pos owned] at run
      obtain ⟨-, -, -, -, change, -, clock, -, mem, -, -, waiting, -⟩ := of_frame (withdrawPending_frame u)
      have editions := withdrawPending_editions u
      have report := withdrawPending_report u
      have later := later_boundaries s (completeAfterSummary t (.plain Outcome.ok) (withdrawPending u))
      have settled := settled_boundaries s (completeAfterSummary t (.plain Outcome.ok) (withdrawPending u))
      revert run later settled
      generalize settle s _ = t'
      intro run later settled
      rw [want_of_summary] at later settled
      have withdrawn := fun pending => withdrawn_later (u := u) later (by simp) (by simp) pending
      generalize withdrawPending u = v at editions report change clock mem waiting later settled withdrawn
      have editions' : t'.editions = _ := settled.editions.trans editions
      obtain ⟨deliveries, groups, slots⟩ := withdrawn (by
        change v.editions.pending.state ≠ _
        rw [editions]
        nofun)
      simp only [u, taken] at editions' change clock mem report
      refine ⟨t', run, fun other => absurd own other, fun _ => ⟨settled.mem.trans mem, settled.change.trans change,
        settled.clock.trans clock, editions', deliveries, groups, slots, ?_, settled.waiting.trans ?_⟩⟩
      · refine settled.wanted summaryRec ?_
        rw [awaitRecords_wanted, want_wanted]
        rfl
      · change v.report.waiting ++ _ = _
        rw [report]
        rfl
    · have other : ¬ u.pendingIs ((s.request t).param 8 2) = true := by
        rw [pendingIs_iff, takeUp_editions]
        exact own
      exact ⟨_, (exec_withdrawEdition take).trans (congrArg _ (congrArg _ (congrArg _ (if_neg other)))),
        fun _ => taken_refused take, fun mine => absurd mine own⟩

/-! ### LOAD EDITION -/

theorem load_of_canTake {s : State} {t : Strip} {k : Nat} (take : s.canTake t .edition k) : s.editions.load = none := by
  obtain ⟨-, may, -, -⟩ := take
  simp only [State.mayTake, State.ownerIdle, State.editionIdle, Bool.and_eq_true, Option.isNone_iff_eq_none] at may
  tauto

/-- The state in which LOAD EDITION is judged: a PENDING edition is withdrawn first (R54). -/
def State.relieved (s : State) : State :=
  if s.editions.pending.state = .pending then withdrawPending s else s

theorem relieved_active (s : State) : s.relieved.editions.active = s.editions.active := by
  unfold State.relieved
  split
  · rw [withdrawPending_editions]
  · rfl

/-- LOAD EDITION once the PENDING edition is gone. -/
def loadJudged (t : Strip) (r : Request) (held : Bool) (u : State) : State :=
  match refuseLoad (r.param 8 4) (r.param 12 2) (r.param 14 2) u.editions with
  | some o => if held then completeAfterSummary t (.plain o) u else completeRequest t (.plain o) u
  | none => startLoad t (r.param 8 4) (r.param 12 2) (BitVec.ofNat 16 (r.param 14 2)) (BitVec.ofNat 32 (r.param 16 4)) u

theorem exec_loadEdition {s : State} {t : Strip} (take : s.canTake t .edition Kind.loadEdition) :
    exec (.loadEdition t) s = .next (settle s (boundaries (loadJudged t (s.request t)
      (decide (s.editions.pending.state = .pending)) (takeUp t .edition s).relieved))) := by
  obtain ⟨high, may, -, -⟩ := take
  have step : exec (.loadEdition t) s = execLoadEdition t s := rfl
  rw [step, execLoadEdition, scheduled_next high]
  simp only [may, if_true, decide_eq_true_eq, State.relieved, takeUp_editions, loadJudged] <;> rfl

/-- The number is not above the ACTIVE edition's (R54). -/
def State.loadWrong (s : State) (r : Request) : Prop := r.param 14 2 ≤ s.editions.active.number.toNat

/-- The list of LOAD EDITION is out of range (R55). -/
def Request.loadBad (r : Request) : Prop :=
  r.param 12 2 < 1 ∨ 960 < r.param 12 2 ∨ r.param 8 4 % 16 ≠ 0 ∨ 2 ^ 32 < r.param 8 4 + 16 * r.param 12 2

/-- The outcome with which LOAD EDITION is refused. -/
def State.loadRefusal (s : State) (r : Request) : Byte :=
  if r.param 14 2 ≤ s.editions.active.number.toNat then 5 else 4

theorem refuseLoad_some {r : Request} {s : State} (refused : s.loadWrong r ∨ r.loadBad) :
    refuseLoad (r.param 8 4) (r.param 12 2) (r.param 14 2) s.editions = some (s.loadRefusal r) := by
  unfold refuseLoad State.loadRefusal
  by_cases wrong : r.param 14 2 ≤ s.editions.active.number.toNat
  · rw [if_pos wrong, if_pos wrong]
    rfl
  · rw [if_neg wrong, if_neg wrong]
    exact if_pos (refused.resolve_left wrong)

theorem refuseLoad_none {r : Request} {s : State} (right : ¬ s.loadWrong r) (good : ¬ r.loadBad) :
    refuseLoad (r.param 8 4) (r.param 12 2) (r.param 14 2) s.editions = none := by
  have right : ¬ r.param 14 2 ≤ s.editions.active.number.toNat := right
  unfold refuseLoad
  rw [if_neg right]
  exact if_neg good

/-- The LOAD EDITION job begun: the PENDING slot and the job. -/
def State.loadBegun (s : State) (t : Strip) (r : Request) : EditionMgr :=
  { s.editions with
    pending :=
      { state := .composing, number := BitVec.ofNat 16 (r.param 14 2), total := (r.param 12 2 + 14) / 15, crcs := [],
        digest := 0, effective := BitVec.ofNat 32 (r.param 16 4), region := s.editions.active.region.other, atRisk := false,
        warned := false }
    load := some { strip := t, list := r.param 8 4, count := r.param 12 2, next := 0, lastCode := 0, clamped := 0 } }

theorem loadJudged_accepted {t : Strip} {r : Request} {held : Bool} {u : State} (right : ¬ u.loadWrong r) (good : ¬ r.loadBad) :
    loadJudged t r held u = want summaryRec { u with editions := u.loadBegun t r } := by
  rw [loadJudged, refuseLoad_none right good]
  rfl

theorem loadJudged_refused {t : Strip} {r : Request} {u : State} (refused : u.loadWrong r ∨ r.loadBad) :
    loadJudged t r true u = completeAfterSummary t (.plain (u.loadRefusal r)) u ∧
    loadJudged t r false u = completeRequest t (.plain (u.loadRefusal r)) u := by
  simp only [loadJudged, refuseLoad_some refused]
  exact ⟨rfl, rfl⟩

/-- Settles O29: by `exec_loadEdition` the withdrawal comes first (`withdrawn_later`), then the judgement. -/
theorem loadEditionTakenUp : Obligations.LoadEditionTakenUp := by
  intro s t take r list n number u wrong bad composing
  obtain ⟨x, taken⟩ := takeUp_eq_exch (o := .edition) nofun s t
  have editions : u.editions = s.editions := takeUp_editions t .edition s
  have run := exec_loadEdition take
  have active : u.relieved.editions.active = s.editions.active := by rw [relieved_active, editions]
  have judged : u.relieved.loadWrong r ↔ wrong := by rw [State.loadWrong, active]
  have refusal : u.relieved.loadRefusal r = if wrong then 5 else 4 := by rw [State.loadRefusal, active]
  by_cases held : s.editions.pending.state = .pending
  · rw [decide_eq_true held] at run
    obtain ⟨-, -, -, -, change, -, clock, -, mem, -⟩ := of_frame (withdrawPending_frame u)
    have left := withdrawPending_editions u
    have report := withdrawPending_report u
    have isWithdrawn : u.relieved = withdrawPending u := if_pos (by rw [editions]; exact held)
    have change : (withdrawPending u).change = s.change := change.trans (by simp only [u, taken]; rfl)
    have clock : (withdrawPending u).clock = s.clock := clock.trans (takeUp_clock t .edition s)
    have mem : (withdrawPending u).mem = s.mem := mem.trans (takeUp_mem s t .edition)
    have summary : (withdrawPending u).report.wanted[summaryRec] = true := by
      rw [report, want_wanted]
      rfl
    rw [isWithdrawn] at run judged refusal active
    by_cases refused : (withdrawPending u).loadWrong r ∨ r.loadBad
    · rw [(loadJudged_refused refused).1, refusal, want_of_summary] at run
      have settled := settled_boundaries s (awaitRecords [summaryRec]
        (.outcome t (.plain (if wrong then 5 else 4))) (want summaryRec (withdrawPending u)))
      have later := later_boundaries s (awaitRecords [summaryRec]
        (.outcome t (.plain (if wrong then 5 else 4))) (want summaryRec (withdrawPending u)))
      revert run settled later
      generalize settle s _ = t'
      intro run settled later
      have withdrawn := withdrawn_later (u := u) later (by simp) (by simp)
      rw [judged] at refused
      generalize withdrawPending u = v at left report change clock mem active summary settled withdrawn
      have pending : t'.editions = _ := settled.editions.trans left
      obtain ⟨deliveries, groups, slots⟩ := withdrawn (by change v.editions.pending.state ≠ _; rw [left]; nofun)
      refine ⟨t', run, fun other => absurd held other, fun _ => ⟨settled.mem.trans mem, settled.change.trans change,
        settled.clock.trans clock, (congrArg EditionMgr.active settled.editions).trans active, ?_, deliveries, groups, slots,
        fun _ => ⟨?_, ?_, settled.waiting.trans ?_⟩, fun right good => ?_⟩⟩
      · refine settled.wanted summaryRec ?_
        rw [awaitRecords_wanted, want_wanted]
        rfl
      · rw [pending, editions]
      · rw [pending]
        exact (congrArg EditionMgr.load editions).trans (load_of_canTake take)
      · change v.report.waiting ++ _ = _
        rw [report]
        simp only [u, taken]
        rfl
      · exact absurd refused (not_or.2 ⟨right, good⟩)
    · obtain ⟨right, good⟩ := not_or.1 refused
      rw [loadJudged_accepted right good] at run
      have settled := settled_boundaries s (want summaryRec { withdrawPending u with
        editions := (withdrawPending u).loadBegun t r })
      have later := later_boundaries s (want summaryRec { withdrawPending u with
        editions := (withdrawPending u).loadBegun t r })
      revert run settled later
      generalize settle s _ = t'
      intro run settled later
      have withdrawn := withdrawn_later (u := u) later (by simp) (by simp)
      rw [judged] at right
      generalize withdrawPending u = v at left report change clock mem active summary settled withdrawn
      have pending : t'.editions = v.loadBegun t r := settled.editions
      obtain ⟨deliveries, groups, slots⟩ := withdrawn nofun
      refine ⟨t', run, fun other => absurd held other, fun _ => ⟨settled.mem.trans mem, settled.change.trans change,
        settled.clock.trans clock, ?_, ?_, deliveries, groups, slots,
        fun refused => (not_or.2 ⟨right, good⟩ refused).elim, fun _ _ => ?_⟩⟩
      · rw [pending]
        exact active
      · refine settled.wanted summaryRec ?_
        rw [want_wanted]
        rfl
      · rw [pending, State.loadBegun, active]
        exact ⟨rfl, nofun⟩
  · rw [decide_eq_false held, State.relieved, if_neg (by rw [editions]; exact held)] at run
    rw [State.relieved, if_neg (by rw [editions]; exact held)] at judged refusal
    by_cases refused : u.loadWrong r ∨ r.loadBad
    · rw [(loadJudged_refused refused).2, refusal] at run
      have answers := taken_refused (r := .plain (if wrong then 5 else 4)) take
      refine ⟨_, run, fun _ => ⟨fun isWrong => ?_, fun right bad => ?_, fun right good => ?_⟩, fun is => absurd is held⟩
      · rwa [if_pos isWrong] at answers ⊢
      · rwa [if_neg right] at answers ⊢
      · exact absurd refused (by rw [not_or, judged]; exact ⟨right, good⟩)
    · rw [not_or] at refused
      obtain ⟨right, good⟩ := refused
      rw [loadJudged_accepted right good] at run
      refine ⟨_, run, fun _ => ⟨fun isWrong => absurd (judged.2 isWrong) right, fun _ bad => absurd bad good, fun _ _ => ?_⟩,
        fun is => absurd is held⟩
      rw [State.loadBegun, editions]
      exact settled_boundaries s _

end Sys2Proof.Machine

/-!
The service clock: SET CLOCK (O32) and the minute tick (O33).
-/
namespace Sys2Proof.Machine

/-! ### A change of the service day (R36, R66 to R69) -/

/-- The service day rises, or is set for the first time. -/
def dayRises (old : Option Nat) (new : Nat) : Prop := ∀ d, old = some d → d < new

/-- The service day changes, or is set for the first time. -/
def dayMoves (old : Option Nat) (new : Nat) : Prop := ∀ d, old = some d → d ≠ new

theorem queuePurge_eq (s : State) : ∃ p, queuePurge s = { s with change := { s.change with purge := p } } ∧
    (s.change.pages ≠ 0 → p ≠ .empty) ∧ (s.change.pages = 0 → p = s.change.purge) := by
  unfold queuePurge
  split
  · next none => exact ⟨s.change.purge, rfl, fun image => absurd none image, fun _ => rfl⟩
  · next image =>
    split
    · exact ⟨_, rfl, fun _ => nofun, fun none => absurd none image⟩
    · next queued => exact ⟨s.change.purge, rfl, fun _ => by rw [queued]; nofun, fun none => absurd none image⟩

/-- What a change of the service day leaves: the mark of a purge job and what waits for the summary record. -/
structure DayEffects (old : Option Nat) (s t : State) : Prop where
  same : ∃ w ws, t = { s with
    change := { s.change with purge := t.change.purge }
    report := { s.report with wanted := w, waiting := s.report.waiting ++ ws } } ∧
    (dayMoves old s.clock.serviceDay → s.isFaulted = false → (⟨[summaryRec], .notice .clock⟩ : Waiting) ∈ ws) ∧
    (s.running = false → w = s.report.wanted) ∧ (∀ x ∈ ws, x.act = .notice .clock)
  queued : dayRises old s.clock.serviceDay → s.change.pages ≠ 0 → t.change.purge ≠ .empty
  kept : ¬ dayRises old s.clock.serviceDay ∨ s.change.pages = 0 → t.change.purge = s.change.purge

theorem clockNotice_eq (s : State) : ∃ w ws, clockNotice s =
      { s with report := { s.report with wanted := w, waiting := s.report.waiting ++ ws } } ∧
    (s.isFaulted = false → (⟨[summaryRec], .notice .clock⟩ : Waiting) ∈ ws) ∧
    (s.running = false → w = s.report.wanted) ∧ (∀ x ∈ ws, x.act = .notice .clock) := by
  unfold clockNotice
  split
  · next runs =>
    have healthy : s.isFaulted = false := by
      rw [Bool.eq_false_iff]
      intro faulted
      rw [running_of_faulted faulted] at runs
      cases runs
    rw [raiseAfter_summary .clock healthy]
    refine ⟨_, _, rfl, fun _ => List.mem_singleton_self _, fun rests => ?_, fun x member => ?_⟩
    · rw [rests] at runs
      cases runs
    · rw [List.mem_singleton.1 member]
  · split
    · next faulted =>
      refine ⟨s.report.wanted, [], by rw [List.append_nil], fun healthy => ?_, fun _ => rfl, nofun⟩
      rw [faulted] at healthy
      cases healthy
    · refine ⟨s.report.wanted, _, rfl, fun _ => List.mem_singleton_self _, fun _ => rfl, fun x member => ?_⟩
      rw [List.mem_singleton.1 member]

theorem dayEffects_rests {old : Option Nat} (s : State) (rests : ¬ dayRises old s.clock.serviceDay) : DayEffects old s (clockNotice s) := by
  obtain ⟨w, ws, same, notice, still, own⟩ := clockNotice_eq s
  refine ⟨⟨w, ws, ?_, fun _ => notice, still, own⟩, fun rises => absurd rises rests, fun _ => ?_⟩
  · rw [same]
  · rw [same]

theorem dayEffects_rises {old : Option Nat} (s : State) (rises : dayRises old s.clock.serviceDay) :
    DayEffects old s (clockNotice (queuePurge s)) := by
  obtain ⟨p, queue, queued, kept⟩ := queuePurge_eq s
  obtain ⟨w, ws, same, notice, still, own⟩ := clockNotice_eq (queuePurge s)
  rw [same, queue] at *
  refine ⟨⟨w, ws, rfl, fun _ => notice, still, own⟩, fun _ => queued, fun none => kept (none.resolve_left ?_)⟩
  exact fun rests => rests rises

theorem serviceDayEffects_day (old : Option Nat) (s : State) : DayEffects old s (serviceDayEffects old s) := by
  unfold serviceDayEffects
  dsimp only
  split
  · exact dayEffects_rises s nofun
  · next d =>
    have rises_iff : dayRises (some d) s.clock.serviceDay ↔ d < s.clock.serviceDay :=
      ⟨fun h => h d rfl, fun h e same => by cases same; exact h⟩
    split
    · next rises => exact dayEffects_rises s (rises_iff.2 rises)
    · next rests =>
      split
      · exact dayEffects_rests s (mt rises_iff.1 rests)
      · next stays =>
        refine ⟨⟨s.report.wanted, [], by rw [List.append_nil], fun moves => ?_, fun _ => rfl, nofun⟩,
          fun rises => absurd (rises_iff.1 rises) rests, fun _ => rfl⟩
        exact absurd (by omega) (moves d rfl)

/-! ### SET CLOCK -/

/-- The clock that SET CLOCK sets (R67). -/
def Request.clock (r : Request) : Clock := ⟨true, r.param 8 2, r.param 10 2, 0, r.param 12 2, 0, false⟩

/-- The state in which SET CLOCK makes the edition tests. -/
def clockSet (r : Request) (u : State) : State :=
  markTime (want summaryRec (serviceDayEffects u.serviceDay? { u with clock := r.clock }))

theorem exec_setClock {s : State} {t : Strip} (take : s.canTake t .edition Kind.setClock) :
    exec (.setClock t) s = .next (settle s (boundaries (
      if 1440 ≤ (s.request t).param 10 2 ∨ 1440 ≤ (s.request t).param 12 2 then
        completeRequest t (.plain Outcome.badParam) (takeUp t .edition s)
      else completeAfterSummary t (.plain Outcome.ok) (editionTests (clockSet (s.request t) (takeUp t .edition s)))))) := by
  obtain ⟨high, may, -, -⟩ := take
  have step : exec (.setClock t) s = execSetClock t s := rfl
  rw [step, execSetClock, scheduled_next high]
  simp only [may, if_true]
  rfl

theorem markTime_due {s : State} {l : Fin 4} (on : s.lineOn l = true) : (markTime s).editions.timeDue[l] = true := by
  simp only [markTime, Fin.getElem_fin, Vector.getElem_ofFn, on, Bool.or_true]

/-- The tests depend on the PENDING edition, the clock and the roster. -/
theorem EditionTested.of_slots {u v t : State} (tested : EditionTested v t)
    (active : v.editions.active = u.editions.active) (pending : v.editions.pending = u.editions.pending)
    (clock : v.clock = u.clock) (roster : v.roster = u.roster) : EditionTested u t := by
  have due : v.dueNow ↔ u.dueNow := by rw [State.dueNow, State.dueNow, pending, clock]
  have lacking (n : Fin 24) : v.lacksPending n ↔ u.lacksPending n := by
    simp only [State.lacksPending, State.slot, pending, roster]
  have risk : v.riskNow ↔ u.riskNow := by simp only [State.riskNow, lacking, pending, clock]
  obtain ⟨activates, warns, rests⟩ := tested
  rw [pending] at activates
  rw [active, pending] at warns rests
  exact ⟨fun h => activates (due.2 h), fun h => warns (risk.2 h), fun noDue noRisk => rests (mt due.1 noDue) (mt risk.1 noRisk)⟩

theorem editionTests_timeDue {s : State} (work : s.working = true) :
    (editionTests s).editions.timeDue = s.editions.timeDue := by
  obtain ⟨a, p, w, frame⟩ := editionTests_frame work
  obtain ⟨-, -, -, -, -, editions, -⟩ := of_frame frame
  rw [editions]

theorem clockSet_eq (r : Request) (u : State) : ∃ p w ws, clockSet r u = markTime (want summaryRec { u with
      clock := r.clock, change := { u.change with purge := p }
      report := { u.report with wanted := w, waiting := u.report.waiting ++ ws } }) ∧
    (dayRises u.serviceDay? r.clock.serviceDay → u.change.pages ≠ 0 → p ≠ .empty) ∧
    (¬ dayRises u.serviceDay? r.clock.serviceDay ∨ u.change.pages = 0 → p = u.change.purge) ∧
    (dayMoves u.serviceDay? r.clock.serviceDay → u.isFaulted = false →
      (⟨[summaryRec], .notice .clock⟩ : Waiting) ∈ ws) := by
  obtain ⟨⟨w, ws, same, notice, -, -⟩, queued, kept⟩ := serviceDayEffects_day u.serviceDay? { u with clock := r.clock }
  unfold clockSet
  generalize serviceDayEffects u.serviceDay? { u with clock := r.clock } = v at same queued kept
  generalize v.change.purge = p at same queued kept
  exact ⟨p, w, ws, by rw [same], queued, kept, notice⟩

theorem serviceDay?_cases (s : State) :
    (s.clock.isSet = false ∧ s.serviceDay? = none) ∨ (s.clock.isSet = true ∧ s.serviceDay? = some s.clock.serviceDay) := by
  unfold State.serviceDay?
  cases s.clock.isSet <;> simp

theorem dayRises_iff (s : State) (new : Nat) :
    dayRises s.serviceDay? new ↔ s.clock.isSet = false ∨ s.clock.serviceDay < new := by
  rcases serviceDay?_cases s with ⟨unset, day⟩ | ⟨set, day⟩ <;> rw [day]
  · exact ⟨fun _ => .inl unset, fun _ => nofun⟩
  · simp [dayRises, set]

theorem dayMoves_iff (s : State) (new : Nat) :
    dayMoves s.serviceDay? new ↔ s.clock.isSet = false ∨ s.clock.serviceDay ≠ new := by
  rcases serviceDay?_cases s with ⟨unset, day⟩ | ⟨set, day⟩ <;> rw [day]
  · exact ⟨fun _ => .inl unset, fun _ => nofun⟩
  · simp [dayMoves, set]

/-- Settles O32: the day's effects are `serviceDayEffects_day`, the tests `tested_settled`. -/
theorem setClockTakesTime : Obligations.SetClockTakesTime := by
  intro s t take r u bad first
  obtain ⟨x, taken⟩ := takeUp_eq_exch (o := .edition) nofun s t
  have run := exec_setClock take
  by_cases wrong : bad
  · rw [if_pos wrong] at run
    exact ⟨_, run, fun _ => taken_refused take, fun good => absurd wrong good⟩
  rw [if_neg wrong, taken] at run
  have work := working_of_canTake take
  obtain ⟨p, w, ws, set, queued, kept, notice⟩ := clockSet_eq r { s with exch := x }
  obtain ⟨mem, change, clock, summary, tested, ws', waiting⟩ :=
    tested_settled (s := s) (t := t) (r := .plain Outcome.ok) (u := clockSet r { s with exch := x })
      (by rw [set]; exact work) rfl
  have timeDue : (settle s (boundaries (completeAfterSummary t (.plain Outcome.ok)
      (editionTests (clockSet r { s with exch := x }))))).editions.timeDue =
      (clockSet r { s with exch := x }).editions.timeDue := by
    refine (congrArg EditionMgr.timeDue (settled_boundaries s _).editions).trans ?_
    exact editionTests_timeDue (by rw [set]; exact work)
  revert run mem change clock summary tested waiting timeDue
  generalize settle s _ = t'
  rw [set]
  intro run mem change clock summary tested waiting timeDue
  have day : t'.clock = r.clock := clock
  have rises := dayRises_iff s r.clock.serviceDay
  have moves := dayMoves_iff s r.clock.serviceDay
  have purge : t'.change.purge = p := congrArg ChangeEngine.purge change
  refine ⟨t', run, fun bad => absurd bad wrong, fun _ => ⟨day, mem, ?_, fun up image => ?_, fun down => ?_, fun change runs => ?_,
    fun l on => ?_, tested.of_slots rfl rfl ?_ rfl, summary, ws ++ ws', ?_⟩⟩
  · rw [purge]
    exact change
  · rw [purge]
    rw [day] at up
    exact queued (rises.2 up) image
  · rw [purge]
    rw [day] at down
    refine kept (down.imp_left fun ⟨old, stays⟩ => mt rises.1 ?_)
    exact not_or.2 ⟨old, Nat.not_lt.2 stays⟩
  · rw [day] at change
    have own := notice (moves.2 change) (not_isFaulted_of_working work)
    rw [waiting]
    exact List.mem_append_left _ (List.mem_append_left _ (List.mem_append_right _ own))
  · rw [timeDue]
    exact markTime_due on
  · exact clock.symm
  · rw [waiting, ← List.append_assoc s.report.waiting]
    rfl

/-! ### The minute tick -/

theorem handingOver_iff (s : State) (o : Owner) : s.handingOver o = true ↔ s.outcomeWaits o := by
  simp only [State.handingOver, State.outcomeWaits, List.any_eq_true]
  refine exists_congr fun w => and_congr_right fun _ => ?_
  cases w.act with
  | notice n => simp
  | outcome t r =>
    unfold StripState.kind
    simp only [decide_eq_true_eq]
    constructor
    · intro own
      split at own
      · next q h f hold => exact ⟨t, r, q, h, f, rfl, hold, own⟩
      · cases own
    · rintro ⟨_, _, q, h, f, same, hold, own⟩
      cases same
      rw [hold]
      exact own

theorem editionIdle_iff (s : State) : s.editionIdle = true ↔ ¬ s.busyWith .edition := by
  simp only [State.editionIdle, State.busyWith, ← handingOver_iff]
  cases s.editions.load <;> cases s.handingOver .edition <;> simp

theorem handingOver_append {s u : State} {ws : List Waiting} (waiting : u.report.waiting = s.report.waiting ++ ws)
    (notices : ∀ x ∈ ws, x.act = .notice .clock) (exch : u.exch = s.exch) (o : Owner) :
    u.handingOver o = s.handingOver o := by
  have strip (t : Strip) : u.strip t = s.strip t := by cases t <;> simp only [State.strip, exch]
  rw [Bool.eq_iff_iff, handingOver_iff, handingOver_iff]
  simp only [State.outcomeWaits, waiting, strip, List.mem_append]
  refine exists_congr fun w => ⟨fun ⟨member, rest⟩ => ?_, fun ⟨member, rest⟩ => ⟨.inl member, rest⟩⟩
  rcases member with old | new
  · exact ⟨old, rest⟩
  · obtain ⟨t, r, q, h, f, act, -⟩ := rest
    rw [notices w new] at act
    cases act

/-- A step that leaves roster, ports and sweep records makes no record due. -/
theorem settle_of_same {s u : State} (roster : u.roster = s.roster) (ports : u.ports = s.ports) (sweeps : u.sweeps = s.sweeps) :
    settle s u = u := by
  have same : settle s u = settle u u := by
    obtain ⟨⟩ := s
    obtain ⟨⟩ := u
    cases roster
    cases ports
    cases sweeps
    rfl
  rw [same, settle_self]

/-- A minute tick before the edition tests. -/
def ticking (s : State) : State :=
  let v := serviceDayEffects (some s.clock.serviceDay) { s with clock := s.clock.tick }
  if v.running then want summaryRec v else v

theorem tickClock_eq (s : State) :
    tickClock s = if (tickTests (ticking s)).running then markTime (tickTests (ticking s)) else tickTests (ticking s) := rfl

theorem ticking_eq (s : State) : ∃ p w ws, ticking s = { s with
      clock := s.clock.tick, change := { s.change with purge := p }
      report := { s.report with wanted := w, waiting := s.report.waiting ++ ws } } ∧
    (s.clock.serviceDay < s.clock.tick.serviceDay → s.change.pages ≠ 0 → p ≠ .empty) ∧
    (s.clock.tick.serviceDay ≤ s.clock.serviceDay ∨ s.change.pages = 0 → p = s.change.purge) ∧
    (s.clock.tick.serviceDay ≠ s.clock.serviceDay → s.isFaulted = false →
      (⟨[summaryRec], .notice .clock⟩ : Waiting) ∈ ws) ∧
    (s.running = true → w[summaryRec] = true) ∧ (s.running = false → w = s.report.wanted) ∧
    (∀ x ∈ ws, x.act = .notice .clock) := by
  obtain ⟨⟨w, ws, same, notice, still, own⟩, queued, kept⟩ :=
    serviceDayEffects_day (some s.clock.serviceDay) { s with clock := s.clock.tick }
  unfold ticking
  generalize serviceDayEffects (some s.clock.serviceDay) { s with clock := s.clock.tick } = v at same queued kept
  generalize v.change.purge = p at same queued kept
  have rises : dayRises (some s.clock.serviceDay) s.clock.tick.serviceDay ↔ s.clock.serviceDay < s.clock.tick.serviceDay :=
    ⟨fun h => h _ rfl, fun h d same => by cases same; exact h⟩
  have moves : s.clock.tick.serviceDay ≠ s.clock.serviceDay → dayMoves (some s.clock.serviceDay) s.clock.tick.serviceDay :=
    fun ne d same => by cases same; exact ne.symm
  have engine : v.running = s.running := by rw [same]; rfl
  have queued : s.clock.serviceDay < s.clock.tick.serviceDay → s.change.pages ≠ 0 → p ≠ .empty := fun up => queued (rises.2 up)
  have kept : s.clock.tick.serviceDay ≤ s.clock.serviceDay ∨ s.change.pages = 0 → p = s.change.purge :=
    fun down => kept (down.imp_left fun stays up => absurd (rises.1 up) (Nat.not_lt.2 stays))
  dsimp only
  rw [engine]
  split
  · next runs =>
    refine ⟨p, w.set summaryRec true, ws, by rw [same]; rfl, queued, kept, fun ne => notice (moves ne), fun _ => ?_,
      fun rests => ?_, own⟩
    · exact Vector.getElem_set_self _
    · rw [rests] at runs
      cases runs
  · next rests =>
    exact ⟨p, w, ws, same, queued, kept, fun ne => notice (moves ne), fun runs => absurd runs rests,
      fun idle => still idle, own⟩

/-- What the tests of a minute tick leave (R62): all but the two edition slots and the mark of tests put off, in the frame. -/
theorem tickTests_keeps (s : State) :
    (tickTests s).mem = s.mem ∧ (tickTests s).change = s.change ∧ (tickTests s).clock = s.clock ∧
    (tickTests s).engine = s.engine ∧ (tickTests s).editions.timeDue = s.editions.timeDue ∧
    (∀ l, ((tickTests s).port l).core = (s.port l).core) ∧
    (∀ r : Fin 29, s.report.wanted[r] = true → (tickTests s).report.wanted[r] = true) ∧
    ∃ ws, (tickTests s).report.waiting = s.report.waiting ++ ws := by
  rcases tickTests_cases s with ⟨-, same⟩ | ⟨-, -, -, same⟩ | ⟨-, -, same⟩ <;> rw [same]
  · by_cases work : s.working = true
    · obtain ⟨a, p, w, frame⟩ := editionTests_frame work
      obtain ⟨-, engine, -, -, change, -, clock, -, mem, -, -, -, ports⟩ := of_frame frame
      exact ⟨mem, change, clock, engine, editionTests_timeDue work, ports, editionTests_wanted work,
        editionTests_waiting work⟩
    · have rests : editionTests s = s := by simp [editionTests, work]
      rw [rests]
      exact ⟨rfl, rfl, rfl, rfl, rfl, fun _ => rfl, fun _ due => due, [], (List.append_nil _).symm⟩
  · exact ⟨rfl, rfl, rfl, rfl, rfl, fun _ => rfl, fun _ due => due, [], (List.append_nil _).symm⟩
  · exact ⟨rfl, rfl, rfl, rfl, rfl, fun _ => rfl, fun _ due => due, [], (List.append_nil _).symm⟩

theorem lineOn_of_core {s u : State} {l : Fin 4} (same : (s.port l).core = (u.port l).core) : s.lineOn l = u.lineOn l := by
  have mode := congrArg Port.mode same
  have mode : (s.port l).mode = (u.port l).mode := mode
  simp only [State.lineOn, mode]

/-- The tick after its tests: TIME falls due in RUNNING. -/
theorem tickClock_time (s : State) (engine : (tickTests (ticking s)).engine = s.engine)
    (lines : ∀ l, (tickTests (ticking s)).lineOn l = s.lineOn l) : ∃ td,
    tickClock s = { tickTests (ticking s) with editions := { (tickTests (ticking s)).editions with timeDue := td } } ∧
    (s.running = true → ∀ l : Fin 4, s.lineOn l = true → td[l] = true) ∧
    (s.running = false → td = (tickTests (ticking s)).editions.timeDue) := by
  rw [tickClock_eq]
  generalize tickTests (ticking s) = v at engine lines
  have runs : v.running = s.running := by simp only [State.running, engine]
  rw [runs]
  split
  · next runs =>
    refine ⟨(markTime v).editions.timeDue, rfl, fun _ l on => markTime_due (by rw [lines]; exact on), fun rests => ?_⟩
    rw [rests] at runs
    cases runs
  · next rests => exact ⟨v.editions.timeDue, rfl, fun runs => absurd runs rests, fun _ => rfl⟩

theorem Clock.tick_eq (c : Clock) : c.tick = { c with
    day := if c.minute = 1439 then c.day + 1 else c.day
    minute := if c.minute = 1439 then 0 else c.minute + 1
    seconds := 0, part := 0 } := by
  unfold Clock.tick
  split <;> rfl

theorem kept_raise (n : Notice) (s : State) : Kept s (raise n s) := by
  unfold raise
  split
  · exact .refl s
  · exact ⟨rfl, rfl, rfl, rfl, rfl, rfl, rfl, rfl, rfl, rfl, rfl, rfl, rfl, rfl, rfl, fun _ due => due, fun _ => rfl,
      fun _ => ⟨rfl, rfl, fun _ => rfl⟩⟩

theorem raise_bits (n : Notice) (s : State) (i : Nat) :
    (raise n s).regs.events.getLsbD i = (s.regs.events.getLsbD i || (!s.isFaulted && decide (i = n.bit))) := by
  cases faulted : s.isFaulted with
  | true => simp [raise, faulted]
  | false => rw [raise_bit n s i faulted]; rfl

theorem raise_ready (n : Notice) (s : State) (ready : ∀ l, s.portReady l = false) (l : Fin 4) :
    (raise n s).portReady l = false := by
  rw [← ready l]
  unfold raise
  split <;> rfl

/-- What a minute tick of a clock that moves does. -/
structure Ticked (s t : State) : Prop where
  mem : t.mem = s.mem
  clock : t.clock = s.clock.tick
  change : t.change = { s.change with purge := t.change.purge }
  queued : s.clock.serviceDay < s.clock.tick.serviceDay → s.change.pages ≠ 0 → t.change.purge ≠ .empty
  kept : s.clock.tick.serviceDay ≤ s.clock.serviceDay ∨ s.change.pages = 0 → t.change.purge = s.change.purge
  notice : s.clock.tick.serviceDay ≠ s.clock.serviceDay → s.isFaulted = false →
    (⟨[summaryRec], .notice .clock⟩ : Waiting) ∈ t.report.waiting
  running : s.engine = .running → t.report.wanted[summaryRec] = true ∧
    ∀ l : Fin 4, s.lineOn l = true → t.editions.timeDue[l] = true
  tested : s.working = true → ¬ s.busyWith .edition → EditionTested { s with clock := s.clock.tick } t
  busy : s.working = true → s.busyWith .edition →
    t.editions = { s.editions with
      timeDue := t.editions.timeDue, testsDue := s.editions.testsDue || s.editions.load.isNone }
  rests : s.working = false → t.editions = s.editions ∧ t.report.wanted = s.report.wanted ∧ t.roster = s.roster ∧
    t.ports = s.ports ∧ t.sweeps = s.sweeps

theorem running_of_working {s : State} (rests : s.working = false) : s.running = false := by
  revert rests
  unfold State.working State.running
  cases s.engine <;> simp

theorem tickClock_ticked (s : State) : Ticked s (tickClock s) := by
  obtain ⟨p, w, ws, own, queued, kept, notice, runs, still, notices⟩ := ticking_eq s
  obtain ⟨mem, change, clock, engine, timeDue, ports, wanted, ws', waiting⟩ := tickTests_keeps (ticking s)
  have cases := tickTests_cases (ticking s)
  have editionTested (work : (ticking s).working = true) := editionTests_tested work
  have handing := handingOver_append (s := s) (u := ticking s) (ws := ws) (by rw [own]) notices (by rw [own]) .edition
  have idle : (ticking s).editionIdle = s.editionIdle := by
    simp only [State.editionIdle, handing]
    rw [own]
  obtain ⟨td, time, due, rest⟩ := tickClock_time s (engine.trans (by rw [own])) fun l => by
    rw [lineOn_of_core (ports l), own]
    rfl
  have work : (ticking s).working = s.working := by rw [own]; rfl
  rw [work] at editionTested cases
  rw [idle, handing] at cases
  have resting : s.working = false → editionTests (ticking s) = ticking s := fun rests => by
    simp [editionTests, work, rests]
  generalize tickTests (ticking s) = v at *
  generalize ticking s = u at *
  subst own
  rw [time]
  have purge : v.change.purge = p := congrArg ChangeEngine.purge change
  refine ⟨mem, clock, ?_, ?_, ?_, fun moves healthy => ?_, fun engine => ⟨wanted _ (runs ?_), due ?_⟩, fun working free => ?_,
    fun working busy => ?_, fun idle => ?_⟩
  · rw [← purge] at change
    exact change
  · rw [← purge] at queued
    exact queued
  · rw [← purge] at kept
    exact kept
  · dsimp only
    rw [waiting]
    exact List.mem_append_left _ (List.mem_append_right _ (notice moves healthy))
  · simp [State.running, engine]
  · simp [State.running, engine]
  · rcases cases with ⟨-, same⟩ | ⟨-, handing, -⟩ | ⟨busy, -⟩
    · have tested := editionTested working
      rw [← same] at tested
      exact (tested.of_slots rfl rfl rfl rfl).congr ⟨rfl, rfl, rfl⟩ rfl rfl (fun h => h) rfl
    · exact absurd (.inr ((handingOver_iff s .edition).1 handing)) free
    · rw [Bool.eq_false_iff, ne_eq, editionIdle_iff] at busy
      exact absurd free busy
  · rcases cases with ⟨free, -⟩ | ⟨empty, -, -, same⟩ | ⟨-, load, same⟩
    · exact absurd busy ((editionIdle_iff s).1 free)
    · rw [same]
      have empty : s.editions.load = none := empty
      simp [setTestsDue, empty]
    · rw [same]
      have load := load.resolve_right (by simp [working])
      have busy : s.editions.load.isNone = false := by rwa [Bool.eq_false_iff, ne_eq, Option.isNone_iff_eq_none]
      simp [busy]
  · rcases cases with ⟨-, same⟩ | ⟨-, -, work, -⟩ | ⟨-, -, same⟩
    · rw [rest (running_of_working idle), same, resting idle]
      exact ⟨rfl, still (running_of_working idle), rfl, rfl, rfl⟩
    · rw [idle] at work
      cases work
    · rw [rest (running_of_working idle), same]
      exact ⟨rfl, still (running_of_working idle), rfl, rfl, rfl⟩

/-! ### The tests put off to an outcome (R62) -/

/-- The state in which the outcome that waited for record `r` alone is handed over. -/
def State.letGo (s : State) (r : Fin 29) : State :=
  { s.rewritten r with report := { (s.rewritten r).report with waiting := [] } }

theorem rewriteRecord_outcome {s : State} (wf : Memory.wf s.mem = true) {r : Fin 29} {u : Strip} {res : Result}
    (waiting : s.report.waiting = [⟨[r], .outcome u res⟩]) : rewriteRecord r s = handOutcome u res (s.letGo r) := by
  have own : (s.rewritten r).report.waiting = [⟨[r], .outcome u res⟩] := by
    unfold State.rewritten stopRecordTimer
    split <;> exact waiting
  rw [rewriteRecord_eq wf]
  simp [release, released, own, State.letGo, give]

theorem letGo_keeps (s : State) (r : Fin 29) :
    (s.letGo r).regs = s.regs ∧ (s.letGo r).engine = s.engine ∧ (s.letGo r).exch = s.exch ∧ (s.letGo r).change = s.change ∧
    (s.letGo r).editions = s.editions ∧ (s.letGo r).clock = s.clock ∧ (s.letGo r).roster = s.roster ∧
    (s.letGo r).mem = (s.written r).mem ∧ (s.letGo r).report.waiting = [] := by
  unfold State.letGo State.rewritten stopRecordTimer
  split <;> exact ⟨rfl, rfl, rfl, rfl, rfl, rfl, rfl, rfl, rfl⟩

theorem testsAct_iff {s : State} (work : s.working = true) : s.testsAct = true ↔ s.dueNow ∨ s.riskNow := by
  rw [← activationDue_iff, ← riskWindow_iff]
  simp [State.testsAct, work]

/-- The state in which the tests put off are made. -/
def State.dueTests (s : State) (r : Fin 29) : State := setTestsDue false (s.letGo r)

theorem dueTests_keeps (s : State) (r : Fin 29) :
    (s.dueTests r).regs = s.regs ∧ (s.dueTests r).engine = s.engine ∧ (s.dueTests r).exch = s.exch ∧
    (s.dueTests r).change = s.change ∧ (s.dueTests r).clock = s.clock ∧ (s.dueTests r).roster = s.roster ∧
    (s.dueTests r).mem = (s.written r).mem ∧ (s.dueTests r).report.waiting = [] ∧
    (s.dueTests r).editions = { s.editions with testsDue := false } := by
  obtain ⟨regs, engine, exch, change, editions, clock, roster, mem, waiting⟩ := letGo_keeps s r
  refine ⟨regs, engine, exch, change, clock, roster, mem, waiting, ?_⟩
  rw [State.dueTests, setTestsDue, editions]

theorem editionTests_fields {s : State} (work : s.working = true) :
    (editionTests s).exch = s.exch ∧ (editionTests s).mem = s.mem ∧ (editionTests s).change = s.change ∧
    (editionTests s).clock = s.clock ∧ (editionTests s).editions.testsDue = s.editions.testsDue ∧
    (editionTests s).editions.load = s.editions.load := by
  obtain ⟨a, p, w, frame⟩ := editionTests_frame work
  obtain ⟨-, -, -, exch, change, editions, clock, -, mem, -⟩ := of_frame frame
  exact ⟨exch, mem, change, clock, by rw [editions], by rw [editions]⟩

/-- The tests of the put-off kind tell of what they do by EVENTS.EDITION. -/
theorem editionTests_notice {s : State} (work : s.working = true) (acts : s.dueNow ∨ s.riskNow) :
    (editionTests s).report.waiting = s.report.waiting ++ [⟨[summaryRec], .notice .edition⟩] := by
  rcases editionTests_cases work with ⟨-, same⟩ | ⟨-, same⟩ | ⟨noDue, noRisk, -⟩
  · rw [same]
    exact (activate_awaits work).waiting
  · rw [same]
    exact (warned_awaits s).waiting
  · exact absurd acts (not_or.2 ⟨noDue, noRisk⟩)

/-- A rewrite that lets go an outcome the tests of a minute tick were put off to. -/
theorem rewrite_tested {s : State} {u : Strip} {res : Result} {q : Request} {h f : Bool} {r : Fin 29}
    (wf : Memory.wf s.mem = true) (work : s.working = true) (put : s.editions.testsDue = true)
    (waiting : s.report.waiting = [⟨[r], .outcome u res⟩]) (hold : (s.strip u).scan = .holding q h f)
    (owner : ownerOf q.kind = some .edition) :
    (s.dueNow ∨ s.riskNow → rewriteRecord r s = completeAfterSummary u res (editionTests (s.dueTests r))) ∧
    (¬ (s.dueNow ∨ s.riskNow) → rewriteRecord r s = completeRequest u res (s.dueTests r)) := by
  obtain ⟨-, engine, exch, -, editions, clock, roster, -, -⟩ := letGo_keeps s r
  have strip : (s.letGo r).strip u = s.strip u := by cases u <;> simp only [State.strip, exch]
  have working : (s.letGo r).working = true := by rw [← work]; simp only [State.working, engine]
  have acts : (s.letGo r).testsAct = true ↔ s.dueNow ∨ s.riskNow := by
    rw [testsAct_iff working]
    simp only [State.dueNow, State.riskNow, State.lacksPending, State.slot, editions, clock, roster]
  have mine : ((s.letGo r).strip u).kind.bind ownerOf = some .edition := by
    simp [strip, StripState.kind, hold, owner]
  have tests : deferredTests u (s.letGo r) = (editionTests (s.dueTests r), (s.letGo r).testsAct) := by
    rcases deferredTests_cases u (s.letGo r) with ⟨-, -, same⟩ | ⟨none, -⟩
    · exact same
    · rw [editions, put] at none
      exact absurd mine (none.resolve_left Bool.noConfusion)
  rw [rewriteRecord_outcome wf waiting, handOutcome, tests]
  dsimp only
  refine ⟨fun act => if_pos (acts.2 act), fun rest => ?_⟩
  rw [if_neg (mt acts.1 rest)]
  congr 1
  have quiet := mt acts.1 rest
  rw [testsAct_iff working] at quiet
  rcases editionTests_cases (s := s.dueTests r) working with ⟨due, -⟩ | ⟨risk, -⟩ | ⟨-, -, same⟩
  · exact absurd (.inl due) quiet
  · exact absurd (.inr risk) quiet
  · exact same

theorem exec_reportRewrite {s : State} {r : Fin 29} (high : s.resetLow = false) (due : s.report.wanted[r] = true)
    (may : s.working = true ∨ (s.engine = .starting ∧ s.startOrder r = true)) :
    exec (.reportRewrite r) s = .next (settle s
      (if s.editions.testsDue && !(rewriteRecord r s).editions.testsDue then boundaries (rewriteRecord r s)
       else rewriteRecord r s)) := by
  have step : exec (.reportRewrite r) s = execReportRewrite r s := rfl
  have may : (s.working || (decide (s.engine = .starting) && s.startOrder r)) = true := by
    simpa only [Bool.or_eq_true, Bool.and_eq_true, decide_eq_true_eq] using may
  rw [step, execReportRewrite, recorded_next high, due, may]
  rfl

theorem written_keeps (s : State) (r : Fin 29) : (s.written r).regs = s.regs ∧ (s.written r).exch = s.exch := ⟨rfl, rfl⟩

section
variable {s : State} {u : Strip} {res : Result} {q : Request} {h f : Bool}

theorem putOff_acts (high : s.resetLow = false) (work : s.working = true) (wf : Memory.wf s.mem = true)
    (due : s.report.wanted[summaryRec] = true) (put : s.editions.testsDue = true)
    (waiting : s.report.waiting = [⟨[summaryRec], .outcome u res⟩]) (hold : (s.strip u).scan = .holding q h f)
    (owner : ownerOf q.kind = some .edition) (act : s.dueNow ∨ s.riskNow) :
    ∃ t, exec (.reportRewrite summaryRec) s = .next t ∧ t.editions.testsDue = false ∧ t.clock = s.clock ∧
      t.change = s.change ∧ EditionTested s t ∧ t.mem = (s.written summaryRec).mem ∧ (∀ k, t.strip k = s.strip k) ∧
      t.report.waiting = [⟨[summaryRec], .notice .edition⟩, ⟨[summaryRec], .outcome u res⟩] := by
  obtain ⟨regs, engine, exch, change, clock, roster, mem, empty, editions⟩ := dueTests_keeps s summaryRec
  have working : (s.dueTests summaryRec).working = true := by rw [← work]; simp only [State.working, engine]
  have run := exec_reportRewrite high due (.inl work)
  rw [(rewrite_tested wf work put waiting hold owner).1 act] at run
  obtain ⟨exch', mem', -, -, tests, -⟩ := editionTests_fields working
  have notice := editionTests_notice (s := s.dueTests summaryRec) working
    (by simpa only [State.dueNow, State.riskNow, State.lacksPending, State.slot, editions, clock, roster] using act)
  have cleared : (completeAfterSummary u res (editionTests (s.dueTests summaryRec))).editions.testsDue = false := by
    refine Eq.trans ?_ (tests.trans (by rw [editions]))
    rfl
  rw [put, cleared, if_pos (show (true && !false) = true from rfl)] at run
  obtain ⟨-, change', clock', -, tested, -⟩ :=
    tested_settled (s := s) (t := u) (r := res) (u := s.dueTests summaryRec) working rfl
  have settled := settled_boundaries s (completeAfterSummary u res (editionTests (s.dueTests summaryRec)))
  revert run change' clock' tested settled
  generalize settle s _ = t'
  intro run change' clock' tested settled
  have strips (k : Strip) : t'.strip k = s.strip k := by
    cases k
    · exact settled.priority.trans (congrArg ExchangeIf.priority (exch'.trans exch))
    · exact settled.routine.trans (congrArg ExchangeIf.routine (exch'.trans exch))
  refine ⟨t', run, (congrArg EditionMgr.testsDue settled.editions).trans cleared, clock'.trans clock,
    change'.trans change, tested.of_slots ?_ ?_ clock roster, settled.mem.trans (mem'.trans mem), strips,
    settled.waiting.trans ?_⟩
  · rw [editions]
  · rw [editions]
  · rw [want_of_summary, awaitRecords_waiting, want_waiting, notice, empty]
    rfl

theorem putOff_rests (high : s.resetLow = false) (work : s.working = true) (wf : Memory.wf s.mem = true)
    (due : s.report.wanted[summaryRec] = true) (put : s.editions.testsDue = true)
    (waiting : s.report.waiting = [⟨[summaryRec], .outcome u res⟩]) (hold : (s.strip u).scan = .holding q h f)
    (owner : ownerOf q.kind = some .edition) (pos : (s.strip u).position < s.stripCount u)
    (rest : ¬ (s.dueNow ∨ s.riskNow)) :
    ∃ t, exec (.reportRewrite summaryRec) s = .next t ∧ t.editions = { s.editions with testsDue := false } ∧
      t.clock = s.clock ∧ t.change = s.change ∧ Completed u res (s.written summaryRec) t ∧ t.report.waiting = [] := by
  obtain ⟨regs, engine, exch, change, clock, -, mem, empty, editions⟩ := dueTests_keeps s summaryRec
  have run := exec_reportRewrite high due (.inl work)
  rw [(rewrite_tested wf work put waiting hold owner).2 rest, put] at run
  have wf' : Memory.wf (s.written summaryRec).mem = true :=
    (congrArg Memory.wf (writeRecord_mem wf summaryRec).symm).trans (writeRecord_wf s summaryRec 3 wf)
  obtain ⟨regs', exch'⟩ := written_keeps s summaryRec
  generalize s.dueTests summaryRec = d at *
  generalize s.written summaryRec = w at *
  obtain ⟨-, -, -, -, -, -, -, -, -, -, -, -, -, editions', -⟩ :=
    offStrip_eq (t := u) (s := completeRequest u res d) (u := d) (by simp)
  have cleared : (completeRequest u res d).editions.testsDue = false := by rw [editions', editions]
  rw [cleared, if_pos (show (true && !false) = true from rfl)] at run
  have strip : d.strip u = s.strip u := by cases u <;> simp only [State.strip, exch]
  have healthy : d.isFaulted = false := by simpa only [State.isFaulted, engine] using not_isFaulted_of_working work
  have desc : d.exch.descriptor = s.exch.descriptor := congrArg ExchangeIf.descriptor exch
  obtain ⟨completed, kept⟩ := completes_settled (s := s) (r := res) (u := d) (by rw [strip, hold]) healthy
    (by rwa [strip, (stripAddr_of_desc desc u).2]) (by rwa [mem])
  exact ⟨_, run, kept.editions.trans editions, kept.clock.trans clock, kept.change.trans change,
    completed.of_eq (exch.trans exch'.symm) mem (regs.trans regs'.symm), kept.waiting.trans empty⟩

end

/-- Settles O33: the tick is `tickClock_ticked`, the tests put off to an outcome `rewrite_tested`. -/
theorem minuteTickMovesClock : Obligations.MinuteTickMovesClock := by
  refine ⟨?_, ?_⟩
  · intro s high c atEnd
    have step : exec .minuteTick s = scheduled s fun s =>
      if s.clock.isSet then (if s.clock.day = 65535 ∧ s.clock.minute = 1439 then stopClock s else tickClock s) else s := rfl
    rw [step, scheduled_next high]
    by_cases unset : s.clock.isSet = false
    · rw [if_neg (by simp [unset])]
      have settled := settled_boundaries s s
      refine ⟨_, rfl, settled.mem, fun _ => settled, ?_, ?_, ?_⟩ <;> intro set <;> rw [unset] at set <;> cases set
    have set : s.clock.isSet = true := by simpa using unset
    rw [if_pos set]
    by_cases last : atEnd
    · rw [if_pos last, stopClock]
      cases stopped : s.clock.stopped with
      | true =>
        have settled := settled_boundaries s s
        exact ⟨_, rfl, settled.mem, fun is => absurd is unset, fun _ _ _ => settled, fun _ _ going => (nomatch going),
          fun _ on => absurd last on⟩
      | false =>
        have settled := settled_boundaries s (raise .clock { s with clock := { s.clock with stopped := true } })
        rw [if_neg Bool.false_ne_true]
        revert settled
        generalize settle s _ = t
        intro settled
        have kept := (kept_raise .clock { s with clock := { s.clock with stopped := true } }).settled settled
        refine ⟨t, rfl, settled.mem.trans ?_, fun is => absurd is unset, fun _ _ stopped => (nomatch stopped),
          fun _ _ _ => ⟨kept ?_, fun i => ?_⟩, fun _ on => absurd last on⟩
        · exact raise_mem _ _
        · exact raise_ready _ _
        · rw [settled.events]
          exact raise_bits .clock _ i
    · rw [if_neg last]
      have settled := settled_boundaries s (tickClock s)
      obtain ⟨mem, clock, change, queued, kept, notice, running, tested, busy, rests⟩ := tickClock_ticked s
      have still : s.working = false → (settle s (boundaries (tickClock s))).report.wanted = (tickClock s).report.wanted := fun idle => by
        obtain ⟨-, -, roster, ports, sweeps⟩ := rests idle
        have engine : (tickClock s).engine = s.engine := congrArg Spine.engine (tickClock_spine s)
        rw [boundaries_not_running (by rw [engine]; intro runs; simp [State.working, runs] at idle),
          settle_of_same roster ports sweeps]
      revert settled still
      generalize settle s _ = t
      intro settled still
      refine ⟨t, rfl, settled.mem.trans mem, fun is => absurd is unset, fun _ on => absurd on last,
        fun _ on => absurd on last, fun _ _ => ?_⟩
      rw [settled.change, settled.clock, clock, settled.editions, settled.roster, settled.waiting]
      refine ⟨Clock.tick_eq _, change, queued, kept, notice, fun engine => ?_, fun work free => ?_, busy, fun idle => ?_⟩
      · obtain ⟨summary, times⟩ := running engine
        exact ⟨settled.wanted _ summary, times⟩
      · exact (tested work free).congr ⟨rfl, rfl, rfl⟩ (congrArg EditionMgr.active settled.editions)
          (congrArg EditionMgr.pending settled.editions) (settled.wanted _) settled.waiting
      · obtain ⟨editions, wanted, roster, -⟩ := rests idle
        exact ⟨editions, (still idle).trans wanted, roster⟩
  · intro s u res high work wf due put waiting waits pos a count written
    obtain ⟨w, member, t, r, q, h, f, act, hold, owner⟩ := waits
    rw [waiting, List.mem_singleton] at member
    subst member
    cases act
    by_cases act : s.dueNow ∨ s.riskNow
    · obtain ⟨t', run, cleared, clock, change, tested, mem, strips, both⟩ :=
        putOff_acts high work wf due put waiting hold owner act
      exact ⟨t', run, cleared, clock, change, tested, fun _ => ⟨fun b => congrArg (Memory.read · b) mem, strips u,
        [⟨[summaryRec], .notice .edition⟩], both, List.mem_singleton_self _⟩,
        fun noDue noRisk => absurd act (not_or.2 ⟨noDue, noRisk⟩)⟩
    · obtain ⟨t', run, editions, clock, change, completed, none⟩ :=
        putOff_rests high work wf due put waiting hold owner pos act
      exact ⟨t', run, by rw [editions], clock, change, ⟨fun due => absurd (.inl due) act, fun risk => absurd (.inr risk) act,
        fun _ _ => by rw [editions]; exact ⟨rfl, rfl⟩⟩, fun acts => absurd acts act, fun _ _ => ⟨completed, none⟩⟩

end Sys2Proof.Machine

/-!
The pages of the image in memory (R4 to R10): what a sealed page shows, what writing void pages, headers and entries leaves,
and what is read back.
-/
namespace Sys2Proof.Machine

/-! ### Sealed pages -/

theorem sealPage_length {page : List Byte} (long : 16 ≤ page.length) : (sealPage page).length = page.length := by
  simp only [sealPage, List.length_append, List.length_take, List.length_drop, leBytes_length]
  omega

theorem sealPage_take {page : List Byte} (long : 16 ≤ page.length) : (sealPage page).take 12 = page.take 12 := by
  rw [sealPage, List.append_assoc, List.take_left' (by simp only [List.length_take]; omega)]

theorem sealPage_drop {page : List Byte} (long : 16 ≤ page.length) : (sealPage page).drop 16 = page.drop 16 := by
  rw [sealPage, List.drop_left' (by simp only [List.length_append, List.length_take, leBytes_length]; omega)]

theorem sealPage_crc {page : List Byte} (long : 16 ≤ page.length) :
    ((sealPage page).drop 12).take 4 = leBytes 4 (pageCrc page).toNat := by
  rw [sealPage, List.append_assoc, List.drop_left' (by simp only [List.length_take]; omega),
    List.take_left' (leBytes_length 4 _)]

/-- The CRC is over the page with its own field 0 (R9). -/
theorem pageCrc_sealPage {page : List Byte} (long : 16 ≤ page.length) : pageCrc (sealPage page) = pageCrc page := by
  rw [pageCrc, sealPage_take long, sealPage_drop long, ← pageCrc]

theorem pageCrcField_sealPage {page : List Byte} (long : 16 ≤ page.length) : pageCrcField (sealPage page) = pageCrc page := by
  rw [pageCrcField, fieldAt, sealPage_crc long, leNat_leBytes 4 _ (pageCrc page).isLt, BitVec.ofNat_toNat,
    BitVec.setWidth_eq]

theorem headerBytes_length (n live : Nat) (stamp identity : Word) : (headerBytes n live stamp identity).length = 16 := by
  simp [headerBytes, leBytes_length]

theorem headerBytes_take (n live : Nat) (stamp identity : Word) : (headerBytes n live stamp identity).take 12 =
    leBytes 2 n ++ [BitVec.ofNat 8 live, 1] ++ leBytes 4 stamp.toNat ++ leBytes 4 identity.toNat :=
  List.take_left' (by simp [leBytes_length])

theorem rawPage_length (n live : Nat) (stamp identity : Word) {body : List Byte} (full : body.length = 240) :
    (headerBytes n live stamp identity ++ body).length = 256 := by
  rw [List.length_append, headerBytes_length, full]

theorem voidPage_length (n : Nat) (stamp identity : Word) : (voidPage n stamp identity).length = 256 := by
  have raw := rawPage_length n 0 stamp identity (List.length_replicate (n := 240) (a := (0 : Byte)))
  rw [voidPage, sealPage_length (by omega), raw]

theorem pageCrcField_voidPage (n : Nat) (stamp identity : Word) :
    pageCrcField (voidPage n stamp identity) = pageCrc (voidPage n stamp identity) := by
  have raw := rawPage_length n 0 stamp identity (List.length_replicate (n := 240) (a := (0 : Byte)))
  rw [voidPage, pageCrcField_sealPage (by omega), pageCrc_sealPage (by omega)]

/-! ### Void pages -/

theorem writeVoids_succ (m : List Host.Cell) (base first : Nat) (identity : Word) (k : Nat) :
    writeVoids m base first identity (k + 1) =
      writeVoids (Memory.writeBytes m (pageAddr base first) (voidPage first 1 identity)) base (first + 1) identity k := by
  conv_lhs => unfold writeVoids

theorem writeVoids_outside (base : Nat) (identity : Word) (k first : Nat) (m : List Host.Cell) {a : Nat}
    (outside : a < base + 256 * first ∨ base + 256 * (first + k) ≤ a) :
    Memory.read (writeVoids m base first identity k) a = Memory.read m a := by
  induction k generalizing first m with
  | zero => rfl
  | succ k ih =>
    have size := voidPage_length first 1 identity
    rw [writeVoids_succ, ih (first + 1) _ (by omega)]
    generalize voidPage first 1 identity = page at size
    exact Memory.read_writeBytes_outside m _ page (by unfold pageAddr; omega)

theorem writeVoids_page (base : Nat) (identity : Word) (k first : Nat) {m : List Host.Cell} (w : Memory.wf m = true)
    {n : Nat} (low : first ≤ n) (high : n < first + k) :
    Memory.readBytes (writeVoids m base first identity k) (base + 256 * n) 256 = voidPage n 1 identity := by
  induction k generalizing first m with
  | zero => omega
  | succ k ih =>
    rw [writeVoids_succ]
    by_cases here : n = first
    · subst here
      have edge : base + 256 * n + 256 = base + 256 * (n + 1) := by omega
      have own := Memory.readBytes_writeBytes w (pageAddr base n) (voidPage n 1 identity)
      rw [voidPage_length] at own
      refine Eq.trans (Memory.readBytes_congr _ _ fun c _ below => ?_) own
      rw [edge] at below
      exact writeVoids_outside base identity k (n + 1) _ (.inl below)
    · exact ih (first + 1) (Memory.writeBytes_wf _ _ w) (by omega) (by omega)

theorem voidTable_length (identity : Word) (pages : Nat) : (voidTable identity pages).length = pages := by
  simp [voidTable]

theorem voidTable_get (identity : Word) {pages n : Nat} (inside : n < pages) :
    (voidTable identity pages)[n]? = some ⟨1, 0, pageCrc (voidPage n 1 identity), 0⟩ := by
  simp [voidTable, inside, pageCrcField_voidPage]

end Sys2Proof.Machine

/-!
FORMAT IMAGE as it is taken up (O23) and at its switch (O24), and REBUILD IMAGE as it is taken up (O25).
-/
namespace Sys2Proof.Machine

/-! ### FORMAT IMAGE as it is taken up -/

/-- FORMAT IMAGE judged. -/
def formatJudged (t : Strip) (r : Request) (u : State) : State :=
  match refuseFormat r u.change with
  | some o => completeRequest t (.plain o) u
  | none => startFormat t r r.pageCount u

theorem exec_formatImage {s : State} {t : Strip} (take : s.canTake t .change Kind.formatImage) :
    exec (.formatImage t) s = .next (settle s (boundaries (formatJudged t (s.request t) (takeUp t .change s)))) := by
  obtain ⟨high, may, -, -⟩ := take
  have step : exec (.formatImage t) s = execFormatImage t s := rfl
  rw [step, execFormatImage, scheduled_next high]
  simp only [may, if_true, formatJudged] <;> rfl

theorem formatJudged_refused {t : Strip} {r : Request} {u : State} {o : Byte} (refuse : refuseFormat r u.change = some o) :
    formatJudged t r u = completeRequest t (.plain o) u := by
  unfold formatJudged
  rw [refuse]

theorem formatJudged_accepted {t : Strip} {r : Request} {u : State} (accept : refuseFormat r u.change = none) :
    formatJudged t r u = startFormat t r r.pageCount u := by
  unfold formatJudged
  rw [accept]

theorem format_refused {s : State} {t : Strip} {o : Byte} (take : s.canTake t .change Kind.formatImage)
    (refuse : refuseFormat (s.request t) (takeUp t .change s).change = some o) :
    ∃ t', exec (.formatImage t) s = .next t' ∧ Answers t (.plain o) (takeUp t .change s) t' := by
  have run := exec_formatImage take
  rw [formatJudged_refused refuse] at run
  exact ⟨_, run, taken_refused take⟩

theorem badPageCount_iff (r : Request) : r.badPageCount = true ↔ r.param 8 2 < 64 ∨ 4096 < r.param 8 2 := by
  simp only [Request.badPageCount, Request.pageCount, Bool.or_eq_true]
  exact or_congr decide_eq_true_iff decide_eq_true_iff

/-- What FORMAT IMAGE leaves as it is accepted. -/
structure FormatBegun (t : Strip) (r : Request) (s u t' : State) : Prop where
  run : exec (.formatImage t) s = .next t'
  change : t'.change = { u.change with
    format := some ⟨t, u.formatTarget, r.pageCount, r.seed, r.identity, voidTable r.identity r.pageCount⟩ }
  mem : t'.mem = writeVoids u.mem (u.imageBase u.formatTarget) 0 r.identity r.pageCount

theorem format_accepted {s : State} {t : Strip} (take : s.canTake t .change Kind.formatImage)
    (accept : refuseFormat (s.request t) (takeUp t .change s).change = none) :
    ∃ t', FormatBegun t (s.request t) s (takeUp t .change s) t' := by
  have run := exec_formatImage take
  rw [formatJudged_accepted accept] at run
  have settled := settled_boundaries s (startFormat t (s.request t) (s.request t).pageCount (takeUp t .change s))
  refine ⟨_, run, settled.change, settled.mem.trans ?_⟩
  rw [startFormat, Nat.min_self]

/-- Settles O23: the refusals in the order of `refuseFormat`, and the pages of `writeVoids`. -/
theorem formatImageTakenUp : Obligations.FormatImageTakenUp := by
  intro s t take r pages identity u target base
  obtain ⟨x, p, taken, -⟩ := takeUp_eq t .change s
  have live : u.change.identity = s.change.identity ∧ u.change.pages = s.change.pages := by
    simp only [u, taken, and_self]
  obtain ⟨liveId, livePages⟩ := live
  have bad := badPageCount_iff r
  have refuse : refuseFormat r u.change =
      if r.badPageCount then some Outcome.badParam
      else if identity = s.change.identity then some Outcome.wrongState
      else if s.change.pages ≠ 0 ∧ identity = 0 then some Outcome.badParam
      else none := by
    rw [← liveId, ← livePages]
    rfl
  by_cases count : pages < 64 ∨ 4096 < pages
  · rw [if_pos (bad.2 count)] at refuse
    obtain ⟨t', run, answers⟩ := format_refused take refuse
    refine ⟨t', run, fun _ => answers, fun low high => ?_, fun low high => ?_, fun low high => ?_⟩ <;> omega
  rw [if_neg (mt bad.1 count)] at refuse
  by_cases same : identity = s.change.identity
  · rw [if_pos same] at refuse
    obtain ⟨t', run, answers⟩ := format_refused take refuse
    exact ⟨t', run, fun wrong => absurd wrong count, fun _ _ _ => answers, fun _ _ other => absurd same other,
      fun _ _ other => absurd same other⟩
  rw [if_neg same] at refuse
  by_cases zero : s.change.pages ≠ 0 ∧ identity = 0
  · rw [if_pos zero] at refuse
    obtain ⟨t', run, answers⟩ := format_refused take refuse
    exact ⟨t', run, fun wrong => absurd wrong count, fun _ _ is => absurd is same, fun _ _ _ _ _ => answers,
      fun _ _ _ fine => absurd zero.2 (fine zero.1)⟩
  rw [if_neg zero] at refuse
  obtain ⟨t', run, change, mem⟩ := format_accepted take refuse
  have region : u.change.region = s.change.region := by simp only [u, taken]
  have format : u.formatTarget = target := by
    unfold State.formatTarget
    rw [livePages, region]
  have place : u.imageBase u.formatTarget = base := by
    rw [format]
    have desc : u.desc = s.desc := by
      simp only [State.desc, show u.exch.descriptor = s.exch.descriptor from congrArg Spine.descriptor (takeUp_spine s t .change)]
    unfold State.imageBase base
    rw [desc]
    rfl
  have wf : Memory.wf u.mem = true := by
    rw [show u.mem = s.mem from takeUp_mem s t .change]
    exact take.2.2.2
  rw [place] at mem
  rw [format] at change
  refine ⟨t', run, fun wrong => absurd wrong count, fun _ _ is => absurd is same,
    fun _ _ _ image none => absurd ⟨image, none⟩ zero, fun _ _ _ _ => ⟨fun n inside => ?_, fun a outside => ?_,
      _, congrArg ChangeEngine.format change, change, rfl, rfl, rfl, rfl, rfl, voidTable_length _ _, fun n inside => ?_⟩⟩
  · rw [mem]
    exact writeVoids_page base _ _ 0 wf (Nat.zero_le n) (by rw [Nat.zero_add]; exact inside)
  · rw [mem, writeVoids_outside]
    · exact congrArg (Memory.read · a) (takeUp_mem s t .change)
    · rw [Nat.zero_add, Nat.mul_zero, Nat.add_zero]
      exact outside
  · exact voidTable_get _ inside

/-! ### REBUILD IMAGE as it is taken up -/

/-- REBUILD IMAGE judged. -/
def rebuildJudged (t : Strip) (r : Request) (u : State) : State :=
  match refuseRebuild r u.change with
  | some o => completeRequest t (.plain o) u
  | none => want summaryRec (startRebuild t r u)

theorem exec_rebuildImage {s : State} {t : Strip} (take : s.canTake t .change Kind.rebuildImage) :
    exec (.rebuildImage t) s = .next (settle s (boundaries (rebuildJudged t (s.request t) (takeUp t .change s)))) := by
  obtain ⟨high, may, -, -⟩ := take
  have step : exec (.rebuildImage t) s = execRebuildImage t s := rfl
  rw [step, execRebuildImage, scheduled_next high]
  simp only [may, if_true, rebuildJudged] <;> rfl

theorem rebuild_refused {s : State} {t : Strip} {o : Byte} (take : s.canTake t .change Kind.rebuildImage)
    (refuse : refuseRebuild (s.request t) (takeUp t .change s).change = some o) :
    ∃ t', exec (.rebuildImage t) s = .next t' ∧ Answers t (.plain o) (takeUp t .change s) t' := by
  have run := exec_rebuildImage take
  have judged : rebuildJudged t (s.request t) (takeUp t .change s) = completeRequest t (.plain o) (takeUp t .change s) := by
    unfold rebuildJudged
    rw [refuse]
  rw [judged] at run
  exact ⟨_, run, taken_refused take⟩

theorem rebuild_accepted {s : State} {t : Strip} (take : s.canTake t .change Kind.rebuildImage)
    (accept : refuseRebuild (s.request t) (takeUp t .change s).change = none) :
    ∃ t', exec (.rebuildImage t) s = .next t' ∧
      Settled (want summaryRec (startRebuild t (s.request t) (takeUp t .change s))) t' := by
  have run := exec_rebuildImage take
  have judged : rebuildJudged t (s.request t) (takeUp t .change s) =
      want summaryRec (startRebuild t (s.request t) (takeUp t .change s)) := by
    unfold rebuildJudged
    rw [accept]
  rw [judged] at run
  exact ⟨_, run, settled_boundaries s _⟩

/-- Settles O25: the refusals in the order of `refuseRebuild`. -/
theorem rebuildImageTakenUp : Obligations.RebuildImageTakenUp := by
  intro s t take r pages identity u badParam wrong
  obtain ⟨x, p, taken, -⟩ := takeUp_eq t .change s
  have refuse : refuseRebuild r u.change =
      if r.badPageCount ∨ identity = 0 then some Outcome.badParam
      else if s.change.pages = 0 ∨ identity = s.change.identity then some Outcome.wrongState
      else none := by
    simp only [u, taken]
    rfl
  have bad : (r.badPageCount = true ∨ identity = 0) ↔ badParam := by rw [badPageCount_iff, or_assoc]
  by_cases isBad : badParam
  · rw [if_pos (bad.2 isBad)] at refuse
    obtain ⟨t', run, answers⟩ := rebuild_refused take refuse
    exact ⟨t', run, fun _ => answers, fun good => absurd isBad good, fun good => absurd isBad good⟩
  rw [if_neg (mt bad.1 isBad)] at refuse
  by_cases isWrong : wrong
  · rw [if_pos isWrong] at refuse
    obtain ⟨t', run, answers⟩ := rebuild_refused take refuse
    exact ⟨t', run, fun is => absurd is isBad, fun _ _ => answers, fun _ right => absurd isWrong right⟩
  rw [if_neg isWrong] at refuse
  obtain ⟨t', run, settled⟩ := rebuild_accepted take refuse
  refine ⟨t', run, fun is => absurd is isBad, fun _ is => absurd is isWrong, fun _ _ => ?_⟩
  have gen : u.change.gen = s.change.gen := by simp only [u, taken]
  rw [← gen]
  exact settled

/-! ### A new image goes live (R19, R20, R46) -/

/-- The slot as a new image goes live: no repair, its H lowered, its flags worked out anew, and judged. -/
def Slot.switched (c : ChangeEngine) (e : EditionMgr) (v : Slot) : Slot :=
  (((({ v with repair := false } : Slot).lowered c.identity).gauged c e).judged c e)

theorem clearRepairs_slot (s : State) (k : Fin 24) : (clearRepairs s).slot k = { s.slot k with repair := false } :=
  forSlots_own (get := State.slot) (g := fun _ (v : Slot) => { v with repair := false })
    (fun n s k => by rw [clearRepair, dropSweep_slot, State.modSlot_slot]) s k

theorem clearRepair_sweep (s : State) (n k : Fin 24) : (clearRepair n s).sweep k = if n = k then .cold else s.sweep k := by
  rw [clearRepair, dropSweep, State.setSweep_sweep]
  rfl

theorem clearRepairs_sweep (s : State) (k : Fin 24) : (clearRepairs s).sweep k = .cold :=
  forSlots_own (get := State.sweep) (g := fun _ _ => Sweep.cold) (fun n s k => clearRepair_sweep s n k) s k

theorem lowerH_keeps (s : State) : (lowerH s).change = s.change ∧ (lowerH s).editions = s.editions ∧
    (lowerH s).sched = s.sched ∧ (lowerH s).sweeps = s.sweeps ∧ (lowerH s).report = s.report := by
  unfold lowerH
  have keeps := forSlots_keeps (fun s => (s.change, s.editions, s.sched, s.sweeps, s.report)) (fun n s =>
    let v := s.slot n
    if v.heldId = s.change.identity ∧ 1 < v.heldH then s.modSlot n fun v => { v with heldH := 0 } else s)
    (fun n s => by dsimp only; split <;> rfl) allSlots s
  simpa only [Prod.mk.injEq] using keeps

theorem clearRepairs_keeps (s : State) : (clearRepairs s).change = s.change ∧ (clearRepairs s).editions = s.editions ∧
    (clearRepairs s).sched = s.sched ∧ (clearRepairs s).report = s.report := by
  unfold clearRepairs
  have keeps := forSlots_keeps (fun s => (s.change, s.editions, s.sched, s.report)) clearRepair (fun _ _ => rfl) allSlots s
  simpa only [Prod.mk.injEq] using keeps

/-- The state in which no blocklist delivery and no routine group is left. -/
def blocklistOver (s : State) : State := endGroups .routine (abandonWhere (fun d => d.mode.isBlocklist) s)

theorem blocklistOver_bare (s : State) : (blocklistOver s).bare = s.bare :=
  (endGroups_bare _ .routine).trans (abandonWhere_bare s _)

theorem change_of_bare {s u : State} (same : u.bare = s.bare) : u.change = s.change := by
  have change := congrArg State.change same
  exact change

theorem switchEffects_eq (s : State) : switchEffects s =
    reevaluateAll (forSlots refreshIncapable allSlots (lowerH (clearRepairs (blocklistOver s)))) := rfl

theorem switchEffects_slot (s : State) (k : Fin 24) :
    (switchEffects s).slot k = (s.slot k).switched s.change s.editions := by
  have bare := blocklistOver_bare s
  rw [switchEffects_eq, reevaluateAll_slot, refreshAll_slot]
  obtain ⟨change, editions, -, -⟩ := refreshAll_keeps (lowerH (clearRepairs (blocklistOver s)))
  rw [change, editions, lowerH_slot, (lowerH_keeps _).1, (lowerH_keeps _).2.1, (clearRepairs_keeps _).1,
    (clearRepairs_keeps _).2.1, clearRepairs_slot, slot_of_bare bare, change_of_bare bare, editions_of_bare bare]
  rfl

theorem switchEffects_sched (s : State) : (switchEffects s).sched = (blocklistOver s).sched := by
  rw [switchEffects_eq]
  obtain ⟨-, -, sched, -⟩ := refreshAll_keeps (lowerH (clearRepairs (blocklistOver s)))
  obtain ⟨-, -, sched', -⟩ := reevaluateAll_keeps (forSlots refreshIncapable allSlots (lowerH (clearRepairs (blocklistOver s))))
  rw [sched', sched, (lowerH_keeps _).2.2.1, (clearRepairs_keeps _).2.2.1]

theorem switchEffects_sweep (s : State) (k : Fin 24) : (switchEffects s).sweep k = .cold := by
  rw [switchEffects_eq]
  obtain ⟨-, -, -, sweeps⟩ := refreshAll_keeps (lowerH (clearRepairs (blocklistOver s)))
  obtain ⟨-, -, -, sweeps'⟩ := reevaluateAll_keeps (forSlots refreshIncapable allSlots (lowerH (clearRepairs (blocklistOver s))))
  rw [State.sweep, sweeps', sweeps, (lowerH_keeps _).2.2.2.1]
  exact clearRepairs_sweep _ k

theorem switchEffects_report (s : State) : (switchEffects s).report = s.report := by
  rw [switchEffects_eq, reevaluateAll_report, forSlots_keeps State.report refreshIncapable (fun _ _ => rfl),
    (lowerH_keeps _).2.2.2.2, (clearRepairs_keeps _).2.2.2, blocklistOver, endGroups_report, abandonWhere_report]

theorem switchEffects_delivery (s : State) (k : Fin 24) (d : Delivery) (has : (switchEffects s).delivery k = some d) :
    d.mode.isBlocklist = false := by
  rw [State.delivery, switchEffects_sched] at has
  have before : (abandonWhere (fun d => d.mode.isBlocklist) s).delivery k = some d := by
    rw [← has]
    exact (of_books (endGroups_books .routine _) k).1.symm
  rw [abandonWhere_delivery] at before
  obtain ⟨-, other⟩ := Option.filter_eq_some_iff.1 before
  simpa using other

theorem switchEffects_editions (s : State) : (switchEffects s).editions = s.editions := by
  rw [switchEffects_eq, (reevaluateAll_keeps _).2.1, (refreshAll_keeps _).2.1, (lowerH_keeps _).2.1, (clearRepairs_keeps _).2.1,
    editions_of_bare (blocklistOver_bare s)]

section
variable {c : ChangeEngine} {e : EditionMgr} (v : Slot)

theorem judged_fields : (v.judged c e).repair = v.repair ∧ (v.judged c e).heldId = v.heldId ∧
    (v.judged c e).heldH = v.heldH ∧ (v.judged c e).cap = v.cap ∧ (v.judged c e).blIncapable = v.blIncapable ∧
    (v.judged c e).edIncapable = v.edIncapable := by
  unfold Slot.judged
  split <;> exact ⟨rfl, rfl, rfl, rfl, rfl, rfl⟩

theorem gauged_fields : (v.gauged c e).repair = v.repair ∧ (v.gauged c e).heldId = v.heldId ∧
    (v.gauged c e).heldH = v.heldH ∧ (v.gauged c e).cap = v.cap ∧ (v.gauged c e).state = v.state := by
  unfold Slot.gauged
  split <;> exact ⟨rfl, rfl, rfl, rfl, rfl⟩

theorem lowered_fields (i : Word) : (v.lowered i).repair = v.repair ∧ (v.lowered i).heldId = v.heldId ∧
    (v.lowered i).heldH = (if v.heldId = i ∧ 1 < v.heldH then 0 else v.heldH) ∧ (v.lowered i).state = v.state := by
  unfold Slot.lowered
  split <;> exact ⟨rfl, rfl, rfl, rfl⟩

theorem judged_other (resting : v.state ≠ .behind ∧ v.state ≠ .current) : v.judged c e = v :=
  if_neg fun active => active.elim resting.1 resting.2

theorem judged_behind (active : v.state = .behind ∨ v.state = .current) (other : v.upToDate c e = false) :
    (v.judged c e).state = .behind := by
  unfold Slot.judged
  rw [if_pos active, other]
  rfl

end

theorem largerTotal_lt {e : EditionMgr} {k : Nat} : k < 2 * e.largerTotal ↔
    (e.active.present = true ∧ k < 2 * e.active.total) ∨ (e.pending.state = .pending ∧ k < 2 * e.pending.total) := by
  unfold EditionMgr.largerTotal
  rw [← Nat.mul_max_mul_left, lt_max_iff]
  refine or_congr ?_ ?_
  · split
    · next is => simp only [is, true_and]
    · next no => exact ⟨fun below => absurd below (Nat.not_lt_zero k), fun both => absurd both.1 no⟩
  · split
    · next is => simp only [is, true_and]
    · next no => exact ⟨fun below => absurd below (Nat.not_lt_zero k), fun both => absurd both.1 no⟩

theorem gauged_none {c : ChangeEngine} {e : EditionMgr} {v : Slot} (none : v.cap = none) :
    v.gauged c e = { v with blIncapable := false, edIncapable := false } := by
  unfold Slot.gauged
  rw [none]

theorem gauged_some {c : ChangeEngine} {e : EditionMgr} {v : Slot} {cap : Capability} (has : v.cap = some cap) :
    v.gauged c e =
      { v with blIncapable := decide (c.pages ≠ 0 ∧ cap.blocklist < c.pages)
               edIncapable := decide (cap.edition < 2 * e.largerTotal) } := by
  unfold Slot.gauged
  rw [has]

theorem gauged_flags (s : State) (v : Slot) : s.flagsOf (v.gauged s.change s.editions) := by
  obtain ⟨-, -, -, same, -⟩ := gauged_fields (c := s.change) (e := s.editions) v
  unfold State.flagsOf
  rw [same]
  refine ⟨fun none => ?_, fun cap has => ?_⟩
  · rw [gauged_none none]
    exact ⟨rfl, rfl⟩
  · rw [gauged_some has]
    exact ⟨decide_eq_true_iff, decide_eq_true_iff.trans largerTotal_lt⟩

theorem flagsOf_judged {s : State} {v : Slot} {c : ChangeEngine} {e : EditionMgr} (flags : s.flagsOf v) :
    s.flagsOf (v.judged c e) := by
  obtain ⟨-, -, -, cap, bl, ed⟩ := judged_fields (c := c) (e := e) v
  unfold State.flagsOf at flags ⊢
  rwa [cap, bl, ed]

/-- The routine groups of a boundary only form. -/
theorem bounds_forming : Bounds fun v => ∀ g ∈ v.sched.groups, g.cls = .routine →
    g.target = none ∧ g.planned = false ∧ g.toOpen = g.members := by
  have leave : LeaveKeeps fun gs => ∀ g ∈ gs, g.cls = .routine →
      g.target = none ∧ g.planned = false ∧ g.toOpen = g.members := by
    intro s n kept g member routine
    obtain ⟨h, here, inhabited, same⟩ := mem_leaveGroup member
    have cls : h.cls = .routine := by
      rcases same with ⟨rfl, -⟩ | ⟨-, -, plan, rfl⟩ <;> exact routine
    obtain ⟨target, planned, opens⟩ := kept h here cls
    have together : (h.without n).toOpen = (h.without n).members := congrArg (List.filter fun m => decide (m ≠ n)) opens
    rcases same with ⟨rfl, -⟩ | ⟨-, none, -⟩
    · exact ⟨target, planned, together⟩
    · exact absurd (together.symm.trans none) inhabited
  exact {
    turn := fun _ _ _ _ kept => kept
    hand := fun _ _ _ _ _ kept => kept
    leave := fun s n kept => leave s n kept
    abandons := fun s n _ _ _ _ kept => leave.abandon s n kept
    forms := fun s g target planned opens _ _ kept h member routine => by
      rcases List.mem_append.1 member with old | new
      · exact kept h old routine
      · cases List.mem_singleton.1 new
        exact ⟨target, planned, opens⟩ }

section
variable {c : ChangeEngine} {e : EditionMgr} (v : Slot)

/-- What the switch of the image has judged. -/
theorem switched_eq : ∃ w : Slot, v.switched c e = (w.gauged c e).judged c e ∧ w.repair = false ∧ w.heldId = v.heldId ∧
    w.heldH = (if v.heldId = c.identity ∧ 1 < v.heldH then 0 else v.heldH) ∧ w.state = v.state :=
  ⟨_, rfl, lowered_fields { v with repair := false } c.identity⟩

theorem switched_fields : (v.switched c e).repair = false ∧ (v.switched c e).heldId = v.heldId ∧
    (v.switched c e).heldH = if v.heldId = c.identity ∧ 1 < v.heldH then 0 else v.heldH := by
  obtain ⟨w, same, repair, heldId, heldH, -⟩ := switched_eq (c := c) (e := e) v
  obtain ⟨gRepair, gId, gH, -⟩ := gauged_fields (c := c) (e := e) w
  obtain ⟨jRepair, jId, jH, -⟩ := judged_fields (c := c) (e := e) (w.gauged c e)
  rw [same]
  exact ⟨jRepair.trans (gRepair.trans repair), jId.trans (gId.trans heldId), jH.trans (gH.trans heldH)⟩

theorem switched_behind (current : v.state = .current) (other : v.heldId ≠ c.identity) :
    (v.switched c e).state = .behind := by
  obtain ⟨w, same, -, heldId, -, state⟩ := switched_eq (c := c) (e := e) v
  obtain ⟨-, gId, -, -, gState⟩ := gauged_fields (c := c) (e := e) w
  rw [same]
  refine judged_behind _ (.inr (gState.trans (state.trans current))) ?_
  unfold Slot.upToDate
  rw [gId, heldId, decide_eq_false other]
  rfl

theorem switched_resting (noCurrent : v.state ≠ .current) (noBehind : v.state ≠ .behind) :
    (v.switched c e).state = v.state := by
  obtain ⟨w, same, -, -, -, state⟩ := switched_eq (c := c) (e := e) v
  obtain ⟨-, -, -, -, gState⟩ := gauged_fields (c := c) (e := e) w
  have kept : (w.gauged c e).state = v.state := gState.trans state
  rw [same, judged_other _ (by rw [kept]; exact ⟨noBehind, noCurrent⟩), kept]

end

/-- What the other blocks have done once a new image is live. -/
theorem switch_follows {s u v t : State} (later : Later v t) (slots : ∀ n, u.slot n = s.slot n)
    (roster : v.roster = (switchEffects u).roster) (sched : v.sched = (switchEffects u).sched)
    (sweeps : v.sweeps = (switchEffects u).sweeps) (change : t.change = u.change) (editions : t.editions = u.editions) :
    BlocksFollow s t := by
  have slot (n : Fin 24) : t.slot n = (s.slot n).switched t.change t.editions := by
    rw [later.slot, State.slot, roster, change, editions, ← slots]
    exact switchEffects_slot u n
  have fields (n : Fin 24) := switched_fields (c := t.change) (e := t.editions) (s.slot n)
  simp only [← slot] at fields
  refine ⟨fun n => ⟨(fields n).1, later.sweep_cold ?_⟩, fun n => (fields n).2.1, fun n => (fields n).2.2, fun n => ?_,
    fun n is other => ?_, fun n noCurrent noBehind => ?_, fun n d has => ?_, fun g member routine => ?_⟩
  · rw [State.sweep, sweeps]
    exact switchEffects_sweep u n
  · rw [slot]
    exact flagsOf_judged (gauged_flags t _)
  · rw [slot]
    exact switched_behind _ is other
  · rw [slot]
    exact switched_resting _ noCurrent noBehind
  · have before := later.delivery_some has
    rw [State.delivery, sched] at before
    exact switchEffects_delivery u n d before
  · have groups := later.sched (fun x _ => ∀ g ∈ x.groups, g.cls = .routine →
      g.target = none ∧ g.planned = false ∧ g.toOpen = g.members) bounds_forming fun h here is => by
        rw [sched, switchEffects_sched] at here
        exact absurd is (not_mem_endGroups h here)
    obtain ⟨target, planned, -⟩ := groups g member routine
    exact ⟨target, planned⟩

/-- With G at 1 no slot records an H above G for a new image. -/
theorem heldOk_of_follows {s t : State} (follows : BlocksFollow s t) (gen : t.change.gen = 1) : t.heldOk := by
  intro n live
  rw [follows.heldH, gen, ← follows.heldId]
  split
  · exact zero_le_word _
  · next low => exact BitVec.not_lt.1 fun above => low ⟨live, above⟩

/-! ### FORMAT_SWITCH -/

theorem exec_formatSwitch {s : State} {f : Format} (high : s.resetLow = false) (work : s.working = true)
    (format : s.change.format = some f) : exec .formatSwitch s = .next (settle s (boundaries
      (completeAfterSummary f.strip (.plain Outcome.ok) (switchEffects (switchTo f s))))) := by
  have step : exec .formatSwitch s = execFormatSwitch s := rfl
  rw [step, execFormatSwitch, scheduled_next high]
  simp only [format, work, if_true]

/-- Settles O24: the switch is `switchTo`, and what follows it `switch_follows`. -/
theorem formatSwitchGoesLive : Obligations.FormatSwitchGoesLive := by
  intro s f high work format
  have run := exec_formatSwitch high work format
  rw [want_of_summary] at run
  have effects := switchEffects_fixed (switchTo f s)
  obtain ⟨mem, -, -, -, -, change, -⟩ := of_fixed effects
  have editions := switchEffects_editions (switchTo f s)
  have report := switchEffects_report (switchTo f s)
  have follows {v t : State} := switch_follows (s := s) (u := switchTo f s) (v := v) (t := t)
  have settled := settled_boundaries s (awaitRecords [summaryRec] (.outcome f.strip (.plain Outcome.ok))
    (want summaryRec (switchEffects (switchTo f s))))
  have later := later_boundaries s (awaitRecords [summaryRec] (.outcome f.strip (.plain Outcome.ok))
    (want summaryRec (switchEffects (switchTo f s))))
  revert run settled later
  generalize settle s _ = t
  intro run settled later
  generalize switchEffects (switchTo f s) = v at *
  have change : t.change = (switchTo f s).change := settled.change.trans change
  have blocks : BlocksFollow s t := follows later (fun _ => rfl) rfl rfl rfl change (settled.editions.trans editions)
  refine ⟨t, run, change, heldOk_of_follows blocks (by rw [change]; rfl), settled.mem.trans mem, blocks, ?_, ?_⟩
  · refine settled.wanted summaryRec ?_
    rw [awaitRecords_wanted, want_wanted]
    rfl
  · rw [settled.waiting]
    exact List.mem_append_right _ (List.mem_singleton_self _)

end Sys2Proof.Machine

/-!
The fields of the records (R199 to R201): each record as a list of fields, and what a field shows at its offset.
-/
namespace Sys2Proof.Machine

/-! ### Fields one after another -/

theorem flatten_field : ∀ (i : Nat) {fs : List (List Byte)} {ls : List Nat} {o k : Nat} {f : List Byte},
    fs.map List.length = ls → (ls.take i).sum = o → ls[i]? = some k → fs[i]? = some f →
      (fs.flatten.drop o).take k = f
  | _, [], _, _, _, _, _, _, _, here => by cases here
  | 0, g :: fs, ls, o, k, f, lens, off, len, here => by
    subst lens
    cases off
    cases here
    cases len
    exact List.take_left
  | i + 1, g :: fs, ls, o, k, f, lens, off, len, here => by
    subst lens
    have rest := flatten_field i (fs := fs) (o := o - g.length) rfl
      (by simp only [List.map_cons, List.take_succ_cons, List.sum_cons] at off; omega) len here
    have past : g.length ≤ o := by
      simp only [List.map_cons, List.take_succ_cons, List.sum_cons] at off
      omega
    rw [List.flatten_cons, List.drop_append, List.drop_eq_nil_of_le past, List.nil_append]
    exact rest

/-! ### The summary record -/

/-- The fields of the summary record, in order. -/
def summaryParts (s : State) : List (List Byte) :=
  let c := s.change
  let e := s.editions
  [leBytes 1 s.engine.code, leBytes 1 (bitAt s.clock.isSet 0), leBytes 2 s.clock.day, leBytes 2 s.clock.minute,
    leBytes 2 s.clock.serviceDay, leBytes 2 s.clock.dayStart, leBytes 4 c.identity.toNat, leBytes 2 c.pages, leBytes 2 0,
    leBytes 4 c.seed.toNat, leBytes 4 c.gen.toNat, leBytes 4 c.liveEntries, leBytes 2 c.refused, leBytes 2 c.voidPages,
    leBytes 4 c.digest.toNat, leBytes 1 (rebuildCode c.rebuild),
    leBytes 1 (bitAt c.purgeSkipped 0 + bitAt s.roster.full 1 + bitAt e.pending.atRisk 2), leBytes 2 c.copyCursor,
    leBytes 2 e.active.number.toNat, leBytes 4 e.active.digest.toNat, leBytes 1 e.active.total,
    leBytes 1 e.pending.state.code, leBytes 2 e.pending.number.toNat, leBytes 4 e.pending.effective.toNat,
    leBytes 1 e.pending.total, leBytes 1 0, leBytes 1 (s.countIn .vacant), leBytes 1 (s.countIn .silent),
    leBytes 1 (s.countIn .identifying), leBytes 1 (s.countIn .behind), leBytes 1 (s.countIn .current),
    leBytes 1 (s.countIn .quarantined), leBytes 62 0]

/-- The lengths of the fields of the summary record. -/
def summaryLengths : List Nat :=
  [1, 1, 2, 2, 2, 2, 4, 2, 2, 4, 4, 4, 2, 2, 4, 1, 1, 2, 2, 4, 1, 1, 2, 4, 1, 1, 1, 1, 1, 1, 1, 1, 62]

theorem leBytes_zero (n : Nat) : leBytes n 0 = List.replicate n 0 := by
  induction n with
  | zero => rfl
  | succ n ih =>
    rw [leBytes, Nat.zero_div, ih]
    rfl

theorem summaryFields_eq (s : State) : recordFields s summaryRec = (summaryParts s).flatten := by
  rw [recordFields_zero]
  unfold summaryFields summaryParts
  simp only [List.flatten_cons, List.flatten_nil, List.append_nil, List.append_assoc, leBytes_zero 62]

theorem summaryParts_length (s : State) : (summaryParts s).map List.length = summaryLengths := by
  simp only [summaryParts, List.map_cons, List.map_nil, leBytes_length, summaryLengths]

theorem rebuildCode_map (r : Option Rebuild) : rebuildCode r = match r.map Rebuild.phase with
    | none => 0
    | some .clearing => 1
    | some .copying => 2
    | some .finishing => 3 := by
  cases r with
  | none => rfl
  | some r =>
    simp only [rebuildCode, Option.map_some]
    cases r.phase <;> rfl

/-- A field of the summary record at its offset. -/
theorem summary_field {s : State} {o k : Nat} {f : List Byte} (i : Nat) (off : (summaryLengths.take i).sum = o - 2)
    (len : summaryLengths[i]? = some k) (here : (summaryParts s)[i]? = some f) :
    ((recordFields s summaryRec).drop (o - 2)).take k = f := by
  rw [summaryFields_eq]
  exact flatten_field i (summaryParts_length s) off len here

/-! ### The record of a line -/

/-- The fields of a line record, in order. -/
def lineParts (s : State) (l : Fin 4) : List (List Byte) :=
  let p := s.port l
  let a := s.actingLine l
  let k := p.counters
  [leBytes 1 p.mode.code, leBytes 1 p.profile.val, leBytes 1 (s.port a).xstate.code, leBytes 1 (s.loopCode l),
    leBytes 1 (s.lineRoster a).position, leBytes 1 0, leBytes 2 k.sent, leBytes 2 k.received, leBytes 2 k.garbled,
    leBytes 2 k.timeouts, leBytes 2 k.stale, leBytes 4 (clashMask (s.lineRoster a).clash), leBytes 42 0]

/-- The lengths of the fields of a line record. -/
def lineLengths : List Nat := [1, 1, 1, 1, 1, 1, 2, 2, 2, 2, 2, 4, 42]

theorem recordFields_line (s : State) (l : Fin 4) : recordFields s (lineRec l) = lineFields s l := by
  have val : (lineRec l).val = 1 + l.val := rfl
  unfold recordFields
  rw [if_neg (by omega), dif_pos (by omega)]
  congr 1
  exact Fin.ext (by simp only [val]; omega)

theorem lineFields_eq (s : State) (l : Fin 4) : recordFields s (lineRec l) = (lineParts s l).flatten := by
  rw [recordFields_line]
  unfold lineFields lineParts
  simp only [List.flatten_cons, List.flatten_nil, List.append_nil, List.append_assoc, leBytes_zero 42]

theorem lineParts_length (s : State) (l : Fin 4) : (lineParts s l).map List.length = lineLengths := by
  simp only [lineParts, List.map_cons, List.map_nil, leBytes_length, lineLengths]

/-- A field of a line record at its offset. -/
theorem line_field {s : State} {l : Fin 4} {o k : Nat} {f : List Byte} (i : Nat)
    (off : (lineLengths.take i).sum = o - 2) (len : lineLengths[i]? = some k) (here : (lineParts s l)[i]? = some f) :
    ((recordFields s (lineRec l)).drop (o - 2)).take k = f := by
  rw [lineFields_eq]
  exact flatten_field i (lineParts_length s l) off len here

/-! ### The record of a roster slot -/

/-- Bytes that show a value the slot holds, and are free of one it does not hold. -/
def State.shown (s : State) (k : Fin 24) (off n : Nat) : Option Nat → List Byte
  | some v => leBytes n v
  | none => s.unstated k off n

/-- The fields of a roster record, in order. -/
def rosterParts (s : State) (n : Fin 24) : List (List Byte) :=
  let v := s.slot n
  let w := s.sweep n
  let k := v.counters
  [leBytes 1 v.state.code, leBytes 1 ((v.binding.map fun b => b.1.val).getD 255),
    leBytes 1 ((v.binding.map Prod.snd).getD 0), leBytes 1 (v.mode.code + bitAt v.frozen 2), leBytes 1 v.reason.code,
    leBytes 1 (bitAt v.reload 0 + bitAt v.repair 1 + bitAt v.unconfirmed 2 + bitAt v.replaced 3 +
      bitAt v.duplicate 4 + bitAt v.blIncapable 5 + bitAt v.edIncapable 6 + bitAt (v.reach = .secondary) 7),
    leBytes 8 v.serial.toNat, leBytes 8 v.serialSeen.toNat, s.shown n 24 2 (v.cap.map fun c => c.model.toNat),
    s.shown n 26 2 (v.cap.map (·.blocklist)), s.shown n 28 1 (v.cap.map (·.edition)),
    leBytes 1 ((v.cap.map (·.level)).getD 0), leBytes 1 v.served.val, s.shown n 31 1 (v.cap.map fun c => c.rate.val),
    leBytes 4 v.heldId.toNat, leBytes 4 v.heldH.toNat, leBytes 2 v.heldActive.number.toNat,
    leBytes 4 v.heldActive.digest.toNat, leBytes 2 ((v.heldPending.map fun p => p.edition.number.toNat).getD 0),
    s.shown n 48 4 (v.heldPending.map fun p => p.edition.digest.toNat),
    s.shown n 52 1 (v.heldPending.map fun p => bitAt p.complete 0), leBytes 1 v.misses, leBytes 1 v.failures,
    leBytes 1 v.garbleRun, s.shown n 56 8 (v.heldPending.map fun p => p.mask.toNat),
    leBytes 2 (units (v.backoff.getD 0)), leBytes 2 ((v.keepalive.map units).getD 0xFFFF),
    leBytes 2 (units (v.window.getD 0)), leBytes 2 w.cursor, leBytes 2 w.list.length, leBytes 2 k.misses,
    leBytes 2 k.garbled, leBytes 2 k.stale, leBytes 2 k.busy, leBytes 2 k.refusals, leBytes 2 k.tallyFailures,
    leBytes 2 k.mismatches, leBytes 2 k.pagesSent, leBytes 38 0]

/-- The lengths of the fields of a roster record. -/
def rosterLengths : List Nat :=
  [1, 1, 1, 1, 1, 1, 8, 8, 2, 2, 1, 1, 1, 1, 4, 4, 2, 4, 2, 4, 1, 1, 1, 1, 8, 2, 2, 2, 2, 2, 2, 2, 2, 2, 2, 2, 2, 2, 38]

theorem recordFields_roster (s : State) (n : Fin 24) : recordFields s (rosterRec n) = rosterFields s n := by
  have val : (rosterRec n).val = 5 + n.val := rfl
  unfold recordFields
  rw [if_neg (by omega), dif_neg (by omega)]
  congr 1
  exact Fin.ext (by simp only [val]; omega)

theorem unstated_append (s : State) (k : Fin 24) (off m n : Nat) :
    s.unstated k off (m + n) = s.unstated k off m ++ s.unstated k (off + m) n := by
  unfold State.unstated
  rw [List.range_add, List.map_append, List.map_map]
  congr 1
  exact List.map_congr_left fun i _ => by simp only [Function.comp, Nat.add_assoc]

theorem unstated_length (s : State) (k : Fin 24) (off n : Nat) : (s.unstated k off n).length = n := by
  rw [State.unstated, List.length_map, List.length_range]

theorem shown_length (s : State) (k : Fin 24) (off n : Nat) (v : Option Nat) : (s.shown k off n v).length = n := by
  cases v with
  | none => exact unstated_length s k off n
  | some v => exact leBytes_length n v

theorem unstated_cap (s : State) (n : Fin 24) :
    s.unstated n 24 5 = s.unstated n 24 2 ++ (s.unstated n 26 2 ++ s.unstated n 28 1) := by
  rw [← unstated_append, ← unstated_append]

theorem unstated_pending (s : State) (n : Fin 24) :
    s.unstated n 48 5 = s.unstated n 48 4 ++ s.unstated n 52 1 := by
  rw [← unstated_append]

/-- The groups of fields that depend on what the slot holds are the only ones to look at. -/
theorem rosterFields_eq (s : State) (n : Fin 24) : recordFields s (rosterRec n) = (rosterParts s n).flatten := by
  have unbound : leBytes 1 255 = [0xFF] := rfl
  have noLevel : leBytes 1 0 = [0] := rfl
  have noNumber : leBytes 2 0 = [0, 0] := rfl
  rw [recordFields_roster]
  unfold rosterFields rosterParts
  dsimp only
  rcases (s.slot n).binding with _ | ⟨l, d⟩ <;> rcases (s.slot n).cap with _ | c <;>
    rcases (s.slot n).heldPending with _ | p <;> rcases (s.slot n).keepalive with _ | t <;>
    simp only [List.flatten_cons, List.flatten_nil, List.append_nil, List.append_assoc, leBytes_zero 38, State.shown,
      Option.map_some, Option.map_none, Option.getD_some, Option.getD_none, unstated_cap, unstated_pending, unbound,
      noLevel, noNumber, List.cons_append, List.nil_append]

theorem rosterParts_length (s : State) (n : Fin 24) : (rosterParts s n).map List.length = rosterLengths := by
  simp only [rosterParts, List.map_cons, List.map_nil, leBytes_length, shown_length, rosterLengths]

/-- A field of a roster record at its offset. -/
theorem roster_field {s : State} {n : Fin 24} {o k : Nat} {f : List Byte} (i : Nat)
    (off : (rosterLengths.take i).sum = o - 2) (len : rosterLengths[i]? = some k)
    (here : (rosterParts s n)[i]? = some f) : ((recordFields s (rosterRec n)).drop (o - 2)).take k = f := by
  rw [rosterFields_eq]
  exact flatten_field i (rosterParts_length s n) off len here

/-! ### The clash mask -/

theorem bits_sum (f : Nat → Bool) (n : Nat) : ((List.range n).map fun i => bitAt (f i) i).sum < 2 ^ n ∧
    ∀ i, i < n → (((List.range n).map fun i => bitAt (f i) i).sum.testBit i = true ↔ f i = true) := by
  induction n with
  | zero => exact ⟨Nat.one_pos, fun i below => absurd below (by omega)⟩
  | succ n ih =>
    obtain ⟨small, bits⟩ := ih
    simp only [List.range_succ, List.map_append, List.map_cons, List.map_nil, List.sum_append, List.sum_cons,
      List.sum_nil, Nat.add_zero]
    generalize ((List.range n).map fun i => bitAt (f i) i).sum = m at small bits
    have high : m.testBit n = false := Nat.testBit_lt_two_pow small
    cases top : f n with
    | false =>
      simp only [bitAt, Bool.false_eq_true, if_false, Nat.add_zero]
      refine ⟨lt_trans small (Nat.pow_lt_pow_right (by omega) (by omega)), fun i below => ?_⟩
      rcases Nat.lt_succ_iff_lt_or_eq.mp below with less | rfl
      · exact bits i less
      · rw [high, top]
    | true =>
      simp only [bitAt, if_true]
      refine ⟨by rw [Nat.pow_succ]; omega, fun i below => ?_⟩
      rw [Nat.add_comm]
      rcases Nat.lt_succ_iff_lt_or_eq.mp below with less | rfl
      · rw [Nat.testBit_two_pow_add_gt less]
        exact bits i less
      · rw [Nat.testBit_two_pow_add_eq, high, top]
        exact Iff.rfl

theorem clashMask_bits (addrs : List Nat) : clashMask addrs < 2 ^ 30 ∧
    ∀ i, i < 30 → ((clashMask addrs).testBit i = true ↔ i + 1 ∈ addrs) := by
  obtain ⟨small, bits⟩ := bits_sum (fun i => addrs.contains (i + 1)) 30
  exact ⟨small, fun i below => (bits i below).trans (by simp only [List.contains_iff_mem])⟩

/-! ### The records in the report block -/

/-- The three kinds of record. -/
theorem record_kind (r : Fin 29) : r = summaryRec ∨ (∃ l, r = lineRec l) ∨ ∃ n, r = rosterRec n := by
  by_cases zero : r.val = 0
  · exact .inl (Fin.ext zero)
  · by_cases line : r.val < 5
    · exact .inr (.inl ⟨⟨r.val - 1, by omega⟩, Fin.ext (by simp only [lineRec]; omega)⟩)
    · exact .inr (.inr ⟨⟨r.val - 5, by omega⟩, Fin.ext (by simp only [rosterRec]; omega)⟩)

theorem record_length (s : State) (r : Fin 29) :
    2 + (recordFields s r).length = if 1 ≤ r.val ∧ r.val ≤ 4 then 64 else 128 := by
  rcases record_kind r with rfl | ⟨l, rfl⟩ | ⟨n, rfl⟩
  · rw [summaryFields_eq, List.length_flatten, summaryParts_length]
    rfl
  · have val : (lineRec l).val = 1 + l.val := rfl
    rw [lineFields_eq, List.length_flatten, lineParts_length, if_pos (by omega)]
    rfl
  · have val : (rosterRec n).val = 5 + n.val := rfl
    rw [rosterFields_eq, List.length_flatten, rosterParts_length, if_neg (by omega)]
    rfl

/-- No two records overlap, and none passes the end of the report block. -/
theorem records_apart (s : State) {r q : Fin 29} (less : r < q) :
    recordOffset r + 2 + (recordFields s r).length ≤ recordOffset q ∧
    recordOffset q + 2 + (recordFields s q).length ≤ 3456 := by
  have lenR := record_length s r
  have lenQ := record_length s q
  have below : r.val < q.val := less
  unfold recordOffset
  constructor <;> split_ifs at * <;> omega

end Sys2Proof.Machine

/-!
What a rewrite lets go (R192, R200, R201): the notices and outcomes that waited for the record, and the step of a rewrite.
-/
namespace Sys2Proof.Machine

/-! ### What the ports show -/

section
variable {s u : State} (cores : ∀ l, (u.port l).core = (s.port l).core)
include cores

theorem fields_of_cores (l : Fin 4) : (u.port l).mode = (s.port l).mode ∧ (u.port l).profile = (s.port l).profile ∧
    (u.port l).broken = (s.port l).broken ∧ (u.port l).xstate = (s.port l).xstate ∧
    (u.port l).counters = (s.port l).counters := by
  have e : ∀ {γ : Type} (g : Port → γ), g (u.port l).core = g (s.port l).core := fun g => congrArg g (cores l)
  exact ⟨e Port.mode, e Port.profile, e Port.broken, e Port.xstate, e Port.counters⟩

theorem actingLine_of_cores (l : Fin 4) : u.actingLine l = s.actingLine l := by
  unfold State.actingLine State.paired
  rw [(fields_of_cores cores _).1, (fields_of_cores cores _).1]

theorem lineNow_of_cores (roster : u.roster = s.roster) (l : Fin 4) : u.lineNow l = s.lineNow l := by
  obtain ⟨mode, profile, -⟩ := fields_of_cores cores l
  obtain ⟨-, -, broken, -⟩ := fields_of_cores cores (s.actingLine l)
  simp only [State.lineNow, actingLine_of_cores cores, mode, profile, broken, State.lineRoster, roster]

/-- A step that changes no slot, no sweep record and of the ports only what no record shows makes no record due. -/
theorem settle_report (roster : u.roster = s.roster) (sweeps : u.sweeps = s.sweeps) : (settle s u).report = u.report := by
  have slot (n : Fin 24) : u.slot n = s.slot n := by simp only [State.slot, roster]
  have sweep (n : Fin 24) : u.sweep n = s.sweep n := by simp only [State.sweep, sweeps]
  have counts : countsChanged s u = false := by simp [countsChanged, slot, roster]
  have none (n : Fin 24) : rosterChanged s u n = false := by simp [rosterChanged, slot, sweep]
  have wanted : (settle s u).report.wanted = u.report.wanted := by
    refine Vector.ext fun i below => ?_
    simp [settle, counts, none, lineNow_of_cores cores roster]
  change { u.report with wanted := (settle s u).report.wanted } = u.report
  rw [wanted]
end

/-! ### Giving what waited -/

theorem editionTests_report_cases (s : State) : (editionTests s).regs = s.regs ∧
    (editionTests s).report.counts = s.report.counts := by
  cases work : s.working with
  | false => simp [editionTests, work]
  | true =>
    obtain ⟨a, p, w, frame⟩ := editionTests_frame work
    obtain ⟨regs, -, -, -, -, -, -, -, -, -, -⟩ := of_frame frame
    refine ⟨regs, ?_⟩
    rcases editionTests_cases work with ⟨-, acts⟩ | ⟨-, acts⟩ | ⟨-, -, acts⟩ <;> rw [acts]
    · exact (activate_awaits work).counts
    · exact (warned_awaits s).counts

theorem deferredTests_keeps (t : Strip) (s : State) : (deferredTests t s).1.regs = s.regs ∧
    (deferredTests t s).1.report.counts = s.report.counts := by
  rcases deferredTests_cases t s with ⟨-, -, tests⟩ | ⟨-, tests⟩ <;> rw [tests]
  · exact editionTests_report_cases (setTestsDue false s)
  · exact ⟨rfl, rfl⟩

theorem completeRequest_event (t : Strip) (r : Result) {s : State} {i : Nat} (on : s.regs.events.getLsbD i = true) :
    (completeRequest t r s).regs.events.getLsbD i = true := by
  unfold completeRequest
  split
  · split
    · exact on
    · refine (visitN_events t 257 _ i).2 ?_
      rw [finish_events]
      split
      · exact raise_bit_mono .done s i on
      · exact on
  · exact on

theorem give_counts (s : State) (w : Waiting) : (give s w).report.counts = s.report.counts := by
  unfold give
  split
  · unfold raise
    split <;> rfl
  · next t r _ =>
    obtain ⟨-, counts⟩ := deferredTests_keeps t s
    obtain ⟨-, same⟩ | ⟨-, same⟩ := handOutcome_cases t r s <;> rw [same]
    · exact counts
    · obtain ⟨-, -, -, -, -, -, -, -, -, -, -, report, -⟩ := offStrip_eq (completeRequest_offStrip t r (deferredTests t s).1)
      rw [report, counts]

/-- A notice once raised stays so. -/
theorem give_event {s : State} {i : Nat} (on : s.regs.events.getLsbD i = true) (w : Waiting) :
    (give s w).regs.events.getLsbD i = true := by
  unfold give
  split
  · exact raise_bit_mono _ s i on
  · next t r _ =>
    obtain ⟨regs, -⟩ := deferredTests_keeps t s
    have on : (deferredTests t s).1.regs.events.getLsbD i = true := by rw [regs]; exact on
    obtain ⟨-, same⟩ | ⟨-, same⟩ := handOutcome_cases t r s <;> rw [same]
    · exact on
    · exact completeRequest_event t r on

/-- What giving a notice or an outcome leaves alone where no tests are put off to it. -/
def State.aside (s : State) : Report × EditionMgr × Roster × Vector Port 4 × Vector Sweep 24 :=
  (s.report, s.editions, s.roster, s.ports, s.sweeps)

theorem give_aside {s : State} {w : Waiting} (quiet : s.editions.testsDue = false ∨ ∃ n, w.act = .notice n) :
    (give s w).aside = s.aside := by
  unfold give
  split
  · unfold raise
    split <;> rfl
  · next t r outcome =>
    have none : s.editions.testsDue = false := quiet.resolve_right (by rw [outcome]; nofun)
    have tests : deferredTests t s = (s, false) := by
      rcases deferredTests_cases t s with ⟨put, -⟩ | ⟨-, same⟩
      · rw [none] at put
        cases put
      · exact same
    rw [handOutcome, tests]
    obtain ⟨-, -, -, -, -, -, -, -, ports, -, sweeps, report, -, editions, -, roster, -⟩ :=
      offStrip_eq (completeRequest_offStrip t r s)
    simp only [Bool.false_eq_true, if_false, State.aside, ports, sweeps, report, editions, roster]

theorem foldl_give_aside : ∀ (ws : List Waiting) {s : State},
    (s.editions.testsDue = false ∨ ∀ w ∈ ws, ∃ n, w.act = .notice n) → (ws.foldl give s).aside = s.aside
  | [], _, _ => rfl
  | w :: ws, s, quiet => by
    have first := give_aside (s := s) (w := w) (quiet.imp_right fun all => all w (List.mem_cons_self ..))
    have editions : (give s w).editions = s.editions := congrArg (fun a => a.2.1) first
    have rest := foldl_give_aside ws (s := give s w)
      (quiet.imp (fun none => by rw [editions]; exact none) fun all v mem => all v (List.mem_cons_of_mem _ mem))
    exact rest.trans first

theorem foldl_give_event : ∀ (ws : List Waiting) {s : State} {i : Nat}, s.regs.events.getLsbD i = true →
    (ws.foldl give s).regs.events.getLsbD i = true
  | [], _, _, on => on
  | w :: ws, _, _, on => foldl_give_event ws (give_event on w)

/-- A notice among what is given is raised. -/
theorem foldl_give_notice : ∀ (ws : List Waiting) {s : State} {w : Waiting} {n : Notice}, s.isFaulted = false → w ∈ ws →
    w.act = .notice n → (ws.foldl give s).regs.events.getLsbD n.bit = true
  | [], _, _, _, _, mem, _ => absurd mem List.not_mem_nil
  | v :: ws, s, w, n, healthy, mem, act => by
    rcases List.mem_cons.mp mem with rfl | later
    · refine foldl_give_event ws ?_
      unfold give
      rw [act]
      simp only [raise_bit n s n.bit healthy, decide_true, Bool.or_true]
    · exact foldl_give_notice ws ((isFaulted_of_spine (give_spine s v)).trans healthy) later act

/-! ### What a record lets go -/

/-- Nothing but record `r` is still needed. -/
def Waiting.alone (w : Waiting) (r : Fin 29) : Prop := ∀ q ∈ w.needs, q = r

theorem needs_without (w : Waiting) (r : Fin 29) :
    (w.needs.filter fun x => decide (x ≠ r)).isEmpty = true ↔ w.alone r := by
  simp only [List.isEmpty_iff, List.filter_eq_nil_iff, decide_eq_true_eq, not_not, Waiting.alone]

theorem mem_released {r : Fin 29} {s : State} {v : Waiting} : v ∈ (released r s).1 ↔
    ∃ w ∈ s.report.waiting, w.alone r ∧ v = { w with needs := w.needs.filter fun x => decide (x ≠ r) } := by
  simp only [released, List.mem_filter, List.mem_map]
  constructor
  · rintro ⟨⟨w, mem, rfl⟩, free⟩
    exact ⟨w, mem, (needs_without w r).1 free, rfl⟩
  · rintro ⟨w, mem, alone, rfl⟩
    exact ⟨⟨w, mem, rfl⟩, (needs_without w r).2 alone⟩

theorem released_none {r : Fin 29} {s : State} (none : ∀ w ∈ s.report.waiting, ¬ w.alone r) :
    (released r s).1 = [] ∧ (released r s).2.length = s.report.waiting.length := by
  have bound (v : Waiting) (mem : v ∈ s.report.waiting.map fun w => { w with needs := w.needs.filter fun x => decide (x ≠ r) }) :
      v.needs.isEmpty = false := by
    obtain ⟨w, own, rfl⟩ := List.mem_map.mp mem
    exact Bool.eq_false_iff.mpr fun free => none w own ((needs_without w r).1 free)
  constructor
  · exact List.filter_eq_nil_iff.mpr fun v mem => by rw [bound v mem]; exact Bool.false_ne_true
  · unfold released
    dsimp only
    rw [List.filter_eq_self.mpr fun v mem => by rw [bound v mem, Bool.not_false], List.length_map]

theorem rewritten_fields (s : State) (r : Fin 29) : (s.rewritten r).regs = s.regs ∧ (s.rewritten r).engine = s.engine ∧
    (s.rewritten r).editions = s.editions ∧ (s.rewritten r).roster = s.roster ∧ (s.rewritten r).sweeps = s.sweeps ∧
    (s.rewritten r).report = countRewrite r s.report ∧ ∀ l, ((s.rewritten r).port l).core = (s.port l).core := by
  unfold State.rewritten stopRecordTimer
  split
  · refine ⟨rfl, rfl, rfl, rfl, rfl, rfl, fun l => ?_⟩
    rw [State.modPort_port]
    split
    · next same => subst same; rfl
    · rfl
  · exact ⟨rfl, rfl, rfl, rfl, rfl, rfl, fun _ => rfl⟩

/-! ### The step of a rewrite -/

/-- What is handed over after the bytes and the count of a rewrite. -/
def State.handing (s : State) (r : Fin 29) : State :=
  { s.rewritten r with report := { (s.rewritten r).report with waiting := (released r (s.rewritten r)).2 } }

theorem rewriteRecord_gives {s : State} (wf : Memory.wf s.mem = true) (r : Fin 29) :
    rewriteRecord r s = (released r (s.rewritten r)).1.foldl give (s.handing r) := by
  rw [rewriteRecord_eq wf]
  rfl

theorem rewriteRecord_counts {s : State} (wf : Memory.wf s.mem = true) (r q : Fin 29) :
    (rewriteRecord r s).report.counts[q] = if q = r then (s.report.counts[r] + 2) % 65536 else s.report.counts[q] := by
  obtain ⟨-, -, -, -, -, report, -⟩ := rewritten_fields s r
  have counts : (rewriteRecord r s).report.counts = (countRewrite r s.report).counts := by
    rw [rewriteRecord_gives wf, foldl_keeps (fun s => s.report.counts) give give_counts]
    change (s.rewritten r).report.counts = _
    rw [report]
  rw [counts]
  simp only [countRewrite, Fin.getElem_fin, Vector.getElem_set, Fin.val_inj, eq_comm (a := r)]

theorem rewriteRecord_aside {s : State} (wf : Memory.wf s.mem = true) {r : Fin 29}
    (quiet : s.editions.testsDue = false ∨ ∀ w ∈ s.report.waiting, w.alone r → ∃ n, w.act = .notice n) :
    (rewriteRecord r s).aside = (s.handing r).aside := by
  obtain ⟨-, -, editions, -, -, report, -⟩ := rewritten_fields s r
  rw [rewriteRecord_gives wf]
  refine foldl_give_aside _ (quiet.imp (fun none => ?_) fun all v mem => ?_)
  · change (s.rewritten r).editions.testsDue = false
    rw [editions, none]
  · obtain ⟨w, own, alone, rfl⟩ := mem_released.1 mem
    rw [report] at own
    exact all w own alone

/-- The step of a rewrite ends in the rewrite itself, looked at by the exchange boundary where tests were made. -/
theorem exec_reportRewrite_settled {s : State} {r : Fin 29} (high : s.resetLow = false)
    (due : s.report.wanted[r] = true) (may : s.working = true ∨ (s.engine = .starting ∧ s.startOrder r = true)) :
    ∃ t, exec (.reportRewrite r) s = .next t ∧ Settled (rewriteRecord r s) t ∧
      ((rewriteRecord r s).editions = s.editions → t = settle s (rewriteRecord r s)) := by
  refine ⟨_, exec_reportRewrite high due may, ?_, fun same => ?_⟩
  · split
    · exact settled_boundaries s _
    · exact settled_settle s _
  · rw [same, Bool.and_not_self]
    rfl

theorem startOrder_of {s : State} {r : Fin 29} (order : ∀ q, q < r → s.report.wanted[q] = false) :
    s.startOrder r = true := by
  refine List.all_eq_true.mpr fun q _ => ?_
  by_cases later : r ≤ q
  · simp only [later, decide_true, Bool.true_or]
  · simp only [order q (not_le.mp later), Bool.not_false, Bool.or_true]

/-- Where no tests are put off, a rewrite leaves its record written, and editions and roster as they are. -/
theorem rewrite_quiet {s : State} (wf : Memory.wf s.mem = true) {r : Fin 29}
    (quiet : s.editions.testsDue = false ∨ ∀ w ∈ s.report.waiting, w.alone r → ∃ n, w.act = .notice n) :
    (rewriteRecord r s).editions = s.editions ∧ (rewriteRecord r s).roster = s.roster ∧
    (settle s (rewriteRecord r s)).report.wanted[r] = false := by
  obtain ⟨-, -, editions, roster, sweeps, report, cores⟩ := rewritten_fields s r
  have aside := rewriteRecord_aside wf quiet
  simp only [State.aside, State.handing, Prod.mk.injEq] at aside
  obtain ⟨report', editions', roster', ports', sweeps'⟩ := aside
  refine ⟨editions'.trans editions, roster'.trans roster, ?_⟩
  rw [settle_report (fun l => ?_) (roster'.trans roster) (sweeps'.trans sweeps), report', report]
  · simp only [countRewrite, Fin.getElem_fin, Vector.getElem_set_self]
  · rw [← cores l]
    simp only [State.port, ports']

/-- Where nothing waits for the record alone, a rewrite only writes it. -/
theorem rewrite_silent {s : State} (wf : Memory.wf s.mem = true) {r : Fin 29}
    (none : ∀ w ∈ s.report.waiting, ¬ w.alone r) :
    (rewriteRecord r s).mem = (s.written r).mem ∧ (rewriteRecord r s).regs = s.regs ∧
    (rewriteRecord r s).report.waiting.length = s.report.waiting.length := by
  obtain ⟨regs, -, -, -, -, report, -⟩ := rewritten_fields s r
  have own : (s.rewritten r).report.waiting = s.report.waiting := by rw [report]; rfl
  obtain ⟨empty, rest⟩ := released_none (s := s.rewritten r) (r := r) (by rw [own]; exact none)
  rw [rewriteRecord_gives wf, empty]
  exact ⟨rewritten_mem s r, regs, by rw [← own, ← rest]; rfl⟩

theorem written_read {s : State} (wf : Memory.wf s.mem = true) (r : Fin 29) :
    Memory.readBytes (s.written r).mem (s.recordAddr r) 2 = s.newCount r ∧
    Memory.readBytes (s.written r).mem (s.recordAddr r + 2) (recordFields s r).length = recordFields s r ∧
    ∀ b, b < s.recordAddr r ∨ s.recordAddr r + 2 + (recordFields s r).length ≤ b →
      Memory.read (s.written r).mem b = Memory.read s.mem b := by
  have two : (s.newCount r).length = 2 := leBytes_length 2 _
  have whole := Memory.readBytes_writeBytes wf (s.recordAddr r) (s.newCount r ++ recordFields s r)
  rw [List.length_append, two, Memory.readBytes_add] at whole
  obtain ⟨count, fields⟩ := List.append_inj whole (by rw [Memory.readBytes_length, two])
  refine ⟨count, fields, fun b outside => Memory.read_writeBytes_outside _ _ _ ?_⟩
  rw [List.length_append, two]
  omega

theorem rewrite_notice {s : State} (wf : Memory.wf s.mem = true) {r : Fin 29} (healthy : s.isFaulted = false)
    {w : Waiting} (mem : w ∈ s.report.waiting) (alone : w.alone r) {n : Notice} (act : w.act = .notice n) :
    (rewriteRecord r s).regs.events.getLsbD n.bit = true := by
  obtain ⟨-, engine, -, -, -, report, -⟩ := rewritten_fields s r
  rw [rewriteRecord_gives wf]
  refine foldl_give_notice _ (w := { w with needs := w.needs.filter fun x => decide (x ≠ r) }) ?_
    (mem_released.2 ⟨w, ?_, alone, rfl⟩) act
  · rw [← healthy]
    simp only [State.isFaulted, State.handing, engine]
  · rw [report]
    exact mem

/-- The outcome of a request that waits for this record alone goes with it. -/
theorem rewrite_outcome {s : State} (wf : Memory.wf s.mem = true) {r : Fin 29} (healthy : s.isFaulted = false) {u : Strip}
    {res : Result} {q : Request} {h f : Bool} (waiting : s.report.waiting = [⟨[r], .outcome u res⟩])
    (pos : (s.strip u).position < s.stripCount u) (hold : (s.strip u).scan = .holding q h f)
    (free : s.editions.testsDue = false ∨ ownerOf q.kind ≠ some .edition) :
    Completed u res (s.written r) (rewriteRecord r s) ∧ (rewriteRecord r s).report.waiting = [] := by
  obtain ⟨regs, engine, exch, -, editions, -, -, mem, none⟩ := letGo_keeps s r
  have strip : (s.letGo r).strip u = s.strip u := by cases u <;> simp only [State.strip, exch]
  have tests : deferredTests u (s.letGo r) = (s.letGo r, false) := by
    rcases deferredTests_cases u (s.letGo r) with ⟨put, own, -⟩ | ⟨-, same⟩
    · rw [strip, StripState.kind, hold] at own
      rw [editions] at put
      rcases free with off | other
      · rw [off] at put
        cases put
      · exact absurd own other
    · exact same
  rw [rewriteRecord_outcome wf waiting, handOutcome, tests]
  simp only [Bool.false_eq_true, if_false]
  obtain ⟨-, -, -, -, -, -, -, -, -, -, -, report, -⟩ := offStrip_eq (completeRequest_offStrip u res (s.letGo r))
  refine ⟨(completed_completeRequest (req := q) (h := h) (f := f) ?_ ?_ ?_ ?_).of_eq exch mem regs,
    by rw [report, none]⟩
  · rw [strip, hold]
  · rw [← healthy]
    simp only [State.isFaulted, engine]
  · rw [strip, (stripAddr_of_desc (congrArg ExchangeIf.descriptor exch) u).2]
    exact pos
  · rw [mem]
    exact Memory.writeBytes_wf _ _ wf

/-! ### The fields shown -/

theorem loopCode_eq (s : State) (l : Fin 4) :
    s.loopCode l = if s.paired l = false then 0 else if (s.port (s.actingLine l)).broken then 2 else 1 := by
  unfold State.loopCode State.actingLine
  cases s.paired l <;> rfl

theorem shown_of {α : Type} {o : Option α} {v : α} (holds : o = some v) (s : State) (n : Fin 24) (off k : Nat)
    (f : α → Nat) : s.shown n off k (o.map f) = leBytes k (f v) := by
  rw [holds]
  rfl

theorem getD_map_of {α : Type} {o : Option α} {v : α} (holds : o = some v) (k d : Nat) (f : α → Nat) :
    leBytes k ((o.map f).getD d) = leBytes k (f v) := by
  rw [holds]
  rfl

theorem getD_map_of_none {α : Type} {o : Option α} (lacks : o = none) (k d : Nat) (f : α → Nat) :
    leBytes k ((o.map f).getD d) = leBytes k d := by
  rw [lacks]
  rfl

theorem keepalive_units (o : Option Time) :
    (o.map units).getD 0xFFFF = if o = none then 65535 else o.getD 0 / (250 * Config.ms) := by
  cases o <;> rfl

/-- Settles O57: the fields of each record by its list of parts, the step by what the record lets go. -/
theorem rewriteShowsState : Obligations.RewriteShowsState := by
  unfold Obligations.RewriteShowsState
  refine ⟨?_, record_length, fun s r q => records_apart s, fun s => ?_, fun s l => ?_, fun s n => ?_⟩
  · intro s r high wf due may a count fields alone written
    have healthy : s.isFaulted = false := by
      rcases may with work | ⟨starting, -⟩
      · exact not_isFaulted_of_working work
      · simp only [State.isFaulted, starting]
    obtain ⟨t, run, settled, same⟩ := exec_reportRewrite_settled high due (may.imp_right fun ⟨e, order⟩ => ⟨e, startOrder_of order⟩)
    obtain ⟨change, clock, -⟩ := of_ledger (rewriteRecord_ledger r s)
    refine ⟨t, run, ?_, fun q other => ?_, settled.change.trans change, settled.clock.trans clock, fun quiet => ?_,
      fun none => ?_, fun w mem n alone act => ?_, fun u res q h f waiting pos hold free => ?_⟩
    · rw [settled.counts, rewriteRecord_counts wf, if_pos rfl]
    · rw [settled.counts, rewriteRecord_counts wf, if_neg other]
    · obtain ⟨editions, roster, wanted⟩ := rewrite_quiet wf quiet
      rw [← same editions] at wanted
      exact ⟨wanted, settled.editions.trans editions, settled.roster.trans roster⟩
    · obtain ⟨mem, regs, waiting⟩ := rewrite_silent wf none
      rw [settled.mem, settled.events, settled.waiting, mem, regs]
      obtain ⟨count, fields, elsewhere⟩ := written_read wf r
      exact ⟨count, fields, elsewhere, rfl, waiting⟩
    · rw [settled.events]
      exact rewrite_notice wf healthy mem alone act
    · obtain ⟨completed, waits⟩ := rewrite_outcome wf healthy waiting pos hold free
      exact ⟨completed.settled settled, settled.waiting.trans waits⟩
  · intro at' c e slots
    refine ⟨summary_field 0 rfl rfl rfl, summary_field 1 rfl rfl rfl, summary_field 2 rfl rfl rfl,
      summary_field 3 rfl rfl rfl, summary_field 4 rfl rfl rfl, summary_field 5 rfl rfl rfl, summary_field 6 rfl rfl rfl,
      summary_field 7 rfl rfl rfl, summary_field 8 rfl rfl rfl, summary_field 9 rfl rfl rfl,
      summary_field 10 rfl rfl rfl, summary_field 11 rfl rfl rfl, summary_field 12 rfl rfl rfl,
      summary_field 13 rfl rfl rfl, summary_field 14 rfl rfl rfl, ?_, summary_field 16 rfl rfl rfl,
      summary_field 17 rfl rfl rfl, summary_field 18 rfl rfl rfl, summary_field 19 rfl rfl rfl,
      summary_field 20 rfl rfl rfl, ?_, summary_field 22 rfl rfl rfl, summary_field 23 rfl rfl rfl,
      summary_field 24 rfl rfl rfl, summary_field 25 rfl rfl rfl, summary_field 26 rfl rfl rfl,
      summary_field 27 rfl rfl rfl, summary_field 28 rfl rfl rfl, summary_field 29 rfl rfl rfl,
      summary_field 30 rfl rfl rfl, summary_field 31 rfl rfl rfl, summary_field 32 rfl rfl rfl⟩
    · exact summary_field 15 rfl rfl (congrArg (fun v => some (leBytes 1 v)) (rebuildCode_map _))
    · exact summary_field 21 rfl rfl rfl
  · intro at' p a k
    refine ⟨line_field 0 rfl rfl ?_, line_field 1 rfl rfl rfl, line_field 2 rfl rfl ?_,
      line_field 3 rfl rfl (congrArg (fun v => some (leBytes 1 v)) (loopCode_eq s l)), line_field 4 rfl rfl rfl,
      line_field 5 rfl rfl rfl, line_field 6 rfl rfl rfl, line_field 7 rfl rfl rfl, line_field 8 rfl rfl rfl,
      line_field 9 rfl rfl rfl, line_field 10 rfl rfl rfl, ?_, line_field 12 rfl rfl rfl⟩
    · rfl
    · rfl
    · exact ⟨_, line_field 11 rfl rfl rfl, clashMask_bits _⟩
  · intro at' v k time bit
    refine ⟨roster_field 0 rfl rfl rfl, fun unbound => ?_, fun l a bound => ?_, roster_field 3 rfl rfl rfl,
      roster_field 4 rfl rfl rfl, roster_field 5 rfl rfl rfl, roster_field 6 rfl rfl rfl, roster_field 7 rfl rfl rfl,
      roster_field 12 rfl rfl rfl, fun c holds => ?_, fun lacks => ?_, roster_field 14 rfl rfl rfl,
      roster_field 15 rfl rfl rfl, roster_field 16 rfl rfl rfl, roster_field 17 rfl rfl rfl, fun p holds => ?_,
      fun lacks => ?_, roster_field 21 rfl rfl rfl, roster_field 22 rfl rfl rfl, roster_field 23 rfl rfl rfl,
      roster_field 25 rfl rfl rfl, ?_, roster_field 27 rfl rfl rfl, roster_field 28 rfl rfl rfl,
      roster_field 29 rfl rfl rfl, roster_field 30 rfl rfl rfl, roster_field 31 rfl rfl rfl, roster_field 32 rfl rfl rfl,
      roster_field 33 rfl rfl rfl, roster_field 34 rfl rfl rfl, roster_field 35 rfl rfl rfl, roster_field 36 rfl rfl rfl,
      roster_field 37 rfl rfl rfl, roster_field 38 rfl rfl rfl⟩
    · exact ⟨roster_field 1 rfl rfl (congrArg some (getD_map_of_none unbound 1 _ _)),
        roster_field 2 rfl rfl (congrArg some (getD_map_of_none unbound 1 _ _))⟩
    · exact ⟨roster_field 1 rfl rfl (congrArg some (getD_map_of bound 1 _ _)),
        roster_field 2 rfl rfl (congrArg some (getD_map_of bound 1 _ _))⟩
    · exact ⟨roster_field 8 rfl rfl (congrArg some (shown_of holds s n 24 2 _)),
        roster_field 9 rfl rfl (congrArg some (shown_of holds s n 26 2 _)),
        roster_field 10 rfl rfl (congrArg some (shown_of holds s n 28 1 _)),
        roster_field 11 rfl rfl (congrArg some (getD_map_of holds 1 _ _)),
        roster_field 13 rfl rfl (congrArg some (shown_of holds s n 31 1 _))⟩
    · exact roster_field 11 rfl rfl (congrArg some (getD_map_of_none lacks 1 _ _))
    · exact ⟨roster_field 18 rfl rfl (congrArg some (getD_map_of holds 2 _ _)),
        roster_field 19 rfl rfl (congrArg some (shown_of holds s n 48 4 _)),
        roster_field 20 rfl rfl (congrArg some (shown_of holds s n 52 1 _)),
        roster_field 24 rfl rfl (congrArg some (shown_of holds s n 56 8 _))⟩
    · exact roster_field 18 rfl rfl (congrArg some (getD_map_of_none lacks 2 _ _))
    · exact roster_field 26 rfl rfl (congrArg (fun t => some (leBytes 2 t)) (keepalive_units _))

end Sys2Proof.Machine

/-!
The replies (chapter 6): what is left of the exchange whose reply is taken, and the BUSY, the PAGE ACK and the CHECK REPORT.
-/
namespace Sys2Proof.Machine

/-! ### The lines under a reply -/

/-- What a slot's profile and the state of the exchange of a line rest on. -/
def State.wires (s : State) : Vector Profile 4 × Vector (Fin 4 × XState) 4 :=
  (s.profiles, s.ports.map fun p => (p.profile, p.xstate))

theorem wires_of_bare {s u : State} (same : s.bare = u.bare) : s.wires = u.wires := by
  have e : ∀ {γ : Type} (g : State → γ), g s.bare = g u.bare := fun g => congrArg g same
  have ports := e fun s => s.ports.map fun p => (p.profile, p.xstate)
  simp only [State.bare, Vector.map_map] at ports
  exact Prod.ext (e State.profiles) ports

theorem port_of_wires {s u : State} (same : s.wires = u.wires) (l : Fin 4) :
    (s.port l).profile = (u.port l).profile ∧ (s.port l).xstate = (u.port l).xstate := by
  have port := congrArg (fun w : Vector Profile 4 × Vector (Fin 4 × XState) 4 => w.2[l]) same
  simpa only [State.wires, State.port, Fin.getElem_fin, Vector.getElem_map, Prod.mk.injEq] using port

theorem slotProfile_of_wires {s u : State} (same : s.wires = u.wires) {n : Fin 24}
    (bound : (s.slot n).binding = (u.slot n).binding) : s.slotProfile n = u.slotProfile n := by
  have profiles : s.profiles = u.profiles := congrArg Prod.fst same
  have line : s.lineOf n = u.lineOf n := by rw [State.lineOf, State.lineOf, bound]
  unfold State.slotProfile
  rw [line]
  split
  · simp only [State.profileOf, profiles, (port_of_wires same _).1]
  · rfl

@[simp] theorem modSlot_wires (s : State) (n : Fin 24) (f : Slot → Slot) : (s.modSlot n f).wires = s.wires := rfl
@[simp] theorem setDelivery_wires (s : State) (n : Fin 24) (d : Option Delivery) : (s.setDelivery n d).wires = s.wires := rfl
@[simp] theorem modMarks_wires (s : State) (n : Fin 24) (f : Marks → Marks) : (s.modMarks n f).wires = s.wires := rfl
@[simp] theorem setSweep_wires (s : State) (n : Fin 24) (v : Sweep) : (s.setSweep n v).wires = s.wires := rfl
@[simp] theorem modDelivery_wires (s : State) (n : Fin 24) (f : Delivery → Delivery) : (s.modDelivery n f).wires = s.wires := rfl
@[simp] theorem want_wires (s : State) (r : Fin 29) : (want r s).wires = s.wires := rfl
@[simp] theorem dropDelivery_wires (s : State) (n : Fin 24) : (dropDelivery n s).wires = s.wires :=
  wires_of_bare (dropDelivery_bare s n)
@[simp] theorem endDelivery_wires (s : State) (n : Fin 24) : (endDelivery n s).wires = s.wires :=
  wires_of_bare (endDelivery_bare s n)
@[simp] theorem abandon_wires (s : State) (n : Fin 24) : (abandon n s).wires = s.wires := wires_of_bare (abandon_bare s n)
@[simp] theorem memberOpened_wires (s : State) (n : Fin 24) : (memberOpened n s).wires = s.wires :=
  wires_of_bare (memberOpened_bare s n)
@[simp] theorem withdraw_wires (s : State) (n : Fin 24) (p : Work → Bool) (d : Bool) : (withdraw n p d s).wires = s.wires :=
  wires_of_bare (withdraw_bare s n p d)

/-! ### The exchange that is over -/

section
variable (s : State) (l : Fin 4) (ex : Exchange)

theorem overExchange_ports :
    (overExchange l ex s).ports = (s.modPort l fun p => { p with exchange := none, reply := none }).ports := by
  unfold overExchange
  dsimp only
  split_ifs <;> rfl

@[simp] theorem overExchange_port (k : Fin 4) : (overExchange l ex s).port k =
    if l = k then { s.port l with exchange := none, reply := none } else s.port k := by
  rw [State.port, overExchange_ports]
  exact State.modPort_port ..

@[simp] theorem overExchange_slot (k : Fin 24) : (overExchange l ex s).slot k = s.slot k := by
  unfold overExchange
  dsimp only
  split_ifs <;> rfl

@[simp] theorem overExchange_delivery (k : Fin 24) : (overExchange l ex s).delivery k = s.delivery k := by
  unfold overExchange
  dsimp only
  split_ifs <;> rfl

@[simp] theorem overExchange_sweep (k : Fin 24) : (overExchange l ex s).sweep k = s.sweep k := by
  unfold overExchange
  dsimp only
  split_ifs <;> rfl

@[simp] theorem overExchange_marks (k : Fin 24) : (overExchange l ex s).marks k = s.marks k := by
  unfold overExchange
  dsimp only
  split_ifs <;> rfl

@[simp] theorem overExchange_groups : (overExchange l ex s).sched.groups = s.sched.groups := by
  unfold overExchange
  dsimp only
  split_ifs <;> rfl

@[simp] theorem overExchange_editions : (overExchange l ex s).editions = s.editions := by
  unfold overExchange
  dsimp only
  split_ifs <;> rfl

@[simp] theorem overExchange_report : (overExchange l ex s).report = s.report := by
  unfold overExchange
  dsimp only
  split_ifs <;> rfl

@[simp] theorem overExchange_profiles : (overExchange l ex s).profiles = s.profiles := by
  unfold overExchange
  dsimp only
  split_ifs <;> rfl

@[simp] theorem overExchange_wires : (overExchange l ex s).wires = s.wires := by
  refine Prod.ext (overExchange_profiles s l ex) (Vector.ext fun i below => ?_)
  simp only [State.wires, overExchange_ports, State.modPort, Vector.getElem_map, Vector.getElem_set]
  split
  · next here => subst here; rfl
  · rfl

end

/-- A reply that is taken: the exchange is over, its slot's part is taken, and the POLL is an interval ahead. -/
theorem takeReply_eq {s : State} {l : Fin 4} {code : Byte} {f : Exchange → List Byte → Fin 24 → State → State}
    {ex : Exchange} {content : List Byte} {n : Fin 24} (held : s.replyHeld l code = some (ex, content))
    (slot : ex.work.slot = some n) (attached : ex.detached = false) (stands : ex.withdrawn = false) :
    takeReply l code f s = setKeepalive n (f ex content n (overExchange l ex s)) := by
  simp only [takeReply, held, Exchange.slot, attached, slot, stands, Bool.false_eq_true, if_false]

theorem takeReply_later {s : State} {l : Fin 4} {code : Byte} {f : Exchange → List Byte → Fin 24 → State → State}
    {ex : Exchange} {content : List Byte} {n : Fin 24} (high : s.resetLow = false)
    (held : s.replyHeld l code = some (ex, content)) (slot : ex.work.slot = some n) (attached : ex.detached = false)
    (stands : ex.withdrawn = false) :
    ∃ t, scheduled s (takeReply l code f) = .next t ∧ Later (setKeepalive n (f ex content n (overExchange l ex s))) t := by
  obtain ⟨t, run, -, later⟩ := scheduled_later (f := takeReply l code f) high
  rw [takeReply_eq held slot attached stands] at later
  exact ⟨t, run, later⟩

/-- A command of the lines leaves memory and the image alone. -/
theorem line_keeps {c : Instr} (line : lineCmd c = true) {s t : State} (run : exec c s = .next t) :
    t.mem = s.mem ∧ t.change = s.change := by
  obtain ⟨t', run', fixed⟩ := exec_fixed line s
  rw [run] at run'
  cases run'
  obtain ⟨mem, -, -, -, -, change, -⟩ := of_fixed fixed
  exact ⟨mem, change⟩

/-- The keep-alive time that a slot in state `q` takes after a reply (R92). -/
def keepaliveAfter (i : Time) : SlotState → Option Time
  | .vacant | .identifying => none
  | .silent => some (4 * i)
  | .behind | .current | .quarantined => some i

theorem setKeepalive_slot (s : State) (n k : Fin 24) : (setKeepalive n s).slot k =
    if n = k then { s.slot n with keepalive := keepaliveAfter (s.slotProfile n).interval (s.slot n).state } else s.slot k := by
  rw [setKeepalive, State.modSlot_slot]
  split
  · congr 1
    cases (s.slot n).state <;> rfl
  · rfl

@[simp] theorem setKeepalive_delivery (s : State) (n k : Fin 24) : (setKeepalive n s).delivery k = s.delivery k := rfl
@[simp] theorem setKeepalive_sweep (s : State) (n k : Fin 24) : (setKeepalive n s).sweep k = s.sweep k := rfl
@[simp] theorem setKeepalive_marks (s : State) (n k : Fin 24) : (setKeepalive n s).marks k = s.marks k := rfl
@[simp] theorem setKeepalive_groups (s : State) (n : Fin 24) : (setKeepalive n s).sched.groups = s.sched.groups := rfl
@[simp] theorem setKeepalive_port (s : State) (n : Fin 24) (l : Fin 4) : (setKeepalive n s).port l = s.port l := rfl
@[simp] theorem setKeepalive_wires (s : State) (n : Fin 24) : (setKeepalive n s).wires = s.wires := rfl
@[simp] theorem setKeepalive_report (s : State) (n : Fin 24) : (setKeepalive n s).report = s.report := rfl

@[simp] theorem setKeepalive_binding (s : State) (n k : Fin 24) :
    ((setKeepalive n s).slot k).binding = (s.slot k).binding := by
  rw [setKeepalive_slot]
  split
  · next here => rw [← here]
  · rfl

theorem lineOf_of_binding {s u : State} {n : Fin 24} (same : (u.slot n).binding = (s.slot n).binding) :
    u.lineOf n = s.lineOf n := by rw [State.lineOf, same, State.lineOf]

/-! ### BUSY (R119) -/

/-- A slot after a BUSY: counted, and closed for 100 ms. -/
def Slot.busied (v : Slot) : Slot :=
  { v with counters := { v.counters with busy := satInc v.counters.busy }, backoff := v.closedFor busyTime }

/-- The state before the work that the BUSY answered is put back. -/
def busyCounted (l : Fin 4) (ex : Exchange) (n : Fin 24) (s : State) : State :=
  setKeepalive n (countBusy n (overExchange l ex s))

theorem busyCounted_slot (l : Fin 4) (ex : Exchange) (n : Fin 24) (s : State) :
    ∃ k, (busyCounted l ex n s).slot n = { (s.slot n).busied with keepalive := k } := by
  refine ⟨keepaliveAfter ((countBusy n (overExchange l ex s)).slotProfile n).interval (s.slot n).state, ?_⟩
  rw [busyCounted, setKeepalive_slot, if_pos rfl]
  simp only [countBusy, backOff, count, State.modSlot_slot, if_true, overExchange_slot]
  rfl

@[simp] theorem busyWork_slot (w : Work) (n k : Fin 24) (s : State) : (busyWork w n s).slot k = s.slot k := by
  unfold busyWork
  split
  · exact dropDelivery_slot s n k
  · rfl
  · rfl
  · rfl

@[simp] theorem busyWork_wires (w : Work) (n : Fin 24) (s : State) : (busyWork w n s).wires = s.wires := by
  unfold busyWork
  split <;> simp

theorem busyWork_left (w : Work) (n : Fin 24) (s : State) (l : Fin 4) :
    ExchangeLeft (s.port l).exchange ((busyWork w n s).port l).exchange := by
  unfold busyWork
  split
  · exact dropDelivery_left s n l
  · exact .refl _
  · exact .refl _
  · exact .refl _

@[simp] theorem busyDue_delivery (w : Work) (n k : Fin 24) (s : State) : (busyDue w n s).delivery k = s.delivery k := by
  unfold busyDue
  split <;> rfl

@[simp] theorem busyDue_port (w : Work) (n : Fin 24) (s : State) (l : Fin 4) : (busyDue w n s).port l = s.port l := by
  unfold busyDue
  split <;> rfl

@[simp] theorem busyDue_wires (w : Work) (n : Fin 24) (s : State) : (busyDue w n s).wires = s.wires := by
  unfold busyDue
  split <;> rfl

theorem busyDue_slot (w : Work) (n : Fin 24) (s : State) :
    ∃ k i, (busyDue w n s).slot n = { s.slot n with keepalive := k, identify := i } := by
  unfold busyDue
  split
  · exact ⟨_, _, by rw [State.modSlot_slot, if_pos rfl]⟩
  · exact ⟨_, _, by rw [State.modSlot_slot, if_pos rfl]⟩
  · exact ⟨_, _, rfl⟩

theorem takeBusy_eq {s : State} {l : Fin 4} {ex : Exchange} {content : List Byte} {n : Fin 24}
    (held : s.replyHeld l 0x9F = some (ex, content)) (slot : ex.work.slot = some n) (attached : ex.detached = false) :
    takeBusy l s = if ex.withdrawn then busyCounted l ex n s
      else busyDue ex.work n (busyWork ex.work n (busyCounted l ex n s)) := by
  have code : s.replyHeld l Code.busy = some (ex, content) := held
  simp only [takeBusy, code, Exchange.slot, attached, slot, Bool.false_eq_true, if_false, busyCounted]

theorem mem_insertPage {p q : Nat} (qs : List Nat) : p ∈ insertPage q qs ↔ p = q ∨ p ∈ qs := by
  induction qs with
  | nil => simp [insertPage]
  | cons r rs ih =>
    unfold insertPage
    split
    · simp
    · split
      · next same => simp [same]
      · simp [ih, or_left_comm]

theorem mem_mergePages {p : Nat} : ∀ (ps qs : List Nat), p ∈ mergePages ps qs ↔ p ∈ qs ∨ p ∈ ps
  | [], qs => by simp [mergePages]
  | r :: ps, qs => by
    have step : mergePages (r :: ps) qs = mergePages ps (insertPage r qs) := rfl
    rw [step, mem_mergePages ps, mem_insertPage, List.mem_cons, or_assoc, or_left_comm]

theorem insert_nil (d : Delivery) : d.insert [] = d := by
  rcases d with ⟨_, _, _, _, _, _, _, _, _, _, _, flight, _, _, _, _, _, _⟩
  cases flight <;> simp [Delivery.insert, mergePages]

theorem reply_of_bare {s u : State} (same : u.bare = s.bare) (l : Fin 4) : (u.port l).reply = (s.port l).reply := by
  have port := congrArg (fun s : State => s.ports[l].reply) same
  simpa [State.bare, State.port, Port.core] using port

theorem busyWork_reply (w : Work) (n : Fin 24) (s : State) (l : Fin 4) :
    ((busyWork w n s).port l).reply = (s.port l).reply := by
  unfold busyWork
  split
  · exact reply_of_bare (dropDelivery_bare s n) l
  · rfl
  · rfl
  · rfl

section
variable {s : State} {l : Fin 4} {ex : Exchange} {content : List Byte} {n : Fin 24}
  (held : s.replyHeld l 0x9F = some (ex, content)) (slot : ex.work.slot = some n) (attached : ex.detached = false)
include held slot attached

theorem takeBusy_slot : ∃ k i, (takeBusy l s).slot n = { (s.slot n).busied with keepalive := k, identify := i } := by
  obtain ⟨k, counted⟩ := busyCounted_slot l ex n s
  rw [takeBusy_eq held slot attached]
  split
  · exact ⟨k, _, counted⟩
  · obtain ⟨k', i, due⟩ := busyDue_slot ex.work n (busyWork ex.work n (busyCounted l ex n s))
    exact ⟨k', i, by rw [due, busyWork_slot, counted]⟩

theorem takeBusy_port : ((takeBusy l s).port l).exchange = none ∧ ((takeBusy l s).port l).reply = none ∧
    ((takeBusy l s).port l).xstate = (s.port l).xstate := by
  have here : (busyCounted l ex n s).port l = { s.port l with exchange := none, reply := none } :=
    (overExchange_port s l ex l).trans (if_pos rfl)
  have wires : (takeBusy l s).wires = s.wires := by
    have counted : (busyCounted l ex n s).wires = s.wires := overExchange_wires s l ex
    rw [takeBusy_eq held slot attached]
    split
    · exact counted
    · rw [busyDue_wires, busyWork_wires, counted]
  refine ⟨?_, ?_, (port_of_wires wires l).2⟩ <;> rw [takeBusy_eq held slot attached] <;> split
  · rw [here]
  · rw [busyDue_port]
    cases has : ((busyWork ex.work n (busyCounted l ex n s)).port l).exchange with
    | none => rfl
    | some e =>
      obtain ⟨e', some', -⟩ := (busyWork_left ex.work n (busyCounted l ex n s) l).before e has
      rw [here] at some'
      cases some'
  · rw [here]
  · rw [busyDue_port, busyWork_reply, here]

end

/-- Settles O55: the BUSY is counted on the slot, and then the work that it answered is put back. -/
theorem busyLeavesWorkDue : Obligations.BusyLeavesWorkDue := by
  unfold Obligations.BusyLeavesWorkDue
  intro s l ex content n high held slot attached gap line v
  obtain ⟨t, run, -, later⟩ := scheduled_later (f := takeBusy l) high
  obtain ⟨mem, change⟩ := line_keeps (c := .busy l) rfl run
  obtain ⟨exchange, reply, xstate⟩ := takeBusy_port held slot attached
  obtain ⟨k, i, taken⟩ := takeBusy_slot held slot attached
  have busy : ((takeBusy l s).port l).xstate ≠ .idle := by rw [xstate, gap]; nofun
  have book : t.delivery n = (takeBusy l s).delivery n := by
    refine (later.book_of_busy ?_ busy).1
    rw [lineOf_of_binding (s := s) (by rw [taken]; rfl), line]
  obtain ⟨x, r, port⟩ := later.port l
  refine ⟨t, run, mem, change, ?_, (later.exchange l).busy busy exchange, ?_, fun gone => ?_, fun stands m => ?_⟩
  · rw [port, ← reply]
  · rw [later.slot, taken]
    rfl
  · rw [book, later.slot, takeBusy_eq held slot attached, if_pos gone]
    obtain ⟨k, counted⟩ := busyCounted_slot l ex n s
    exact ⟨overExchange_delivery s l ex n, by rw [counted]; rfl⟩
  · have state : takeBusy l s = busyDue ex.work n (busyWork ex.work n (busyCounted l ex n s)) := by
      rw [takeBusy_eq held slot attached, stands]
      rfl
    have same : (busyCounted l ex n s).delivery n = s.delivery n := overExchange_delivery s l ex n
    obtain ⟨k, counted⟩ := busyCounted_slot l ex n s
    rw [later.slot, book, state]
    clear taken state book
    generalize busyCounted l ex n s = u at same counted ⊢
    refine ⟨fun work => ?_, fun work identifying => ?_, fun k work => ?_, fun d has =>
      ⟨fun work => ?_, fun work => ?_, fun work none => ?_, fun work => ?_⟩⟩ <;> rw [work] at slot ⊢ <;> cases slot
    · simp [busyDue, busyWork, same, busyTime]
    · have identifying : (s.slot n).state = .identifying := identifying
      simp [busyDue, busyWork, counted, busyTime, Slot.busied, identifying]
    · simp [busyWork]
    · simp [busyWork, same, has]
    · simp [busyWork, same, has]
    · simp [busyWork, same, has, none, insert_nil]
    · simp only [busyDue_delivery]
      refine ⟨{ d.insert d.late with phase := .opened, late := [] }, by simp [busyWork, same, has], rfl, rfl, rfl, rfl, fun p => mem_mergePages d.late d.urgent⟩

end Sys2Proof.Machine

/-!
What a failure leaves of a slot (R80, R82, R93): the counts, the backoff and the quarantine. With it the answers that can fail a
delivery: the PAGE ACK, and the CHECK REPORT of a REPAIR.
-/
namespace Sys2Proof.Machine

/-! ### Notices -/

theorem raiseAfter_eq (n : Notice) (rs : List (Fin 29)) (s : State) : ∃ r, raiseAfter n rs s = { s with report := r } := by
  unfold raiseAfter
  split
  · exact ⟨s.report, rfl⟩
  · have only : ∀ (rs : List (Fin 29)) (s : State), ∃ r, wantAll rs s = { s with report := r } := by
      intro rs
      induction rs with
      | nil => exact fun s => ⟨s.report, rfl⟩
      | cons r rs ih =>
        intro s
        obtain ⟨x, same⟩ := ih (want r s)
        exact ⟨x, same⟩
    obtain ⟨x, same⟩ := only rs s
    rw [same]
    exact ⟨_, rfl⟩

section
variable (n : Notice) (m : Fin 24) (s : State)

theorem raiseForSlot_eq : ∃ r, raiseForSlot n m s = { s with report := r } := raiseAfter_eq ..

@[simp] theorem raiseForSlot_slot (k : Fin 24) : (raiseForSlot n m s).slot k = s.slot k := by
  obtain ⟨r, same⟩ := raiseForSlot_eq n m s
  exact congrArg (fun s => s.slot k) same

@[simp] theorem raiseForSlot_delivery (k : Fin 24) : (raiseForSlot n m s).delivery k = s.delivery k := by
  obtain ⟨r, same⟩ := raiseForSlot_eq n m s
  exact congrArg (fun s => s.delivery k) same

@[simp] theorem raiseForSlot_sweep (k : Fin 24) : (raiseForSlot n m s).sweep k = s.sweep k := by
  obtain ⟨r, same⟩ := raiseForSlot_eq n m s
  exact congrArg (fun s => s.sweep k) same

@[simp] theorem raiseForSlot_sched : (raiseForSlot n m s).sched = s.sched := by
  obtain ⟨r, same⟩ := raiseForSlot_eq n m s
  rw [same]

@[simp] theorem raiseForSlot_wires : (raiseForSlot n m s).wires = s.wires := by
  obtain ⟨r, same⟩ := raiseForSlot_eq n m s
  rw [same]
  rfl

end

/-! ### Quarantine -/

/-- Slot `v` as a quarantine for reason `r` leaves it; `i` is its keep-alive interval (R80, R92). -/
def Slot.quarantinedFor (v : Slot) (r : Reason) (i : Time) : Slot :=
  if v.state = .quarantined then v
  else { v with
    state := .quarantined, reason := r, kept := none, identify := none
    keepalive := if v.state = .identifying then some i else v.keepalive }

theorem quarantine_slot (n k : Fin 24) (r : Reason) (s : State) : (quarantine n r s).slot k =
    if n = k then (s.slot n).quarantinedFor r (s.slotProfile n).interval else s.slot k := by
  have profile : ((abandon n (withdraw n (fun _ => true) false s)).modSlot n fun v =>
      { v with state := .quarantined, reason := r, kept := none, identify := none }).slotProfile n = s.slotProfile n :=
    slotProfile_of_wires (by simp) (by simp)
  unfold quarantine
  by_cases here : n = k
  · subst here
    rw [if_pos rfl]
    split
    · next already => rw [Slot.quarantinedFor, if_pos already]
    · next other =>
      rw [Slot.quarantinedFor, if_neg other, raiseForSlot_slot]
      by_cases fresh : (s.slot n).state = .identifying
      · rw [if_pos (by simpa using fresh), setKeepalive_slot, if_pos rfl, profile, if_pos fresh]
        simp [keepaliveAfter]
      · rw [if_neg (by simpa using fresh), if_neg fresh]
        simp
  · rw [if_neg here]
    split
    · rfl
    · rw [raiseForSlot_slot]
      split <;> simp [setKeepalive_slot, here]

/-- What a quarantine leaves of deliveries, sweep records and marks. -/
theorem quarantine_delivery (n k : Fin 24) (r : Reason) (s : State) : (quarantine n r s).delivery k =
    if n = k ∧ (s.slot n).state ≠ .quarantined then none else s.delivery k := by
  unfold quarantine
  split
  · next already => rw [if_neg fun both => both.2 already]
  · next other =>
    rw [raiseForSlot_delivery]
    have same (u : State) (b : Bool) : (if b then setKeepalive n u else u).delivery k = u.delivery k := by
      cases b <;> rfl
    rw [same, State.modSlot_delivery, abandon_delivery, withdraw_delivery]
    simp only [other, ne_eq, not_false_eq_true, and_true]

theorem quarantine_sweep (n k : Fin 24) (r : Reason) {s : State} (free : s.delivery n = none) :
    (quarantine n r s).sweep k = s.sweep k := by
  unfold quarantine
  split
  · rfl
  · rw [raiseForSlot_sweep]
    have same (u : State) (b : Bool) : (if b then setKeepalive n u else u).sweep k = u.sweep k := by
      cases b <;> rfl
    rw [same, State.modSlot_sweep, abandon_sweep]
    split
    · next here =>
      subst here
      rw [State.sweepEnded, withdraw_delivery, free]
      rfl
    · rfl

@[simp] theorem quarantine_wires (n : Fin 24) (r : Reason) (s : State) : (quarantine n r s).wires = s.wires := by
  unfold quarantine
  split
  · rfl
  · rw [raiseForSlot_wires]
    split <;> simp

/-- A quarantine tells of itself. -/
theorem quarantine_notice {n : Fin 24} {r : Reason} {s : State} (healthy : s.isFaulted = false)
    (other : (s.slot n).state ≠ .quarantined) :
    (⟨[rosterRec n, summaryRec], .notice .quarantine⟩ : Waiting) ∈ (quarantine n r s).report.waiting := by
  unfold quarantine
  rw [if_neg other]
  dsimp only
  generalize entered : (if decide ((s.slot n).state = .identifying) = true then _ else _) = u
  have still : u.isFaulted = false := by
    rw [← healthy, ← entered]
    split <;> simp [State.isFaulted]
  rw [raiseForSlot, raiseAfter, still]
  simp

/-! ### A failure -/

/-- Slot `v` with one delivery failure more, before its quarantine (R82, R93). -/
def Slot.failedOnce (v : Slot) (limit : Nat) : Slot :=
  { v with failures := min (v.failures + 1) limit, backoff := v.closedFor (failureBackoff (v.failures + 1)) }

/-- Slot `v` after a delivery failure (R82, R93). -/
def Slot.failed (v : Slot) (p : Profile) : Slot :=
  if p.quarantine ≤ v.failures + 1 then (v.failedOnce p.quarantine).quarantinedFor .failures p.interval
  else v.failedOnce p.quarantine

/-- The state in which a failure is counted, before its quarantine. -/
def failureCounted (n : Fin 24) (s : State) : State :=
  backOff n (failureBackoff ((s.slot n).failures + 1))
    (s.modSlot n fun v => { v with failures := min ((s.slot n).failures + 1) (s.slotProfile n).quarantine })

theorem countFailure_eq (n : Fin 24) (s : State) : countFailure n s =
    if (s.slotProfile n).quarantine ≤ (s.slot n).failures + 1 then quarantine n .failures (failureCounted n s)
    else failureCounted n s := rfl

theorem failureCounted_slot (n k : Fin 24) (s : State) :
    (failureCounted n s).slot k = if n = k then (s.slot n).failedOnce (s.slotProfile n).quarantine else s.slot k := by
  simp only [failureCounted, backOff, State.modSlot_slot, if_true]
  split <;> rfl

@[simp] theorem failureCounted_delivery (n k : Fin 24) (s : State) : (failureCounted n s).delivery k = s.delivery k := rfl
@[simp] theorem failureCounted_sweep (n k : Fin 24) (s : State) : (failureCounted n s).sweep k = s.sweep k := rfl
@[simp] theorem failureCounted_wires (n : Fin 24) (s : State) : (failureCounted n s).wires = s.wires := rfl
@[simp] theorem failureCounted_report (n : Fin 24) (s : State) : (failureCounted n s).report = s.report := rfl

theorem countFailure_slot (n k : Fin 24) (s : State) :
    (countFailure n s).slot k = if n = k then (s.slot n).failed (s.slotProfile n) else s.slot k := by
  have once := failureCounted_slot n n s
  rw [if_pos rfl] at once
  have profile : (failureCounted n s).slotProfile n = s.slotProfile n :=
    slotProfile_of_wires (failureCounted_wires n s) (by rw [once]; rfl)
  rw [countFailure_eq]
  split
  · next reached =>
    rw [quarantine_slot, once, profile, failureCounted_slot, Slot.failed, if_pos reached]
    split <;> rfl
  · next below => rw [failureCounted_slot, Slot.failed, if_neg below]

theorem countFailure_delivery (n k : Fin 24) {s : State} (free : s.delivery n = none) :
    (countFailure n s).delivery k = s.delivery k := by
  rw [countFailure_eq]
  split
  · rw [quarantine_delivery, failureCounted_delivery]
    split
    · next both => rw [← both.1, free]
    · rfl
  · rfl

theorem countFailure_sweep (n k : Fin 24) {s : State} (free : s.delivery n = none) :
    (countFailure n s).sweep k = s.sweep k := by
  rw [countFailure_eq]
  split
  · exact quarantine_sweep n k .failures free
  · rfl

@[simp] theorem countFailure_wires (n : Fin 24) (s : State) : (countFailure n s).wires = s.wires := by
  rw [countFailure_eq]
  split
  · rw [quarantine_wires, failureCounted_wires]
  · rfl

/-! What a failure leaves of a slot, field by field. -/

section
variable (v : Slot) (p : Profile)

theorem Slot.failed_fields : (v.failed p).failures = min (v.failures + 1) p.quarantine ∧
    (v.failed p).counters = v.counters ∧ (v.failed p).backoff = v.closedFor (failureBackoff (v.failures + 1)) ∧
    (v.failed p).reload = v.reload ∧ (v.failed p).repair = v.repair ∧ (v.failed p).binding = v.binding ∧
    (v.failed p).heldId = v.heldId ∧ (v.failed p).heldH = v.heldH ∧ (v.failed p).heldActive = v.heldActive ∧
    (v.failed p).heldPending = v.heldPending := by
  unfold Slot.failed Slot.quarantinedFor
  split_ifs <;> exact ⟨rfl, rfl, rfl, rfl, rfl, rfl, rfl, rfl, rfl, rfl⟩

theorem Slot.failed_state : (v.failed p).state = if p.quarantine ≤ v.failures + 1 then .quarantined else v.state := by
  unfold Slot.failed Slot.quarantinedFor
  split
  · split
    · next already => exact already
    · rfl
  · rfl

theorem Slot.failed_reason (reached : p.quarantine ≤ v.failures + 1) (other : v.state ≠ .quarantined) :
    (v.failed p).reason = .failures := by
  have still : (v.failedOnce p.quarantine).state ≠ .quarantined := other
  rw [Slot.failed, if_pos reached, Slot.quarantinedFor, if_neg still]

end

theorem modSlot_slotProfile {s : State} {n : Fin 24} {f : Slot → Slot}
    (bound : (f (s.slot n)).binding = (s.slot n).binding) : (s.modSlot n f).slotProfile n = s.slotProfile n :=
  slotProfile_of_wires (modSlot_wires s n f) (by rw [State.modSlot_slot, if_pos rfl, bound])

theorem deliveryFailure_slot (n k : Fin 24) (s : State) :
    (deliveryFailure n s).slot k = if n = k then (s.slot n).failed (s.slotProfile n) else s.slot k := by
  have profile : (endDelivery n s).slotProfile n = s.slotProfile n :=
    slotProfile_of_wires (endDelivery_wires s n) (by rw [endDelivery_slot])
  rw [deliveryFailure, countFailure_slot, endDelivery_slot, endDelivery_slot, profile]

theorem deliveryFailure_delivery (n : Fin 24) (s : State) : (deliveryFailure n s).delivery n = none := by
  have free : (endDelivery n s).delivery n = none := by rw [endDelivery_delivery, if_pos rfl]
  rw [deliveryFailure, countFailure_delivery n n free, free]

/-! ### PAGE ACK (R130, R131) -/

theorem fieldAt_lt (bs : List Byte) (off n : Nat) : fieldAt bs off n < 256 ^ n := by
  have short : ((bs.drop off).take n).length ≤ n := List.length_take_le ..
  exact lt_of_lt_of_le (leNat_lt _) (Nat.pow_le_pow_right (by omega) short)

/-- The CRC of a PAGE ACK is the one awaited. -/
theorem ackCrc_iff (content : List Byte) (w : Word) :
    ackCrc content = w ↔ leNat ((content.drop 2).take 4) = w.toNat := by
  have small : leNat ((content.drop 2).take 4) < 2 ^ 32 := fieldAt_lt content 2 4
  rw [ackCrc, ← BitVec.toNat_inj, BitVec.toNat_ofNat, fieldAt, Nat.mod_eq_of_lt small]

/-- A delivery with its page `r` counted (R131). -/
def Delivery.paged (d : Delivery) (r : PageRead) : Delivery :=
  { d with
    tallyCount := d.tallyCount + 1, tallySum := d.tallySum + r.tallyCrc, inFlight := none
    urgent := if d.inFlight = some r.page then d.urgent.erase r.page else d.urgent
    rest := if d.inFlight = some r.page then d.rest.erase r.page else d.rest }

theorem countPage_delivery (n : Fin 24) (r : PageRead) {s : State} {d : Delivery} (has : s.delivery n = some d) :
    (countPage n r s).delivery n = some (d.paged r) := by
  simp [countPage, count, has, Delivery.paged]

theorem countPage_slot (n : Fin 24) (r : PageRead) (s : State) : (countPage n r s).slot n =
    { s.slot n with counters := { (s.slot n).counters with pagesSent := satInc (s.slot n).counters.pagesSent } } := by
  simp [countPage, count]

theorem takePageAck_good {ex : Exchange} {content : List Byte} {n : Fin 24} {s : State} {d : Delivery} {r : PageRead}
    (has : s.delivery n = some d) (page : ex.page = some r) (same : ackCrc content = r.ackCrc) :
    let u := takePageAck ex content n s
    u.delivery n = some (d.paged r) ∧ u.wires = s.wires ∧
    u.sweep n = { s.sweep n with list := if d.mode = .repair then (s.sweep n).list.erase r.page else (s.sweep n).list } ∧
    u.slot n =
      { s.slot n with counters := { (s.slot n).counters with pagesSent := satInc (s.slot n).counters.pagesSent } } := by
  have counted := countPage_delivery n r has
  have slot := countPage_slot n r s
  simp only [takePageAck, has, page, same, if_true]
  split
  · refine ⟨counted, rfl, ?_, slot⟩
    rw [repairSent, State.setSweep_sweep, if_pos rfl]
    rfl
  · exact ⟨counted, rfl, rfl, slot⟩

theorem takePageAck_bad {ex : Exchange} {content : List Byte} {n : Fin 24} {s : State} {d : Delivery} {r : PageRead}
    (has : s.delivery n = some d) (page : ex.page = some r) (other : ackCrc content ≠ r.ackCrc) :
    let u := takePageAck ex content n s
    u.delivery n = none ∧ u.slot n = ({ s.slot n with
      counters := { (s.slot n).counters with tallyFailures := satInc (s.slot n).counters.tallyFailures } } : Slot).failed
        (s.slotProfile n) := by
  simp only [takePageAck, has, page, other, if_false]
  refine ⟨deliveryFailure_delivery n _, ?_⟩
  rw [deliveryFailure_slot, if_pos rfl, count, modSlot_slotProfile rfl, State.modSlot_slot, if_pos rfl]

/-! ### CHECK REPORT (R175, R176) -/

theorem differing_ascending (table : List StampRec) (first : Nat) (crcs : List Word) :
    (differing table first crcs).Pairwise (· < ·) := by
  refine List.Pairwise.filterMap _ (R := (· < ·)) (fun i j less p hp q hq => ?_) (List.pairwise_lt_range)
  split_ifs at hp hq
  all_goals
    cases hp
    cases hq
    omega

theorem mem_differing {table : List StampRec} {first p : Nat} {crcs : List Word} : p ∈ differing table first crcs ↔
    ∃ i, i < crcs.length ∧ p = first + i ∧ (table[first + i]?).map (·.crc) ≠ crcs[i]? := by
  simp only [differing, List.mem_filterMap, List.mem_range]
  refine exists_congr fun i => and_congr_right fun _ => ?_
  split
  · next same => exact ⟨nofun, fun ⟨_, other⟩ => absurd same.symm other⟩
  · next other => exact ⟨fun here => ⟨(Option.some.inj here).symm, fun same => other same.symm⟩, fun ⟨here, _⟩ => by rw [here]⟩

/-! ### The end of the step of a reply -/

/-- The slot of a reply at the end of its step, but for its keep-alive time. -/
theorem Later.taken_slot {u t : State} {n : Fin 24} (later : Later (setKeepalive n u) t) :
    ∃ k, t.slot n = { u.slot n with keepalive := k } := by
  rw [later.slot, setKeepalive_slot, if_pos rfl]
  exact ⟨_, rfl⟩

/-- The port of the reply still waits out its gap, so that no boundary of its line takes the delivery. -/
theorem Later.taken_book {s u t : State} {n : Fin 24} {l : Fin 4} (later : Later (setKeepalive n u) t)
    (wires : u.wires = s.wires) (bound : (u.slot n).binding = (s.slot n).binding) (line : s.lineOf n = some l)
    (gap : (s.port l).xstate = .gap) : t.delivery n = u.delivery n ∧ t.sweep n = u.sweep n := by
  refine later.book_of_busy (l := l) ?_ ?_
  · rw [lineOf_of_binding (setKeepalive_binding u n n), lineOf_of_binding bound, line]
  · rw [setKeepalive_port, (port_of_wires wires l).2, gap]
    nofun

theorem compareReport_sweep (n : Fin 24) (h : HeldReport) (s : State) : (compareReport n h s).sweep n = { s.sweep n with
    list := (s.sweep n).list ++ differing s.change.table h.first h.crcs, cursor := h.first + h.crcs.length, held := none } := by
  rw [compareReport, State.setSweep_sweep, if_pos rfl]

theorem reportCrcs_length (content : List Byte) : (reportCrcs content).length = fieldAt content 2 1 := by
  rw [reportCrcs, List.length_map, List.length_range]

theorem reportCrcs_get {content : List Byte} {i : Nat} (inside : i < fieldAt content 2 1) :
    (reportCrcs content)[i]? = some (BitVec.ofNat 32 (fieldAt content (3 + 4 * i) 4)) := by
  rw [reportCrcs, List.getElem?_map, List.getElem?_range inside]
  rfl

/-- Settles O53: the page counted or the delivery failed, and the list of pages that differ. -/
theorem pageAckAndCheckReport : Obligations.PageAckAndCheckReport := by
  unfold Obligations.PageAckAndCheckReport
  refine ⟨?_, ?_⟩
  · intro s l ex content n d r high held slot attached stands gap line has page same v
    obtain ⟨t, run, later⟩ := takeReply_later (f := takePageAck) high held slot attached stands
    obtain ⟨mem, change⟩ := line_keeps (c := .pageAck l) rfl run
    have here : (overExchange l ex s).delivery n = some d := (overExchange_delivery s l ex n).trans has
    have profile : (overExchange l ex s).slotProfile n = s.slotProfile n :=
      slotProfile_of_wires (overExchange_wires s l ex) (by rw [overExchange_slot])
    refine ⟨t, run, mem, change, fun good => ?_, fun bad => ?_⟩
    · obtain ⟨delivery, wires, sweep, taken⟩ := takePageAck_good (content := content) here page ((ackCrc_iff content _).2 good)
      generalize takePageAck ex content n (overExchange l ex s) = u at later delivery wires sweep taken
      rw [overExchange_slot] at taken
      obtain ⟨delivery', sweep'⟩ := later.taken_book (wires.trans (overExchange_wires s l ex)) (by rw [taken]) line gap
      obtain ⟨k, slot'⟩ := later.taken_slot
      rw [slot', taken]
      exact ⟨delivery'.trans delivery, by rw [sweep', sweep, overExchange_sweep], rfl, rfl⟩
    · obtain ⟨delivery, taken⟩ := takePageAck_bad (content := content) here page (mt (ackCrc_iff content _).1 bad)
      rw [overExchange_slot, profile] at taken
      obtain ⟨k, slot'⟩ := later.taken_slot
      obtain ⟨failures, counters, -⟩ := Slot.failed_fields ({ s.slot n with
        counters := { (s.slot n).counters with tallyFailures := satInc (s.slot n).counters.tallyFailures } } : Slot)
        (s.slotProfile n)
      rw [slot', taken]
      exact ⟨later.delivery_none delivery, counters, failures⟩
  · intro s l ex content n d high held slot attached stands gap line has repair f crc w
    obtain ⟨t, run, later⟩ := takeReply_later (f := takeCheckReport) high held slot attached stands
    obtain ⟨mem, change⟩ := line_keeps (c := .checkReport l) rfl run
    have here : (overExchange l ex s).delivery n = some d := (overExchange_delivery s l ex n).trans has
    refine ⟨t, run, mem, change, ?_⟩
    have taken : takeCheckReport ex content n (overExchange l ex s) = if s.change.changing then
        (overExchange l ex s).setSweep n { s.sweep n with held := some ⟨fieldAt content 0 2, reportCrcs content⟩ }
        else compareReport n ⟨fieldAt content 0 2, reportCrcs content⟩ (overExchange l ex s) := by
      simp only [takeCheckReport, here, repair, ne_eq, not_true, if_false, overExchange_change, overExchange_sweep]
    have kept : (takeCheckReport ex content n (overExchange l ex s)).wires = s.wires ∧
        (takeCheckReport ex content n (overExchange l ex s)).slot n = s.slot n ∧
        (takeCheckReport ex content n (overExchange l ex s)).delivery n = some d := by
      rw [taken]
      split
      · exact ⟨overExchange_wires s l ex, overExchange_slot s l ex n, here⟩
      · exact ⟨overExchange_wires s l ex, overExchange_slot s l ex n, here⟩
    obtain ⟨wires, slot', delivery⟩ := kept
    obtain ⟨delivery', sweep⟩ := later.taken_book wires (by rw [slot']) line gap
    refine ⟨delivery'.trans delivery, fun changing => ?_, fun still => ?_⟩
    · rw [sweep, taken, if_pos changing, State.setSweep_sweep, if_pos rfl]
      rfl
    · rw [sweep, taken, still, if_neg Bool.false_ne_true, compareReport_sweep, overExchange_sweep, overExchange_change]
      refine ⟨differing s.change.table (fieldAt content 0 2) (reportCrcs content), ?_, differing_ascending _ _ _, fun p => ?_⟩
      · rw [reportCrcs_length]
        rfl
      · rw [mem_differing, reportCrcs_length]
        refine exists_congr fun i => and_congr_right fun inside => ?_
        rw [reportCrcs_get inside]
        refine and_congr_right fun here => ?_
        rw [here]
        rfl

end Sys2Proof.Machine

/-!
The answers to an OPEN (R126, R130, R140): the ACCEPT that opens the delivery and, with the last of a group, fixes its common
plan; and the REFUSE by its reason.
-/
namespace Sys2Proof.Machine

/-! ### The common plan (R161) -/

theorem mem_pagesWhere {f : StampRec → Bool} {p : Nat} : ∀ (rs : List StampRec) (i : Nat),
    p ∈ pagesWhere f i rs ↔ i ≤ p ∧ ∃ r, rs[p - i]? = some r ∧ f r = true
  | [], i => by simp [pagesWhere]
  | r :: rs, i => by
    have rest := mem_pagesWhere (f := f) (p := p) rs (i + 1)
    have later : (i + 1 ≤ p ∧ ∃ x, rs[p - (i + 1)]? = some x ∧ f x = true) ↔
        (i < p ∧ ∃ x, (r :: rs)[p - i]? = some x ∧ f x = true) := by
      refine and_congr_right fun less => ?_
      rw [show p - i = (p - (i + 1)) + 1 by omega, List.getElem?_cons_succ]
    rw [later] at rest
    unfold pagesWhere
    have first : (∃ x, (r :: rs)[p - i]? = some x ∧ f x = true) ∧ p = i ↔ p = i ∧ f r = true := by
      constructor
      · rintro ⟨⟨x, here, holds⟩, rfl⟩
        rw [Nat.sub_self] at here
        cases here
        exact ⟨rfl, holds⟩
      · rintro ⟨rfl, holds⟩
        exact ⟨⟨r, by rw [Nat.sub_self]; rfl, holds⟩, rfl⟩
    split
    · next holds =>
      rw [List.mem_cons, rest]
      constructor
      · rintro (rfl | ⟨less, here⟩)
        · exact ⟨le_refl _, (first.2 ⟨rfl, holds⟩).1⟩
        · exact ⟨le_of_lt less, here⟩
      · rintro ⟨low, here⟩
        rcases Nat.eq_or_lt_of_le low with same | less
        · exact .inl same.symm
        · exact .inr ⟨less, here⟩
    · next fails =>
      rw [rest]
      constructor
      · exact fun ⟨less, here⟩ => ⟨le_of_lt less, here⟩
      · rintro ⟨low, here⟩
        rcases Nat.eq_or_lt_of_le low with same | less
        · exact absurd (first.1 ⟨here, same.symm⟩).2 fails
        · exact ⟨less, here⟩

/-- Slot `m` is a member of the group with an open delivery. -/
def State.memberOf (s : State) (g : Group) (m : Fin 24) (d : Delivery) : Prop := m ∈ g.members ∧ s.delivery m = some d

theorem mem_memberDeliveries {s : State} {g : Group} {d : Delivery} :
    d ∈ (g.members.filterMap fun n => s.delivery n) ↔ ∃ m, s.memberOf g m d := by
  simp only [List.mem_filterMap, State.memberOf]

/-- The common plan of a group by the first of its members' deliveries. -/
theorem commonPlan_cases {s : State} {g : Group} {m : Fin 24} {d : Delivery} (member : s.memberOf g m d) :
    ∃ m' d', s.memberOf g m' d' ∧ commonPlan s g =
      if d'.mode.isBlocklist then
        (routineUnion (g.members.filterMap fun n => s.delivery n) s.change.table).filter fun p =>
          !(g.members.filterMap fun n => s.delivery n).all fun d => d.urgent.contains p
      else maskUnion (g.members.filterMap fun n => s.delivery n) d'.total := by
  have mem := mem_memberDeliveries.2 ⟨m, member⟩
  unfold commonPlan
  cases all : g.members.filterMap fun n => s.delivery n with
  | nil =>
    rw [all] at mem
    cases mem
  | cons d' ds =>
    obtain ⟨m', member'⟩ := mem_memberDeliveries.1 (show d' ∈ g.members.filterMap fun n => s.delivery n by rw [all]; exact List.mem_cons_self)
    exact ⟨m', d', member', rfl⟩

theorem mem_commonPlan_edition {s : State} {g : Group} {total : Nat} {m : Fin 24} {d : Delivery} (member : s.memberOf g m d)
    (edition : ∀ m d, s.memberOf g m d → d.mode.isBlocklist = false ∧ d.total = total) (p : Nat) :
    p ∈ commonPlan s g ↔ p < total ∧ ∃ m d, s.memberOf g m d ∧ d.mask.getLsbD p = false := by
  obtain ⟨m', d', member', plan⟩ := commonPlan_cases member
  obtain ⟨mode, same⟩ := edition m' d' member'
  rw [plan, mode, same, if_neg Bool.false_ne_true]
  simp only [maskUnion, List.mem_filter, List.mem_range, List.any_eq_true, mem_memberDeliveries, Bool.not_eq_true']
  refine and_congr_right fun _ => ?_
  constructor
  · rintro ⟨d, ⟨m, member⟩, clear⟩
    exact ⟨m, d, member, clear⟩
  · rintro ⟨m, d, member, clear⟩
    exact ⟨d, ⟨m, member⟩, clear⟩

theorem mem_commonPlan_blocklist {s : State} {g : Group} {m : Fin 24} {d : Delivery} (member : s.memberOf g m d)
    (blocklist : ∀ m d, s.memberOf g m d → d.mode.isBlocklist = true) (p : Nat) :
    p ∈ commonPlan s g ↔ ∃ r, s.change.table[p]? = some r ∧
      ((∃ m d, s.memberOf g m d ∧ d.mode = .delta ∧ d.baseH < r.stamp) ∨
        (∃ m d, s.memberOf g m d ∧ d.mode = .reload ∧ (r.live ≠ 0 ∨ 1 < r.stamp))) ∧
      ∃ m d, s.memberOf g m d ∧ p ∉ d.urgent := by
  obtain ⟨m', d', member', plan⟩ := commonPlan_cases member
  rw [plan, blocklist m' d' member', if_pos rfl]
  have based (r : StampRec) : (((g.members.filterMap fun n => s.delivery n).filter fun d => d.mode = .delta).map
      (·.baseH)).any (fun b => decide (b < r.stamp)) = true ↔ ∃ m d, s.memberOf g m d ∧ d.mode = .delta ∧ d.baseH < r.stamp := by
    simp only [List.any_eq_true, List.mem_map, List.mem_filter, mem_memberDeliveries, decide_eq_true_iff]
    constructor
    · rintro ⟨-, ⟨d, ⟨⟨m, member⟩, delta⟩, rfl⟩, less⟩
      exact ⟨m, d, member, delta, less⟩
    · rintro ⟨m, d, member, delta, less⟩
      exact ⟨_, ⟨d, ⟨⟨m, member⟩, delta⟩, rfl⟩, less⟩
  have whole (r : StampRec) : ((g.members.filterMap fun n => s.delivery n).any (fun d => decide (d.mode = .reload)) &&
      planned .reload 0 r) = true ↔ ∃ m d, s.memberOf g m d ∧ d.mode = .reload ∧ (r.live ≠ 0 ∨ 1 < r.stamp) := by
    simp only [Bool.and_eq_true, List.any_eq_true, mem_memberDeliveries, decide_eq_true_iff, planned, Bool.or_eq_true]
    constructor
    · rintro ⟨⟨d, ⟨m, member⟩, reload⟩, due⟩
      exact ⟨m, d, member, reload, due⟩
    · rintro ⟨m, d, member, reload, due⟩
      exact ⟨⟨d, ⟨m, member⟩, reload⟩, due⟩
  have apart : (!(g.members.filterMap fun n => s.delivery n).all fun d => d.urgent.contains p) = true ↔
      ∃ m d, s.memberOf g m d ∧ p ∉ d.urgent := by
    simp only [Bool.not_eq_true', List.all_eq_false, mem_memberDeliveries, List.contains_iff_mem]
    constructor
    · rintro ⟨d, ⟨m, member⟩, lacks⟩
      exact ⟨m, d, member, lacks⟩
    · rintro ⟨m, d, member, lacks⟩
      exact ⟨d, ⟨m, member⟩, lacks⟩
  rw [List.mem_filter, apart, routineUnion, mem_pagesWhere]
  simp only [Bool.or_eq_true, based, whole, Nat.zero_le, true_and, Nat.sub_zero]
  constructor
  · rintro ⟨⟨r, here, due⟩, lacks⟩
    exact ⟨r, here, due, lacks⟩
  · rintro ⟨r, here, due, lacks⟩
    exact ⟨⟨r, here, due⟩, lacks⟩

/-! ### A group with one OPEN less -/

/-- The group as it is tended: its plan is fixed with the last of its OPENs. -/
def Group.tended (s : State) (g : Group) : Group :=
  if g.planned = false ∧ g.toOpen = [] then { g with planned := true, plan := commonPlan s g } else g

theorem tended_mem {s : State} {g : Group} (here : g ∈ s.sched.groups) (some : g.members ≠ []) :
    g.tended s ∈ (tendGroups s).sched.groups := by
  have keeps : ∀ gs : List Group, (gs.foldl (fun s g => endTurns (.group g.id) s) s).sched.groups = s.sched.groups ∧
      commonPlan (gs.foldl (fun s g => endTurns (.group g.id) s) s) = commonPlan s := fun gs => by
    have same := foldl_keeps (fun s : State => (s.sched.groups, commonPlan s)) (fun s (g : Group) => endTurns (.group g.id) s)
      (fun _ _ => rfl) gs s
    exact Prod.mk.inj same
  unfold tendGroups
  rw [State.setGroups_groups, (keeps _).1, (keeps _).2]
  refine List.mem_map.2 ⟨g, List.mem_filter.2 ⟨here, by simpa using some⟩, ?_⟩
  simp only [Group.tended, Bool.and_eq_true, Bool.not_eq_true', List.isEmpty_iff]

theorem groupOf_mem {s : State} {n : Fin 24} {g : Group} (own : s.groupOf n = some g) : g ∈ s.sched.groups ∧ n ∈ g.members := by
  refine ⟨List.mem_of_find?_eq_some own, ?_⟩
  simpa using List.find?_some own

/-- The group of a member whose OPEN has been answered. -/
def Group.opened (n : Fin 24) (g : Group) : Group := { g with toOpen := g.toOpen.filter fun m => decide (m ≠ n) }

theorem opened_mem {s : State} {n : Fin 24} {g : Group} (own : s.groupOf n = some g) :
    (g.opened n).tended (s.setGroups (s.sched.groups.map (Group.opened n))) ∈ (memberOpened n s).sched.groups := by
  obtain ⟨here, member⟩ := groupOf_mem own
  exact tended_mem (List.mem_map.2 ⟨g, here, rfl⟩) (List.ne_nil_of_mem member)

/-! ### ACCEPT (R126) -/

/-- A re-evaluation changes nothing of a slot but its state. -/
theorem judged_state (c : ChangeEngine) (e : EditionMgr) (v : Slot) : ∃ q, v.judged c e = { v with state := q } := by
  unfold Slot.judged
  split
  · exact ⟨_, rfl⟩
  · exact ⟨v.state, rfl⟩

/-- The delivery that an ACCEPT opens; `alone` says that its slot is in no group. -/
def Delivery.accepted (d : Delivery) (mask : BitVec 64) (alone : Bool) : Delivery :=
  { d with
    phase := .opened, tallyCount := 0, tallySum := 0, mask := mask
    rest := if d.mode.isBlocklist || !alone then d.rest else clearBits mask d.total }

/-- What an ACCEPT records of the slot. -/
def Slot.accepting (d : Delivery) (mask : BitVec 64) (v : Slot) : Slot :=
  match d.mode with
  | .reload => { v with heldId := d.identity, heldH := 0 }
  | .stage | .install => { v with heldPending := some ⟨d.edition, false, mask⟩ }
  | .delta | .repair => v

theorem recordAccept_eq (n : Fin 24) (d : Delivery) (mask : BitVec 64) (s : State) :
    ∃ x, recordAccept n d mask s = { s with roster := x } ∧
      (recordAccept n d mask s).slot n = (s.slot n).accepting d mask := by
  unfold recordAccept Slot.accepting
  cases d.mode with
  | reload | stage | install => exact ⟨_, rfl, by rw [State.modSlot_slot, if_pos rfl]⟩
  | delta | repair => exact ⟨s.roster, rfl, rfl⟩

theorem reevaluate_eq (n : Fin 24) (s : State) : ∃ x, reevaluate n s = { s with roster := x } := by
  unfold reevaluate
  split
  · exact ⟨_, rfl⟩
  · exact ⟨_, rfl⟩
  · exact ⟨s.roster, rfl⟩

/-- The state in which an ACCEPT is recorded, before the group is told. -/
theorem takeAccept_eq {s : State} {ex : Exchange} {content : List Byte} {n : Fin 24} {d : Delivery}
    (has : s.delivery n = some d) : ∃ x, takeAccept ex content n s = memberOpened n
        { s.setDelivery n (some (d.accepted (acceptMask content) (s.groupOf n).isNone)) with roster := x } ∧
      ∃ q, x.slots[n] = { (s.slot n).accepting d (acceptMask content) with state := q } := by
  obtain ⟨x, recorded, slot⟩ := recordAccept_eq n d (acceptMask content)
    (s.setDelivery n (some (d.accepted (acceptMask content) (s.groupOf n).isNone)))
  obtain ⟨y, judged⟩ := reevaluate_eq n (recordAccept n d (acceptMask content)
    (s.setDelivery n (some (d.accepted (acceptMask content) (s.groupOf n).isNone))))
  refine ⟨y, ?_, ?_⟩
  · simp only [takeAccept, has]
    exact congrArg (memberOpened n) (judged.trans (by rw [recorded]))
  · have after := reevaluate_slot (recordAccept n d (acceptMask content)
      (s.setDelivery n (some (d.accepted (acceptMask content) (s.groupOf n).isNone)))) n n
    rw [judged, if_pos rfl, slot] at after
    obtain ⟨q, same⟩ := judged_state (recordAccept n d (acceptMask content)
      (s.setDelivery n (some (d.accepted (acceptMask content) (s.groupOf n).isNone)))).change _ _
    exact ⟨q, after.trans same⟩

/-- No boundary finds a port ready where none was before the reply. -/
theorem not_ready_after {s u : State} {l : Fin 4} (engine : u.engine = s.engine)
    (same : ∀ k, ∃ x r, u.port k = { s.port k with exchange := x, reply := r } ∧
      (l ≠ k → x.isNone = (s.port k).exchange.isNone)) (gap : (s.port l).xstate = .gap)
    (quiet : ∀ k, s.portReady k = false) (k : Fin 4) : u.portReady k = false := by
  obtain ⟨x, r, own, still⟩ := same k
  obtain ⟨y, q, partner, -⟩ := same (partner k)
  by_cases here : l = k
  · subst here
    simp [State.portReady, own, gap]
  · rw [← quiet k]
    simp [State.portReady, State.running, State.lineOn, own, partner, engine, still here]

theorem overExchange_same (s : State) (l : Fin 4) (ex : Exchange) (k : Fin 4) :
    ∃ x r, (overExchange l ex s).port k = { s.port k with exchange := x, reply := r } ∧
      (l ≠ k → x.isNone = (s.port k).exchange.isNone) := by
  rw [overExchange_port]
  split
  · next here => exact ⟨none, none, by rw [here], fun other => absurd here other⟩
  · exact ⟨_, _, rfl, fun _ => rfl⟩

theorem mem_clearBits {mask : BitVec 64} {total p : Nat} : p ∈ clearBits mask total ↔ p < total ∧ mask.getLsbD p = false := by
  simp only [clearBits, List.mem_filter, List.mem_range, Bool.not_eq_true']

theorem isBlocklist_iff (m : Mode) : m.isBlocklist = true ↔ ¬ (m = .stage ∨ m = .install) := by
  cases m <;> simp [Mode.isBlocklist]

/-- What an ACCEPT leaves of its slot, its delivery and the group it is in. -/
theorem accept_taken {s : State} {l : Fin 4} {ex : Exchange} {content : List Byte} {n : Fin 24} {d : Delivery}
    (has : s.delivery n = some d) :
    let u := takeAccept ex content n (overExchange l ex s)
    let d' := d.accepted (acceptMask content) (s.groupOf n).isNone
    (∃ q, u.slot n = { (s.slot n).accepting d (acceptMask content) with state := q }) ∧ u.wires = s.wires ∧
    (∀ k, u.delivery k = if n = k then some d' else s.delivery k) ∧ u.change = s.change ∧
    ∀ g, s.groupOf n = some g → ∃ v : State, (∀ k, v.delivery k = u.delivery k) ∧ v.change = s.change ∧
      (g.opened n).tended v ∈ u.sched.groups := by
  have here : (overExchange l ex s).delivery n = some d := (overExchange_delivery s l ex n).trans has
  have group : (overExchange l ex s).groupOf n = s.groupOf n := by rw [State.groupOf, overExchange_groups, State.groupOf]
  obtain ⟨x, taken, q, slot⟩ := takeAccept_eq (ex := ex) (content := content) here
  rw [group] at taken
  rw [overExchange_slot] at slot
  have deliveries (k : Fin 24) : ({ (overExchange l ex s).setDelivery n
      (some (d.accepted (acceptMask content) (s.groupOf n).isNone)) with roster := x } : State).delivery k =
      if n = k then some (d.accepted (acceptMask content) (s.groupOf n).isNone) else s.delivery k := by
    rw [← overExchange_delivery s l ex k]
    exact State.setDelivery_delivery ..
  dsimp only
  rw [taken]
  refine ⟨⟨q, by rw [memberOpened_slot]; exact slot⟩, ?_, fun k => ?_, ?_, fun g own => ?_⟩
  · rw [memberOpened_wires]
    exact overExchange_wires s l ex
  · rw [memberOpened_delivery, deliveries]
  · rw [memberOpened_change]
    exact overExchange_change s l ex
  · refine ⟨_, fun k => ?_, ?_, opened_mem (by rw [← own]; exact group)⟩
    · rw [memberOpened_delivery]
      rfl
    · exact overExchange_change s l ex

theorem recordAccept_ports (n : Fin 24) (d : Delivery) (mask : BitVec 64) (s : State) :
    (reevaluate n (recordAccept n d mask s)).ports = s.ports := by
  obtain ⟨x, judged⟩ := reevaluate_eq n (recordAccept n d mask s)
  obtain ⟨y, recorded, -⟩ := recordAccept_eq n d mask s
  rw [judged, recorded]

theorem takeAccept_ports (ex : Exchange) (content : List Byte) (n : Fin 24) (s : State) :
    (takeAccept ex content n s).ports = s.ports := by
  have opened (u : State) : (memberOpened n u).ports = u.ports := by
    rw [memberOpened, tendGroups_ports]
    rfl
  unfold takeAccept
  split
  · rfl
  · dsimp only
    rw [opened, recordAccept_ports]
    rfl

/-! ### REFUSE (R140) -/

/-- No group holds slot `n`, and none is empty. -/
def Outside (n : Fin 24) (gs : List Group) : Prop := ∀ g ∈ gs, n ∉ g.members ∧ g.members ≠ []

theorem outside_leave (n : Fin 24) : LeaveKeeps (Outside n) := by
  intro s m outside g member
  obtain ⟨h, here, some, same⟩ := mem_leaveGroup member
  have own : n ∉ (h.without m).members := fun inside => (outside h here).1 (List.mem_of_mem_filter inside)
  rcases same with ⟨rfl, -⟩ | ⟨-, -, plan, rfl⟩ <;> exact ⟨own, some⟩

theorem leaveGroup_outside (n : Fin 24) (s : State) : Outside n (leaveGroup n s).sched.groups := by
  intro g member
  obtain ⟨h, here, some, same⟩ := mem_leaveGroup member
  have own : n ∉ (h.without n).members := fun inside => by simpa using (List.mem_filter.1 inside).2
  rcases same with ⟨rfl, -⟩ | ⟨-, -, plan, rfl⟩ <;> exact ⟨own, some⟩

theorem endDelivery_outside {n : Fin 24} {s : State} {d : Delivery} (has : s.delivery n = some d) :
    Outside n (endDelivery n s).sched.groups := by
  have dropped : Outside n (dropDelivery n s).sched.groups := by
    rw [dropDelivery, has]
    exact leaveGroup_outside n _
  unfold endDelivery
  rw [has]
  dsimp only
  split
  · exact dropped
  · exact dropped

/-- No boundary takes a slot into a group that no delivery can be made to. -/
theorem bounds_outside (n : Fin 24) (u : State) (shut : u.deliverable n = false) :
    Bounds fun v => v.bare = u.bare ∧ Outside n v.sched.groups where
  turn s l f _ kept := ⟨kept.1, kept.2⟩
  hand s l w _ _ kept := ⟨(handOver_bare s l w).trans kept.1, kept.2⟩
  leave s m kept := ⟨(leaveGroup_bare s m).trans kept.1, outside_leave n s m kept.2⟩
  abandons s m l _ _ _ kept := ⟨(abandon_bare s m).trans kept.1, (outside_leave n).abandon s m kept.2⟩
  forms s g _ _ _ _ able kept := by
    obtain ⟨bare, outside⟩ := kept
    obtain ⟨some, able⟩ := able
    refine ⟨bare, fun h member => ?_⟩
    rcases List.mem_append.1 member with old | new
    · exact outside h old
    · rw [List.mem_singleton.1 new]
      refine ⟨fun inside => ?_, some⟩
      have open_ := able n inside
      rw [deliverable_of_bare bare, shut] at open_
      cases open_

theorem quarantine_outside {n : Fin 24} (r : Reason) {s : State} (outside : Outside n s.sched.groups) :
    Outside n (quarantine n r s).sched.groups := by
  unfold quarantine
  split
  · exact outside
  · have left := (outside_leave n).abandon (withdraw n (fun _ => true) false s) n outside
    rw [raiseForSlot_sched]
    split
    · exact left
    · exact left

/-! The three ways a REFUSE ends the delivery. -/

section
variable {s : State} {w : Work} {n : Fin 24} {d : Delivery} (has : s.delivery n = some d)
include has

theorem refused_store : refused w 4 n s = quarantine n .store (endDelivery n s) := by
  simp only [refused, has, if_true]

theorem refused_identity (reloads : refusalReloads w d.mode = true) :
    refused w 1 n s = reevaluate n (forceReload n (endDelivery n s)) := by
  simp [refused, has, reloads]

theorem refused_failure {reason : Nat} (other : reason ≠ 4) (no : ¬ (reason = 1 ∧ refusalReloads w d.mode = true)) :
    refused w reason n s = countFailure n (endDelivery n s) := by
  simp only [refused, has, other, no, if_false, deliveryFailure]

end

theorem forceReload_slot (n : Fin 24) (s : State) :
    ∃ q, (reevaluate n (forceReload n s)).slot n = { s.slot n with reload := true, heldH := 0, state := q } := by
  obtain ⟨q, same⟩ := judged_state (forceReload n s).change (forceReload n s).editions ((forceReload n s).slot n)
  refine ⟨q, ?_⟩
  rw [reevaluate_slot, if_pos rfl, same, forceReload, State.modSlot_slot, if_pos rfl]

theorem forceReload_keeps (n : Fin 24) (s : State) : (reevaluate n (forceReload n s)).sched = s.sched ∧
    (reevaluate n (forceReload n s)).sweeps = s.sweeps ∧ (reevaluate n (forceReload n s)).ports = s.ports := by
  obtain ⟨x, same⟩ := reevaluate_eq n (forceReload n s)
  rw [same]
  exact ⟨rfl, rfl, rfl⟩

theorem endDelivery_same (n : Fin 24) (s : State) (k : Fin 4) : ∃ x, (endDelivery n s).port k = { s.port k with exchange := x } ∧
    x.isNone = (s.port k).exchange.isNone := by
  have dropped : ∃ x, (dropDelivery n s).port k = { s.port k with exchange := x } ∧
      x.isNone = (s.port k).exchange.isNone := by
    unfold dropDelivery
    split
    · refine ⟨_, (leaveGroup_port _ n k).trans (unlist_port (s.setDelivery n none) n k), ?_⟩
      exact Option.isNone_map ..
    · exact ⟨_, rfl, rfl⟩
  unfold endDelivery
  split
  · split
    · exact dropped
    · exact dropped
  · exact ⟨_, rfl, rfl⟩

/-- The state in which the REFUSE is counted and its exchange is over. -/
def refusalOver (l : Fin 4) (ex : Exchange) (n : Fin 24) (s : State) : State :=
  overExchange l ex (count n (fun k => { k with refusals := satInc k.refusals }) s)

/-- A slot with its REFUSE counted. -/
def Slot.refusing (v : Slot) : Slot := { v with counters := { v.counters with refusals := satInc v.counters.refusals } }

theorem execRefuse_eq {s : State} {l : Fin 4} {ex : Exchange} {content : List Byte} {n : Fin 24}
    (held : s.replyHeld l 0x91 = some (ex, content)) (slot : ex.work.slot = some n) (attached : ex.detached = false)
    (stands : ex.withdrawn = false) : takeReply l Code.refuse takeRefuse (countRefusal l s) =
      setKeepalive n (refused ex.work (refuseReason content) n (refusalOver l ex n s)) := by
  have code : s.replyHeld l Code.refuse = some (ex, content) := held
  have counted : countRefusal l s = count n (fun k => { k with refusals := satInc k.refusals }) s := by
    simp only [countRefusal, code, onSlot, Exchange.slot, attached, slot, Bool.false_eq_true, if_false]
  rw [counted]
  exact takeReply_eq (s := count n (fun k => { k with refusals := satInc k.refusals }) s) held slot attached stands

section
variable {s : State} {l : Fin 4} {ex : Exchange} {n : Fin 24} {d : Delivery} (has : s.delivery n = some d)

theorem refusalOver_slot : (refusalOver l ex n s).slot n = (s.slot n).refusing := by
  rw [refusalOver, overExchange_slot, count, State.modSlot_slot, if_pos rfl]
  rfl

theorem refusalOver_profile : (endDelivery n (refusalOver l ex n s)).slotProfile n = s.slotProfile n := by
  have wires : (refusalOver l ex n s).wires = s.wires := overExchange_wires _ l ex
  refine slotProfile_of_wires ((endDelivery_wires _ n).trans wires) ?_
  rw [endDelivery_slot, refusalOver_slot]
  rfl

theorem refusalOver_same (k : Fin 4) : ∃ x r, (endDelivery n (refusalOver l ex n s)).port k =
    { s.port k with exchange := x, reply := r } ∧ (l ≠ k → x.isNone = (s.port k).exchange.isNone) := by
  obtain ⟨x, same, ended⟩ := endDelivery_same n (refusalOver l ex n s) k
  obtain ⟨y, r, over_, still⟩ := overExchange_same (count n (fun k => { k with refusals := satInc k.refusals }) s) l ex k
  have over_ : (refusalOver l ex n s).port k = { s.port k with exchange := y, reply := r } := over_
  rw [over_] at same ended
  exact ⟨x, r, same, fun other => ended.trans (still other)⟩

include has

theorem refusalOver_delivery : (refusalOver l ex n s).delivery n = some d := by
  rw [refusalOver, overExchange_delivery]
  exact has

theorem refusalOver_sweep (repair : d.mode = .repair) :
    (endDelivery n (refusalOver l ex n s)).sweep n = (s.sweep n).cut := by
  have own : (refusalOver l ex n s).sweep n = s.sweep n := overExchange_sweep _ l ex n
  rw [endDelivery_sweep, if_pos rfl, State.sweepEnded, refusalOver_delivery has, Option.map_some, repair, if_pos rfl, own]

end

/-- What a REFUSE leaves, by its reason: of the slot, of its sweep record, and of the groups. -/
theorem refused_cases {s : State} {l : Fin 4} {ex : Exchange} {n : Fin 24} {d : Delivery} (has : s.delivery n = some d)
    (reason : Nat) :
    let u := refused ex.work reason n (refusalOver l ex n s)
    let e := endDelivery n (refusalOver l ex n s)
    let v := (s.slot n).refusing
    let p := s.slotProfile n
    u.delivery n = none ∧ u.sweep n = e.sweep n ∧ Outside n u.sched.groups ∧
    ((reason = 4 ∧ u.slot n = v.quarantinedFor .store p.interval) ∨
      (reason = 1 ∧ refusalReloads ex.work d.mode = true ∧ u.ports = e.ports ∧ u.engine = s.engine ∧
        ∃ q, u.slot n = { v with reload := true, heldH := 0, state := q }) ∨
      (reason ≠ 4 ∧ ¬ (reason = 1 ∧ refusalReloads ex.work d.mode = true) ∧ u.slot n = v.failed p)) := by
  intro u e v p
  have has' : (refusalOver l ex n s).delivery n = some d := refusalOver_delivery has
  have gone : e.delivery n = none := by rw [endDelivery_delivery, if_pos rfl]
  have slot : e.slot n = v := by rw [endDelivery_slot, refusalOver_slot]
  have profile : e.slotProfile n = p := refusalOver_profile
  have outside : Outside n e.sched.groups := endDelivery_outside has'
  have engine : (reevaluate n (forceReload n e)).engine = s.engine := by simp [e, refusalOver]
  by_cases store : reason = 4
  · have same : u = quarantine n .store e := by
      simp only [u, store]
      exact refused_store has'
    rw [same, quarantine_sweep n n .store gone, quarantine_slot, if_pos rfl, slot, profile]
    refine ⟨?_, rfl, quarantine_outside .store outside, .inl ⟨store, rfl⟩⟩
    rw [quarantine_delivery, gone, ite_self]
  · by_cases reloads : reason = 1 ∧ refusalReloads ex.work d.mode = true
    · obtain ⟨rfl, reloads⟩ := reloads
      have same : u = reevaluate n (forceReload n e) := refused_identity has' reloads
      obtain ⟨sched, sweeps, ports⟩ := forceReload_keeps n e
      obtain ⟨q, taken⟩ := forceReload_slot n e
      rw [slot] at taken
      rw [same]
      refine ⟨?_, ?_, by rw [sched]; exact outside, .inr (.inl ⟨rfl, reloads, ports, engine, q, taken⟩)⟩
      · rw [State.delivery, sched]
        exact gone
      · rw [State.sweep, sweeps, State.sweep]
    · have same : u = countFailure n e := refused_failure has' store reloads
      rw [same, countFailure_slot, if_pos rfl, slot, profile, countFailure_sweep n n gone, countFailure_delivery n n gone]
      refine ⟨gone, rfl, ?_, .inr (.inr ⟨store, reloads, rfl⟩)⟩
      rw [countFailure_eq]
      split
      · exact quarantine_outside .failures outside
      · exact outside

theorem quarantinedFor_fields {v : Slot} (other : v.state ≠ .quarantined) (r : Reason) (i : Time) :
    ∃ k, v.quarantinedFor r i =
      { v with state := .quarantined, reason := r, kept := none, identify := none, keepalive := k } := by
  rw [Slot.quarantinedFor, if_neg other]
  exact ⟨_, rfl⟩

/-- A slot that has just failed, or been quarantined, is one that no delivery can be made to. -/
theorem failed_shut {u : State} {n : Fin 24} {v : Slot} {p : Profile} (taken : u.slot n = v.failed p) :
    u.deliverable n = false := by
  obtain ⟨-, -, backoff, -⟩ := Slot.failed_fields v p
  simp [State.deliverable, taken, backoff, Slot.closedFor]

/-- Settles O52: the ACCEPT by what it records and by its group, the REFUSE by its three ways to end the delivery. -/
theorem openAnswered : Obligations.OpenAnswered := by
  unfold Obligations.OpenAnswered
  refine ⟨?_, ?_⟩
  · intro s l ex content n d high held slot attached stands gap line has mask edition
    obtain ⟨t, run, later⟩ := takeReply_later (f := takeAccept) high held slot attached stands
    obtain ⟨mem, change⟩ := line_keeps (c := .accept l) rfl run
    obtain ⟨⟨q, taken⟩, wires, deliveries, -, groups⟩ := accept_taken (l := l) (ex := ex) (content := content) has
    have ports := takeAccept_ports ex content n (overExchange l ex s)
    have engine : (takeAccept ex content n (overExchange l ex s)).engine = s.engine := by simp
    generalize takeAccept ex content n (overExchange l ex s) = u at later taken wires deliveries groups ports engine
    obtain ⟨k, slot'⟩ := later.taken_slot
    have bound : (u.slot n).binding = (s.slot n).binding := by
      rw [taken]
      unfold Slot.accepting
      cases d.mode <;> rfl
    obtain ⟨delivery, -⟩ := later.taken_book wires bound line gap
    rw [deliveries, if_pos rfl] at delivery
    have blocklist : d.mode.isBlocklist = true ↔ ¬ edition := isBlocklist_iff d.mode
    refine ⟨t, _, run, mem, change, delivery, rfl, fun whole => ?_, fun ed alone p => ?_, fun reload => ?_, fun other => ?_,
      fun ed => ?_, fun bl => ?_, ?_, ?_, fun g own quiet => ?_⟩
    · rw [Delivery.accepted, if_pos]
      rcases whole with bl | joined
      · rw [blocklist.2 bl, Bool.true_or]
      · obtain ⟨g, own⟩ := Option.ne_none_iff_exists'.1 joined
        simp [own]
    · have mode : d.mode.isBlocklist = false := by
        rw [← Bool.not_eq_true, blocklist]
        exact not_not.2 ed
      rw [Delivery.accepted, mode, alone]
      exact mem_clearBits
    · rw [slot', taken, Slot.accepting, reload]
      exact ⟨rfl, rfl⟩
    · rw [slot', taken, Slot.accepting]
      cases mode : d.mode with
      | reload => exact absurd mode other
      | _ => exact ⟨rfl, rfl⟩
    · rw [slot', taken, Slot.accepting]
      rcases ed with mode | mode <;> rw [mode] <;> rfl
    · rw [slot', taken, Slot.accepting]
      cases mode : d.mode with
      | stage => exact absurd (.inl mode) bl
      | install => exact absurd (.inr mode) bl
      | _ => rfl
    · rw [slot', taken, Slot.accepting]
      cases d.mode <;> rfl
    · rw [slot', taken, Slot.accepting]
      cases d.mode <;> rfl
    · intro left member
      obtain ⟨v, same, image, here⟩ := groups g own
      obtain ⟨sched, -⟩ := later.quiet (not_ready_after (l := l) engine (fun k => by
        rw [setKeepalive_port, State.port, ports]
        exact overExchange_same s l ex k) gap quiet)
      have sched : t.sched = u.sched := sched
      have members (m : Fin 24) (dm : Delivery) : member m dm ↔ v.memberOf (g.opened n) m dm := by
        have has' : t.delivery m = v.delivery m := by rw [same, State.delivery, sched, State.delivery]
        simp only [member, State.memberOf, Group.opened, has']
      have own : v.memberOf (g.opened n) n (d.accepted (acceptMask content) (s.groupOf n).isNone) :=
        (members _ _).1 ⟨(groupOf_mem own).2, delivery⟩
      rw [sched]
      refine ⟨_, here, ?_⟩
      unfold Group.tended
      split
      · next due =>
        obtain ⟨open_, done⟩ := due
        refine ⟨rfl, rfl, rfl, fun more => ?_, fun _ _ => ⟨rfl, fun ed all p => ?_, fun bl all p => ?_⟩⟩
        · rcases more with some | planned
          · exact absurd done some
          · exact absurd (planned.symm.trans open_) (by decide)
        · simp only [members] at all ⊢
          exact mem_commonPlan_edition own all p
        · simp only [members] at all ⊢
          rw [← image]
          exact mem_commonPlan_blocklist own all p
      · next rests => exact ⟨rfl, rfl, rfl, fun _ => rfl, fun done open_ => absurd ⟨open_, done⟩ rests⟩
  · intro s l ex content n d high held slot attached stands has sound reason v limit reloads
    have step : exec (.refuse l) s = scheduled s fun s => takeReply l Code.refuse takeRefuse (countRefusal l s) := rfl
    have run := step.trans (scheduled_next high)
    rw [execRefuse_eq held slot attached stands] at run
    obtain ⟨mem, change⟩ := line_keeps (c := .refuse l) rfl run
    have iff : refusalReloads ex.work d.mode = true ↔ reloads := by
      simp only [reloads, refusalReloads]
      cases ex.work <;> simp
    obtain ⟨gone, sweep, outside, taken⟩ := refused_cases (l := l) (ex := ex) has (refuseReason content)
    have cut := refusalOver_sweep (l := l) (ex := ex) has
    have same := refusalOver_same (s := s) (l := l) (ex := ex) (n := n)
    have later := later_boundaries s (setKeepalive n (refused ex.work (refuseReason content) n (refusalOver l ex n s)))
    have code : refuseReason content = reason := rfl
    rw [code] at run mem change gone sweep outside taken later
    generalize refused ex.work reason n (refusalOver l ex n s) = u at run mem change gone sweep outside taken later
    have groups : (s.port l).xstate = .gap → (∀ m, s.portReady m = false) →
        Outside n (settle s (boundaries (setKeepalive n u))).sched.groups := by
      intro gap quiet
      have shut (shut : u.deliverable n = false) : Outside n (settle s (boundaries (setKeepalive n u))).sched.groups := by
        have shut : (setKeepalive n u).deliverable n = false := by
          rw [← shut]
          simp only [State.deliverable, setKeepalive_slot, if_true]
        exact ((bounds_outside n (setKeepalive n u) shut).boundaries (s := setKeepalive n u) ⟨rfl, outside⟩).2
      rcases taken with ⟨-, taken⟩ | ⟨-, -, ports, engine, -⟩ | ⟨-, -, taken⟩
      · obtain ⟨k, same⟩ := quarantinedFor_fields (v := (s.slot n).refusing) sound .store (s.slotProfile n).interval
        exact shut (by simp [State.deliverable, taken, same])
      · obtain ⟨sched, -⟩ := later.quiet (not_ready_after (l := l) engine (fun k => by
          rw [setKeepalive_port, State.port, ports]
          exact same k) gap quiet)
        rw [sched]
        exact outside
      · exact shut (failed_shut taken)
    revert run mem change later groups
    generalize settle s (boundaries (setKeepalive n u)) = t
    intro run mem change later groups
    obtain ⟨k, slot'⟩ := later.taken_slot
    have sweep' : t.sweep n = u.sweep n := later.sweep_of_none gone
    refine ⟨t, run, mem, change, later.delivery_none gone, ?_⟩
    rw [slot']
    have fields : (u.slot n).counters = (s.slot n).refusing.counters ∧ (u.slot n).heldId = v.heldId ∧
        (u.slot n).heldActive = v.heldActive := by
      rcases taken with ⟨-, taken⟩ | ⟨-, -, -, -, q, taken⟩ | ⟨-, -, taken⟩ <;> rw [taken]
      · obtain ⟨k, same⟩ := quarantinedFor_fields (v := (s.slot n).refusing) sound .store (s.slotProfile n).interval
        rw [same]
        exact ⟨rfl, rfl, rfl⟩
      · exact ⟨rfl, rfl, rfl⟩
      · obtain ⟨-, counters, -, -, -, -, heldId, -, heldActive, -⟩ := Slot.failed_fields (s.slot n).refusing (s.slotProfile n)
        exact ⟨counters, heldId, heldActive⟩
    obtain ⟨counters, heldId, heldActive⟩ := fields
    refine ⟨counters, heldId, heldActive, groups, fun repair => ?_, fun store => ?_, fun identity forces => ?_,
      fun other no => ?_⟩
    · rw [sweep', sweep, cut repair]
      rfl
    · rcases taken with ⟨-, taken⟩ | ⟨identity, -⟩ | ⟨other, -⟩
      · obtain ⟨k, same⟩ := quarantinedFor_fields (v := (s.slot n).refusing) sound .store (s.slotProfile n).interval
        rw [taken, same]
        exact ⟨rfl, rfl, rfl⟩
      · omega
      · exact absurd store other
    · rcases taken with ⟨store, -⟩ | ⟨-, -, -, -, q, taken⟩ | ⟨-, no, -⟩
      · omega
      · rw [taken]
        exact ⟨rfl, rfl, rfl, rfl⟩
      · exact absurd ⟨identity, iff.2 forces⟩ no
    · rcases taken with ⟨store, -⟩ | ⟨identity, forces, -⟩ | ⟨-, -, taken⟩
      · exact absurd store other
      · exact absurd ⟨identity, iff.1 forces⟩ no
      · obtain ⟨failures, -, backoff, reload, -, -, -, heldH, -⟩ := Slot.failed_fields (s.slot n).refusing (s.slotProfile n)
        have state := Slot.failed_state (s.slot n).refusing (s.slotProfile n)
        rw [taken]
        refine ⟨failures, reload, heldH, backoff, fun reached => ⟨?_, Slot.failed_reason _ _ reached sound⟩, fun below => ?_⟩
        · exact state.trans (if_pos reached)
        · exact state.trans (if_neg (not_le.2 below))

end Sys2Proof.Machine

/-!
The end of the turnaround gap (R104, R109, R110, R112, R113): IDLE, the next attempt, or the second copy.
-/
namespace Sys2Proof.Machine

/-! ### A frame that a port drives -/

theorem flagByte_eq : ∀ (tag : BitVec 4) (noReply again : Bool), flagByte tag noReply again =
    tag.setWidth 8 + (if noReply then 0x10 else 0) + (if again then 0x20 else 0) := by decide

/-- The frame of exchange `ex`. -/
def Exchange.frame (ex : Exchange) : List Byte :=
  frameBytes (BitVec.ofNat 8 ex.addr) ex.code (flagByte ex.tag ex.noReply ex.repeated) ex.content

theorem frame_head (ex : Exchange) : ex.frame.take 6 =
    [0xB4, BitVec.ofNat 8 ex.addr, ex.code, flagByte ex.tag ex.noReply ex.repeated] ++ leBytes 2 ex.content.length := by
  unfold Exchange.frame frameBytes
  dsimp only
  rw [List.append_assoc, List.take_append_of_le_length (by simp [leBytes_length])]
  exact List.take_of_length_le (by simp [leBytes_length])

theorem frame_content (ex : Exchange) : (ex.frame.drop 9).take ex.content.length = ex.content := by
  by_cases empty : ex.content = []
  · rw [empty]
    rfl
  · unfold Exchange.frame frameBytes
    dsimp only
    rw [if_neg empty]
    have whole (front back : List Byte) (mark : Byte) (short : front.length = 8) :
        ((front ++ (mark :: ex.content ++ back)).drop 9).take ex.content.length = ex.content := by
      rw [List.drop_append, short, List.drop_eq_nil_of_le (by omega), List.nil_append, List.cons_append]
      exact List.take_left
    refine whole _ _ _ ?_
    simp [leBytes_length]

/-- The port that drives a frame. -/
theorem drive_own (l : Fin 4) (ex : Exchange) (s : State) : ∃ c, (drive l ex s).port l =
    { s.port l with
      xstate := .sending, exchange := some ex, tx := ex.frame, gap := ex.gap, rate := ex.rate, rxSide := ex.side
      sendLeft := ex.frame.length * byteTime ex.rate, counters := c } := by
  unfold drive countLine
  dsimp only
  rw [State.modPort_port]
  split
  · next here =>
    rw [here, State.modPort_port, if_pos rfl]
    exact ⟨_, rfl⟩
  · rw [State.modPort_port, if_pos rfl]
    exact ⟨_, rfl⟩

/-- The frame counts at the port of its side (R114). -/
theorem drive_counts (l : Fin 4) (ex : Exchange) (s : State) : ((drive l ex s).port (sidePort l ex.side)).counters =
    { (s.port (sidePort l ex.side)).counters with sent := satInc (s.port (sidePort l ex.side)).counters.sent } := by
  unfold drive countLine
  dsimp only
  rw [State.modPort_port, if_pos rfl, State.modPort_port]
  split
  · next here => rw [← here]
  · rfl

/-! ### The end of the ACTIVATE broadcast (R156) -/

theorem broadcastOver_port (l : Fin 4) (ex : Exchange) (s : State) (k : Fin 4) : (broadcastOver l ex s).port k = s.port k := by
  unfold broadcastOver broadcastEnds
  split
  · refine forSlots_keeps (fun s : State => s.port k) _ (fun n s => ?_) allSlots _
    split <;> rfl
  · rfl

theorem broadcastOver_roster (l : Fin 4) (ex : Exchange) (s : State) : (broadcastOver l ex s).roster = s.roster := by
  unfold broadcastOver broadcastEnds
  split
  · refine forSlots_keeps State.roster _ (fun n s => ?_) allSlots _
    split <;> rfl
  · rfl

/-- Slot `n` takes its confirm-due mark if it is an unconfirmed one of line `l`. -/
def confirmOf (l : Fin 4) (n : Fin 24) (s : State) : State :=
  if s.lineOf n = some l ∧ (s.slot n).unconfirmed = true then s.modMarks n fun m => { m with confirmDue := true } else s

theorem broadcastEnds_eq (l : Fin 4) (s : State) : broadcastEnds l s =
    forSlots (confirmOf l) allSlots (s.modArbiter l fun a => { a with activateDue := none }) := rfl

theorem broadcastEnds_due (l : Fin 4) (s : State) : ((broadcastEnds l s).arbiter l).activateDue = none := by
  have keeps := forSlots_keeps (fun s : State => (s.arbiter l).activateDue) (confirmOf l)
    (fun n s => by unfold confirmOf; split <;> rfl) allSlots (s.modArbiter l fun a => { a with activateDue := none })
  rw [broadcastEnds_eq, keeps, State.modArbiter_arbiter, if_pos rfl]

theorem broadcastEnds_confirm {l : Fin 4} {s : State} {n : Fin 24} (line : s.lineOf n = some l)
    (open_ : (s.slot n).unconfirmed = true) : ((broadcastEnds l s).marks n).confirmDue = true := by
  have go : ∀ (ns : List (Fin 24)) (u : State), u.roster = s.roster → (n ∈ ns ∨ (u.marks n).confirmDue = true) →
      ((forSlots (confirmOf l) ns u).marks n).confirmDue = true := by
    intro ns
    induction ns with
    | nil => exact fun u _ due => due.resolve_left List.not_mem_nil
    | cons m ns ih =>
      intro u roster due
      have line : u.lineOf n = some l := by rw [← line, State.lineOf, State.slot, roster, State.lineOf, State.slot]
      have open_ : (u.slot n).unconfirmed = true := by rw [← open_, State.slot, roster, State.slot]
      have step : forSlots (confirmOf l) (m :: ns) u = forSlots (confirmOf l) ns (confirmOf l m u) := rfl
      have kept : (confirmOf l m u).roster = s.roster := by
        unfold confirmOf
        split <;> exact roster
      rw [step]
      refine ih _ kept ?_
      by_cases here : m = n
      · subst here
        rw [confirmOf, if_pos ⟨line, open_⟩, State.modMarks_marks, if_pos rfl]
        exact .inr rfl
      · refine due.imp (fun member => (List.mem_cons.1 member).resolve_left (Ne.symm here)) fun due => ?_
        unfold confirmOf
        split
        · rw [State.modMarks_marks, if_neg here]
          exact due
        · exact due
  exact go allSlots _ rfl (.inl (List.mem_finRange n))

/-! ### GAP_END -/

/-- The state in which the gap of line `l` counts as idle time. -/
def gapOver (l : Fin 4) (s : State) : State := s.modPort l fun p => { idleFor p.gapLeft p with gapLeft := 0 }

theorem gapOver_port (l k : Fin 4) (s : State) :
    (gapOver l s).port k = if l = k then { idleFor (s.port l).gapLeft (s.port l) with gapLeft := 0 } else s.port k :=
  State.modPort_port ..

theorem gapOver_looped (l k : Fin 4) (s : State) : (gapOver l s).looped k = s.looped k := by
  have applied (j : Fin 4) : ((gapOver l s).port j).applied = (s.port j).applied := by
    rw [gapOver_port]
    split
    · next here => rw [← here]; rfl
    · rfl
  unfold State.looped
  rw [applied, applied]

theorem gapOver_brokenLoop (l k : Fin 4) (s : State) : (gapOver l s).brokenLoop k = s.brokenLoop k := by
  have broken : ((gapOver l s).port k).broken = (s.port k).broken := by
    rw [gapOver_port]
    split
    · next here => rw [← here]; rfl
    · rfl
  rw [State.brokenLoop, gapOver_looped, broken, State.brokenLoop]

theorem overExchange_roster (s : State) (l : Fin 4) (ex : Exchange) : (overExchange l ex s).roster = s.roster := by
  unfold overExchange
  dsimp only
  split_ifs <;> rfl

theorem endQuietly_roster (s : State) (l : Fin 4) (ex : Exchange) : (endQuietly l ex s).roster = s.roster :=
  overExchange_roster s l ex

theorem endQuietly_port (s : State) (l : Fin 4) (ex : Exchange) :
    (endQuietly l ex s).port l = { s.port l with exchange := none, reply := none, xstate := .idle } := by
  rw [endQuietly, toIdle, State.modPort_port, if_pos rfl, overExchange_port, if_pos rfl]

theorem endQuietly_due (s : State) (l k : Fin 4) (ex : Exchange) :
    ((endQuietly l ex s).arbiter k).activateDue = (s.arbiter k).activateDue := by
  have turned (f : Arbiter → Arbiter) (keeps : ∀ a, (f a).activateDue = a.activateDue) (u : State) :
      ((u.modArbiter l f).arbiter k).activateDue = (u.arbiter k).activateDue := by
    rw [State.modArbiter_arbiter]
    split
    · next here => rw [keeps, here]
    · rfl
  change ((overExchange l ex s).arbiter k).activateDue = _
  unfold overExchange
  dsimp only
  split_ifs
  · exact turned (fun a => { a with turn := a.turn.map fun u => { u with burst := u.burst + 1 } }) (fun _ => rfl) _
  · exact turned (fun a => { a with turn := none }) (fun _ => rfl) _
  · rfl

theorem endQuietly_marks (s : State) (l : Fin 4) (ex : Exchange) (n : Fin 24) :
    (endQuietly l ex s).marks n = s.marks n := overExchange_marks s l ex n

theorem afterFirstCopy_roster (s : State) (l : Fin 4) (ex : Exchange) : (afterFirstCopy l ex s).roster = s.roster := by
  unfold afterFirstCopy
  split
  · rfl
  · rw [endQuietly_roster, broadcastOver_roster]

/-- What follows the gap of a port with exchange `ex` (R109, R110, R113). -/
def gapNext (l : Fin 4) (ex : Exchange) (s : State) : State :=
  if ex.started = false then toIdle l s
  else
    match ex.after with
    | .copy => afterFirstCopy l ex s
    | .attempt =>
      if ex.withdrawn || (decide (ex.work = .discovery) && !s.brokenLoop l) then endQuietly l ex s else nextAttempt l ex s
    | .nothing => endQuietly l ex s

theorem gapNext_roster (l : Fin 4) (ex : Exchange) (s : State) : (gapNext l ex s).roster = s.roster := by
  unfold gapNext
  split
  · rfl
  · split
    · exact afterFirstCopy_roster s l ex
    · split
      · exact endQuietly_roster s l ex
      · rfl
    · exact endQuietly_roster s l ex

section
variable {s : State} {l : Fin 4} (high : s.resetLow = false) (work : s.working = true) (gap : (s.port l).xstate = .gap)
  (free : (s.port l).reply = none)
include high work gap free

theorem exec_gapEnd_none (has : (s.port l).exchange = none) :
    ∃ t, exec (.gapEnd l) s = .next t ∧ Later (toIdle l (gapOver l s)) t := by
  have step : exec (.gapEnd l) s = execGapEnd l s := rfl
  refine ⟨_, ?_, later_boundaries s (toIdle l (gapOver l s))⟩
  rw [step, execGapEnd, scheduled_next high]
  simp only [gap, free, work, has, ne_eq, not_true, Option.isSome_none, Bool.false_eq_true, Bool.true_eq_false, or_self, if_false]
  rfl

theorem exec_gapEnd_some {ex : Exchange} (has : (s.port l).exchange = some ex) :
    ∃ t, exec (.gapEnd l) s = .next t ∧ Later (gapNext l ex (gapOver l s)) t := by
  have step : exec (.gapEnd l) s = execGapEnd l s := rfl
  refine ⟨_, ?_, later_boundaries s (gapNext l ex (gapOver l s))⟩
  rw [step, execGapEnd, scheduled_next high]
  simp only [gap, free, work, has, ne_eq, not_true, Option.isSome_none, Bool.false_eq_true, Bool.true_eq_false, or_self,
    if_false, gapNext, gapOver, Bool.not_eq_true']
  rfl

end

/-- A port that has started a frame, at the end of the step. -/
theorem drive_later {l : Fin 4} {e : Exchange} {v t : State} (later : Later (drive l e v) t) (on : e.started = true) :
    (t.port l).xstate = .sending ∧ (t.port l).tx = e.frame ∧ (t.port l).tag = (v.port l).tag ∧
    (t.port (sidePort l e.side)).counters = { (v.port (sidePort l e.side)).counters with
      sent := satInc (v.port (sidePort l e.side)).counters.sent } ∧
    ∃ e', (t.port l).exchange = some e' ∧ e.Same e' := by
  obtain ⟨c, own⟩ := drive_own l e v
  obtain ⟨x, r, port⟩ := later.port l
  obtain ⟨y, q, side⟩ := later.port (sidePort l e.side)
  have counts := drive_counts l e v
  refine ⟨by rw [port, own], by rw [port, own], by rw [port, own], by rw [side, ← counts], ?_⟩
  exact (later.exchange l).started e (by rw [own]) on (by rw [own]; nofun)

/-- A port whose exchange is over, at the end of the step. -/
theorem idle_later {l : Fin 4} {u t : State} (later : Later u t) {p : Port}
    (own : u.port l = { p with xstate := .idle, exchange := none }) :
    (t.port l).xstate = .idle ∧ (t.port l).tag = p.tag ∧ (t.port l).idleTime = p.idleTime ∧
    ∀ e, (t.port l).exchange = some e → e.started = false := by
  obtain ⟨x, r, port⟩ := later.port l
  refine ⟨by rw [port, own], by rw [port, own], by rw [port, own], ?_⟩
  exact (later.exchange l).fresh (by rw [own])

theorem gapOver_counters (l k : Fin 4) (s : State) : ((gapOver l s).port k).counters = (s.port k).counters := by
  rw [gapOver_port]
  split
  · next here => rw [← here]; rfl
  · rfl

theorem gapOver_own (l : Fin 4) (s : State) :
    (gapOver l s).port l = { idleFor (s.port l).gapLeft (s.port l) with gapLeft := 0 } := by rw [gapOver_port, if_pos rfl]

/-- The next attempt of the exchange (R104, R109, R112). -/
def Exchange.again (ex : Exchange) (s : State) (l : Fin 4) : Exchange :=
  { ex with
    side := if s.brokenLoop l then otherSide ex.side else .primary, tag := (s.port l).tag
    repeated := decide (ex.work ≠ .discovery), after := .nothing
    timeout := (s.timing l ex.rate).1, gap := (s.timing l ex.rate).2 }

/-- The second copy of the exchange (R113). -/
def Exchange.copied (ex : Exchange) (s : State) (l : Fin 4) : Exchange :=
  { ex with side := .secondary, repeated := true, after := .nothing, gap := (s.timing l ex.rate).2 }

theorem nextAttempt_eq (l : Fin 4) (ex : Exchange) (s : State) : ∃ timeout gap,
    nextAttempt l ex s = drive l { ex.again s l with timeout := timeout, gap := gap }
      (s.modPort l fun p => { p with tag := p.tag + 1 }) := ⟨_, _, rfl⟩

theorem secondCopy_eq (l : Fin 4) (ex : Exchange) (s : State) : secondCopy l ex s = drive l (ex.copied s l) s := rfl

section
variable {s : State} {l : Fin 4} {ex : Exchange} (on : ex.started = true)
include on

theorem gapNext_ends (over_ : ex.after = .nothing ∨ (ex.after = .attempt ∧
      (ex.withdrawn = true ∨ (ex.work = .discovery ∧ s.brokenLoop l = false))) ∨
      (ex.after = .copy ∧ s.looped l = false)) :
    ∃ v, gapNext l ex s = endQuietly l ex v ∧ v.port l = s.port l := by
  unfold gapNext
  rw [on, if_neg Bool.noConfusion]
  rcases over_ with after | ⟨after, quiet⟩ | ⟨after, single⟩ <;> rw [after] <;> dsimp only
  · exact ⟨s, rfl, rfl⟩
  · rw [if_pos]
    · exact ⟨s, rfl, rfl⟩
    · simpa using quiet
  · rw [afterFirstCopy, single, if_neg Bool.false_ne_true]
    exact ⟨_, rfl, broadcastOver_port l ex s l⟩

theorem gapNext_attempt (after : ex.after = .attempt) (stands : ex.withdrawn = false)
    (loop : ex.work = .discovery → s.brokenLoop l = true) : gapNext l ex s = nextAttempt l ex s := by
  unfold gapNext
  rw [on, if_neg Bool.noConfusion, after]
  dsimp only
  rw [if_neg]
  simp only [stands, Bool.false_or, Bool.and_eq_true, decide_eq_true_eq, Bool.not_eq_true']
  rintro ⟨visit, whole⟩
  rw [loop visit] at whole
  cases whole

theorem gapNext_copy (after : ex.after = .copy) : gapNext l ex s =
    if s.looped l then secondCopy l ex s else endQuietly l ex (broadcastOver l ex s) := by
  unfold gapNext
  rw [on, if_neg Bool.noConfusion, after]
  rfl

end

theorem frame_flags (ex : Exchange) : ex.frame.take 6 = [0xB4, BitVec.ofNat 8 ex.addr, ex.code,
    ex.tag.setWidth 8 + (if ex.noReply then 0x10 else 0) + (if ex.repeated then 0x20 else 0)] ++
      leBytes 2 ex.content.length := by rw [frame_head, flagByte_eq]

/-- What shows at the end of the step of a frame that a port has started. -/
theorem drive_goes {l : Fin 4} {e : Exchange} {s v t : State} (later : Later (drive l e v) t) (on : e.started = true)
    (counters : ∀ k, (v.port k).counters = (s.port k).counters) :
    ((t.port l).xstate = .sending ∧ (t.port l).tx.take 6 = [0xB4, BitVec.ofNat 8 e.addr, e.code,
        e.tag.setWidth 8 + (if e.noReply then 0x10 else 0) + (if e.repeated then 0x20 else 0)] ++
          leBytes 2 e.content.length ∧
      ((t.port l).tx.drop 9).take e.content.length = e.content ∧
      (t.port (sidePort l e.side)).counters = { (s.port (sidePort l e.side)).counters with
        sent := min ((s.port (sidePort l e.side)).counters.sent + 1) 65535 } ∧
      ∃ e', (t.port l).exchange = some e' ∧ e'.work = e.work ∧ e'.side = e.side ∧ e'.tag = e.tag ∧
        e'.repeated = e.repeated ∧ e'.retries = e.retries) ∧ (t.port l).tag = (v.port l).tag := by
  obtain ⟨xstate, tx, tag, counts, e', has, same⟩ := drive_later later on
  rw [tx, counts, counters]
  exact ⟨⟨xstate, frame_flags e, frame_content e, rfl, e', has, by rw [same], by rw [same], by rw [same], by rw [same],
    by rw [same]⟩, tag⟩

/-- Settles O49: the ways on from the gap, each with the port it leaves. -/
theorem gapEndGoesOn : Obligations.GapEndGoesOn := by
  unfold Obligations.GapEndGoesOn
  intro s l high work gap free k flags head goes
  have own := gapOver_own l s
  cases has : (s.port l).exchange with
  | none =>
    obtain ⟨t, run, later⟩ := exec_gapEnd_none high work gap free has
    obtain ⟨mem, change⟩ := line_keeps (c := .gapEnd l) rfl run
    refine ⟨t, run, mem, change, later.roster, fun _ => ?_, fun _ some => (Option.some_ne_none _ some.symm).elim,
      fun _ some => (Option.some_ne_none _ some.symm).elim⟩
    have free' : (gapOver l s).port l = { (gapOver l s).port l with exchange := none } := by
      rw [own]
      simp only [idleFor, has]
    have rests := idle_later (p := (gapOver l s).port l) later (by rw [toIdle, State.modPort_port, if_pos rfl, free'])
    rw [own] at rests
    exact rests
  | some ex =>
    obtain ⟨t, run, later⟩ := exec_gapEnd_some high work gap free has
    obtain ⟨mem, change⟩ := line_keeps (c := .gapEnd l) rfl run
    refine ⟨t, run, mem, change, later.roster.trans (gapNext_roster l ex _), ?_, ?_, ?_⟩
    · rintro (none | ⟨e, same, on, over_⟩)
      · exact (Option.some_ne_none _ none).elim
      · cases same
        rw [← gapOver_brokenLoop l l s, ← gapOver_looped l l s] at over_
        obtain ⟨v, ends, port⟩ := gapNext_ends on over_
        rw [ends] at later
        have rests := idle_later (p := { v.port l with reply := none }) later (endQuietly_port v l ex)
        rw [port, own] at rests
        exact rests
    · intro e same on after stands loop
      cases same
      rw [gapNext_attempt on after stands fun visit => (gapOver_brokenLoop l l s).trans (loop visit)] at later
      obtain ⟨timeout, gap', again⟩ := nextAttempt_eq l ex (gapOver l s)
      rw [again] at later
      have counters (k : Fin 4) :
          (((gapOver l s).modPort l fun p => { p with tag := p.tag + 1 }).port k).counters = (s.port k).counters := by
        rw [← gapOver_counters l k s, State.modPort_port]
        split
        · next here => rw [← here]
        · rfl
      obtain ⟨going, tag⟩ := drive_goes (s := s) later on counters
      have side : (if s.brokenLoop l then otherSide ex.side else Side.primary) = (ex.again (gapOver l s) l).side := by
        rw [Exchange.again, gapOver_brokenLoop]
      have tag' : (s.port l).tag = (ex.again (gapOver l s) l).tag := by
        rw [Exchange.again, own]
        rfl
      refine ⟨?_, ?_⟩
      · rw [side, tag']
        exact going
      · rw [tag, State.modPort_port, if_pos rfl, own]
        rfl
    · intro e same on after
      cases same
      rw [gapNext_copy on after, gapOver_looped] at later
      refine ⟨fun loop => ?_, fun single all stands => ?_⟩
      · rw [if_pos loop, secondCopy_eq] at later
        obtain ⟨going, tag⟩ := drive_goes (s := s) later on (gapOver_counters l · s)
        rw [own] at tag
        exact ⟨going, tag⟩
      · rw [single, if_neg Bool.false_ne_true, broadcastOver, if_pos ⟨all, stands⟩] at later
        refine ⟨?_, fun n line open_ => ?_⟩
        · rw [(State.arbiter_of_dues later.dues l).1, endQuietly_due]
          exact broadcastEnds_due l _
        · rw [later.marks, endQuietly_marks]
          exact broadcastEnds_confirm line open_

end Sys2Proof.Machine

/-!
The answer to a CLOSE (R135, R170 to R180): what a COMMITTED one records, how its verdict moves the repair of the slot, and what
TALLY and NOT_OPEN end.
-/
namespace Sys2Proof.Machine

/-! ### The marks of a slot -/

@[simp] theorem modSlot_dues (s : State) (n : Fin 24) (f : Slot → Slot) : (s.modSlot n f).dues = s.dues := rfl
@[simp] theorem want_dues (s : State) (r : Fin 29) : (want r s).dues = s.dues := rfl

@[simp] theorem raiseForSlot_dues (n : Notice) (m : Fin 24) (s : State) : (raiseForSlot n m s).dues = s.dues := by
  rw [State.dues, raiseForSlot_sched, State.dues]

@[simp] theorem reevaluate_dues (n : Fin 24) (s : State) : (reevaluate n s).dues = s.dues := by
  obtain ⟨x, same⟩ := reevaluate_eq n s
  rw [same]
  rfl

@[simp] theorem quarantine_dues (n : Fin 24) (r : Reason) (s : State) : (quarantine n r s).dues = s.dues := by
  unfold quarantine
  split
  · rfl
  · rw [raiseForSlot_dues]
    split <;> simp [setKeepalive]

@[simp] theorem countFailure_dues (n : Fin 24) (s : State) : (countFailure n s).dues = s.dues := by
  rw [countFailure_eq]
  split
  · rw [quarantine_dues]
    rfl
  · rfl

/-! ### A note or an event of the roster -/

/-- The notice of the roster waits for the record of slot `n`. -/
def State.rosterWaits (s : State) (n : Fin 24) : Prop :=
  ∃ x ∈ s.report.waiting, x.act = .notice .roster ∧ rosterRec n ∈ x.needs

theorem rosterWaits_raiseAfter {n : Fin 24} {rs : List (Fin 29)} {s : State} (healthy : s.isFaulted = false)
    (member : rosterRec n ∈ rs) : (raiseAfter .roster rs s).rosterWaits n := by
  unfold State.rosterWaits raiseAfter
  rw [healthy, if_neg Bool.false_ne_true, awaitRecords_waiting]
  exact ⟨_, List.mem_append_right _ (List.mem_singleton_self _), rfl, member⟩

/-! ### A repair that failed (R178) -/

/-- The sweep record after a close that ended a repair in MISMATCH. -/
def Sweep.counted (w : Sweep) : Sweep := { w with run := if w.run = 0 then 1 else 0 }

/-- Slot `v` with one mismatch more. -/
def Slot.differed (v : Slot) : Slot :=
  { v with counters := { v.counters with mismatches := satInc v.counters.mismatches } }

theorem countMismatch_slot (n : Fin 24) (s : State) : (countMismatch n s).slot n = (s.slot n).differed := by
  rw [countMismatch, count, State.modSlot_slot, if_pos rfl]
  rfl

/-- What a close that ended a repair in MISMATCH leaves of its slot. -/
structure RepairFailed (n : Fin 24) (s t : State) : Prop where
  delivery : t.delivery n = none
  dues : t.dues = s.dues
  wires : t.wires = s.wires
  sweep : t.sweep n = (s.sweep n).counted
  first : (s.sweep n).run = 0 → t.slot n = (s.slot n).differed
  second : (s.sweep n).run ≠ 0 → t.slot n = (s.slot n).differed.failed (s.slotProfile n) ∧ t.rosterWaits n

theorem repairMismatch_failed {n : Fin 24} {s : State} (free : s.delivery n = none) (healthy : s.isFaulted = false) :
    RepairFailed n s (repairMismatch n s) := by
  have slot := countMismatch_slot n s
  have sweep : (countMismatch n s).sweep n = s.sweep n := rfl
  have profile : (countMismatch n s).slotProfile n = s.slotProfile n := modSlot_slotProfile rfl
  unfold repairMismatch
  dsimp only
  rw [sweep]
  by_cases run : (s.sweep n).run = 0
  · rw [if_pos run]
    refine ⟨free, rfl, rfl, ?_, fun _ => slot, fun other => absurd run other⟩
    rw [State.setSweep_sweep, if_pos rfl, Sweep.counted, if_pos run]
  · rw [if_neg run]
    generalize start : (countMismatch n s).setSweep n { s.sweep n with run := 0 } = u
    have free' : u.delivery n = none := by rw [← start]; exact free
    have slot' : u.slot n = (s.slot n).differed := by rw [← start]; exact slot
    have profile' : u.slotProfile n = s.slotProfile n := by rw [← start]; exact profile
    have kept : u.sweep n = (s.sweep n).counted ∧ u.dues = s.dues ∧ u.wires = s.wires ∧ u.isFaulted = false := by
      rw [← start, State.setSweep_sweep, if_pos rfl, Sweep.counted, if_neg run]
      exact ⟨rfl, rfl, rfl, healthy⟩
    obtain ⟨sweep', dues, wires, healthy⟩ := kept
    have still : (countFailure n u).isFaulted = false := by simpa [State.isFaulted] using healthy
    have failed := countFailure_slot n n u
    rw [if_pos rfl, slot', profile'] at failed
    have told (rs : List (Fin 29)) (member : rosterRec n ∈ rs) :
        RepairFailed n s (raiseAfter .roster rs (countFailure n u)) := by
      have waits := rosterWaits_raiseAfter (n := n) still member
      obtain ⟨r, same⟩ := raiseAfter_eq .roster rs (countFailure n u)
      rw [same] at waits ⊢
      refine ⟨(countFailure_delivery n n free').trans free', (countFailure_dues n u).trans dues,
        (countFailure_wires n u).trans wires, (countFailure_sweep n n free').trans sweep', fun none => absurd none run,
        fun _ => ⟨failed, waits⟩⟩
    split
    · exact told _ (List.mem_singleton_self _)
    · exact told _ List.mem_cons_self

/-! ### What the verdict of a close does -/

theorem Delivery.mends_of_plain {d : Delivery} (plain : (d.mode = .delta ∨ d.mode = .reload) ∧ d.repairReload = false) :
    d.mends = false := by
  obtain ⟨mode, own⟩ := plain
  unfold Delivery.mends
  rcases mode with mode | mode <;> rw [mode] <;> exact own

theorem Delivery.mends_of_mending {d : Delivery} (mending : d.mode = .repair ∨ d.mode = .reload ∧ d.repairReload = true) :
    d.mends = true := by
  unfold Delivery.mends
  rcases mending with mode | ⟨mode, own⟩ <;> rw [mode]
  exact own

theorem judgeCommit_clears {n : Fin 24} {d : Delivery} {v : Verdict} (s : State)
    (good : v = .isMatch ∨ v = .unchecked ∧ d.mends = true) : judgeCommit n d v s = clearRepair n s := by
  unfold judgeCommit
  rcases good with rfl | ⟨rfl, own⟩
  · cases d.mode <;> rfl
  · unfold Delivery.mends at own
    cases mode : d.mode <;> simp only [mode] at own ⊢ <;> exact if_pos own

theorem judgeCommit_keeps {n : Fin 24} {d : Delivery} (s : State) (other : d.mends = false) :
    judgeCommit n d .unchecked s = s := by
  unfold judgeCommit
  unfold Delivery.mends at other
  cases mode : d.mode <;> simp [mode] at other ⊢ <;> simp [other]

theorem judgeCommit_differs {n : Fin 24} {d : Delivery} (s : State) (other : d.mends = false) :
    judgeCommit n d .mismatch s = countMismatch n (setRepair n s) := by
  unfold judgeCommit
  unfold Delivery.mends at other
  cases mode : d.mode <;> simp [mode] at other ⊢ <;> simp [other]

/-- The state in which a repair's MISMATCH is counted. -/
def repairJudged (n : Fin 24) (d : Delivery) (s : State) : State := if d.mode = .repair then restartSweep n s else s

theorem judgeCommit_fails {n : Fin 24} {d : Delivery} (s : State) (own : d.mends = true) :
    judgeCommit n d .mismatch s = repairMismatch n (repairJudged n d s) := by
  unfold judgeCommit repairJudged
  unfold Delivery.mends at own
  cases mode : d.mode <;> simp [mode] at own ⊢ <;> simp [own]

/-- The sweep record of a repair whose MISMATCH is counted. -/
def Sweep.judged (w : Sweep) (d : Delivery) : Sweep :=
  if d.mode = .repair then { w with cursor := 0, list := [], held := none } else w

theorem repairJudged_kept (n : Fin 24) (d : Delivery) (s : State) : (repairJudged n d s).slot n = s.slot n ∧
    (repairJudged n d s).delivery n = s.delivery n ∧ (repairJudged n d s).dues = s.dues ∧
    (repairJudged n d s).wires = s.wires ∧ (repairJudged n d s).isFaulted = s.isFaulted ∧
    (repairJudged n d s).sweep n = (s.sweep n).judged d := by
  unfold repairJudged Sweep.judged
  split
  · refine ⟨rfl, rfl, rfl, rfl, rfl, ?_⟩
    rw [restartSweep, State.setSweep_sweep, if_pos rfl]
  · exact ⟨rfl, rfl, rfl, rfl, rfl, rfl⟩

/-! ### After the answer is taken -/

/-- What stands of slot `n` in `t`, the end of a step that re-evaluated it in `u`, where it had no delivery. -/
structure ReevaluatedIn (n : Fin 24) (u t : State) : Prop where
  slot : ∃ q k, t.slot n = { u.slot n with state := q, keepalive := k } ∧
    ((u.slot n).repair = true → q ≠ .current) ∧ ((u.slot n).state = .quarantined → q = .quarantined)
  delivery : t.delivery n = none
  sweep : t.sweep n = u.sweep n
  marks : t.marks n = u.marks n
  waits : u.rosterWaits n → t.rosterWaits n

theorem judged_not_current {c : ChangeEngine} {e : EditionMgr} {v : Slot} (repair : v.repair = true) :
    (v.judged c e).state ≠ .current := fun current => by
  obtain ⟨upToDate, -⟩ := judged_current current
  simp [Slot.upToDate, repair] at upToDate

theorem judged_quarantined {c : ChangeEngine} {e : EditionMgr} {v : Slot} (state : v.state = .quarantined) :
    (v.judged c e).state = .quarantined := by
  unfold Slot.judged
  rw [if_neg (by rw [state]; decide), state]

theorem Later.reevaluated {n : Fin 24} {u t : State} (gone : u.delivery n = none)
    (later : Later (setKeepalive n (want (rosterRec n) (reevaluate n u))) t) : ReevaluatedIn n u t := by
  have slot : (want (rosterRec n) (reevaluate n u)).slot n = (u.slot n).judged u.change u.editions :=
    (reevaluate_slot u n n).trans (if_pos rfl)
  obtain ⟨k, taken⟩ := later.taken_slot
  obtain ⟨q, judged⟩ := judged_state u.change u.editions (u.slot n)
  have still := judged_not_current (c := u.change) (e := u.editions) (v := u.slot n)
  have shut := judged_quarantined (c := u.change) (e := u.editions) (v := u.slot n)
  rw [slot, judged] at taken
  rw [judged] at still shut
  obtain ⟨x, same⟩ := reevaluate_eq n u
  rw [same] at later
  have marks : State.dues { u with roster := x } = u.dues := rfl
  refine ⟨⟨q, k, taken, still, shut⟩, later.delivery_none gone, later.sweep_of_none gone, later.marks n, fun waits => ?_⟩
  unfold State.rosterWaits at waits ⊢
  have waiting : t.report.waiting = u.report.waiting := later.waiting
  rwa [waiting]

/-! ### What a COMMITTED answer records -/

/-- Slot `v` after a committed blocklist delivery `d`; `keep` says that the failures counted before stay. -/
def Slot.committedTo (c : ChangeEngine) (d : Delivery) (keep : Bool) (v : Slot) : Slot :=
  let reload := if d.mode = .reload then false else v.reload
  { v with
    reload := reload, heldId := d.identity
    heldH := if reload then 0 else if d.identity = c.identity ∧ c.gen < d.target then 0 else d.target
    failures := if keep then v.failures else 0 }

/-- The state that records a committed blocklist delivery, before its verdict is judged. -/
def blocklistCommitted (n : Fin 24) (d : Delivery) (keep : Bool) (s : State) : State :=
  let s := s.modSlot n fun v => { v with reload := if d.mode = .reload then false else v.reload }
  let s := s.modSlot n fun v => { v with heldId := d.identity, heldH := s.recordedH v d.identity d.target }
  dropDelivery n (committed keep n s)

theorem commitBlocklist_eq (n : Fin 24) (d : Delivery) (v : Verdict) (s : State) : commitBlocklist n d v s =
    want (rosterRec n) (reevaluate n (judgeCommit n d v (blocklistCommitted n d (d.failedRepair v) s))) := rfl

theorem dropDelivery_none (n : Fin 24) (s : State) : (dropDelivery n s).delivery n = none := by
  rw [dropDelivery_delivery, if_pos rfl]

theorem marks_dropDelivery (n k : Fin 24) (s : State) : (dropDelivery n s).marks k = s.marks k :=
  State.marks_of_dues (dropDelivery_dues s n) k

/-- What the commitment to slot `n` leaves beside the slot. -/
structure CommittedIn (n : Fin 24) (s u : State) : Prop where
  delivery : u.delivery n = none
  solo : (u.marks n).solo = false
  sweep : u.sweep n = s.sweep n
  wires : u.wires = s.wires
  engine : u.engine = s.engine

theorem committedIn_dropDelivery {n : Fin 24} {s v : State} {keep : Bool} (sweep : v.sweep n = s.sweep n) (wires : v.wires = s.wires)
    (engine : v.engine = s.engine) : CommittedIn n s (dropDelivery n (committed keep n v)) where
  delivery := dropDelivery_none n _
  solo := by rw [marks_dropDelivery, committed, State.modMarks_marks, if_pos rfl]
  sweep := by rw [dropDelivery_sweep]; exact sweep
  wires := by rw [dropDelivery_wires]; exact wires
  engine := by rw [dropDelivery_engine]; exact engine

theorem blocklistCommitted_in (n : Fin 24) (d : Delivery) (keep : Bool) (s : State) :
    CommittedIn n s (blocklistCommitted n d keep s) := committedIn_dropDelivery rfl rfl rfl

theorem blocklistCommitted_slot (n : Fin 24) (d : Delivery) (keep : Bool) (s : State) :
    (blocklistCommitted n d keep s).slot n = (s.slot n).committedTo s.change d keep := by
  rw [blocklistCommitted, dropDelivery_slot, committed]
  simp only [State.modMarks_slot, State.modSlot_slot, if_true]
  rfl

/-- Slot `v` after a committed edition delivery `d`, but for the unconfirmed flag. -/
def Slot.editionCommitted (d : Delivery) (v : Slot) : Slot :=
  let v := { v with failures := 0 }
  if d.makeActive then
    { v with
      heldActive := d.edition
      heldPending := match v.heldPending with
        | some p => if p.edition.number = d.edition.number then none else some p
        | none => none }
  else { v with heldPending := some ⟨d.edition, true, fullMask d.total⟩ }

/-- The state that records a committed edition delivery. -/
def editionCommitted (n : Fin 24) (d : Delivery) (s : State) : State :=
  let s := s.modSlot n fun v =>
    if d.makeActive then
      { v with
        heldActive := d.edition
        heldPending := match v.heldPending with
          | some p => if p.edition.number = d.edition.number then none else some p
          | none => none }
    else { v with heldPending := some ⟨d.edition, true, fullMask d.total⟩ }
  dropDelivery n (committed false n (s.modSlot n fun v => { v with unconfirmed := s.stillUnconfirmed v }))

theorem commitEdition_eq (n : Fin 24) (d : Delivery) (s : State) :
    commitEdition n d s = want (rosterRec n) (reevaluate n (editionCommitted n d s)) := rfl

theorem editionCommitted_in (n : Fin 24) (d : Delivery) (s : State) : CommittedIn n s (editionCommitted n d s) :=
  committedIn_dropDelivery rfl rfl rfl

theorem editionCommitted_slot (n : Fin 24) (d : Delivery) (s : State) :
    ∃ b, (editionCommitted n d s).slot n = { (s.slot n).editionCommitted d with unconfirmed := b } := by
  rw [editionCommitted, dropDelivery_slot, committed]
  simp only [State.modMarks_slot, State.modSlot_slot, if_true, Slot.editionCommitted]
  split <;> exact ⟨_, rfl⟩

theorem testBit_fullMask {total k : Nat} (page : k < total) (inside : k < 64) : (fullMask total).getLsbD k = true := by
  rw [fullMask, BitVec.getLsbD_ofNat, Nat.testBit_two_pow_sub_one, decide_eq_true inside, decide_eq_true page]
  rfl

/-! ### What a TALLY ends -/

/-- The state in which a TALLY's failure is counted. -/
def tallyRefused (n : Fin 24) (d : Delivery) (s : State) : State :=
  let s := count n (fun k => { k with tallyFailures := satInc k.tallyFailures }) s
  let s := if (s.groupOf n).isSome then s.modMarks n fun m => { m with solo := true } else s
  judgeRefused n d (dropDelivery n s)

theorem closeTally_eq (n : Fin 24) (d : Delivery) (s : State) : closeTally n d s = countFailure n (tallyRefused n d s) := rfl

/-- Slot `v` with one failed tally more. -/
def Slot.tallied (v : Slot) : Slot :=
  { v with counters := { v.counters with tallyFailures := satInc v.counters.tallyFailures } }

theorem judgeRefused_kept (n : Fin 24) (d : Delivery) (s : State) : (judgeRefused n d s).slot n = s.slot n ∧
    (judgeRefused n d s).delivery n = s.delivery n ∧ (judgeRefused n d s).marks n = s.marks n ∧
    (judgeRefused n d s).wires = s.wires := by
  unfold judgeRefused
  split <;> exact ⟨rfl, rfl, rfl, rfl⟩

theorem tallyRefused_kept (n : Fin 24) (d : Delivery) (s : State) : (tallyRefused n d s).slot n = (s.slot n).tallied ∧
    (tallyRefused n d s).delivery n = none ∧ (tallyRefused n d s).wires = s.wires ∧
    ((s.groupOf n).isSome = true → ((tallyRefused n d s).marks n).solo = true) := by
  unfold tallyRefused
  generalize counted : count n (fun k => { k with tallyFailures := satInc k.tallyFailures }) s = u
  have slot' : u.slot n = (s.slot n).tallied := by
    rw [← counted, count, State.modSlot_slot, if_pos rfl]
    rfl
  have wires' : u.wires = s.wires := by rw [← counted]; rfl
  have group' : u.groupOf n = s.groupOf n := by rw [← counted]; rfl
  dsimp only
  obtain ⟨slot, delivery, marks, wires⟩ := judgeRefused_kept n d
    (dropDelivery n (if (u.groupOf n).isSome then u.modMarks n fun m => { m with solo := true } else u))
  rw [slot, delivery, marks, wires, dropDelivery_none, marks_dropDelivery, dropDelivery_slot, dropDelivery_wires, group']
  refine ⟨?_, rfl, ?_, fun joined => ?_⟩
  · split <;> exact slot'
  · split <;> exact wires'
  · rw [if_pos joined, State.modMarks_marks, if_pos rfl]

/-! ### The four ways of a verdict -/

/-- What the verdict `v` of delivery `d` to slot `n`, judged in `s`, leaves in `t`. -/
structure VerdictTaken (n : Fin 24) (d : Delivery) (v : Verdict) (s t : State) : Prop where
  delivery : t.delivery n = none
  marks : t.marks n = s.marks n
  clears : v = .isMatch ∨ v = .unchecked ∧ d.mends = true → t.slot n = { s.slot n with repair := false } ∧ t.sweep n = .cold
  keeps : v = .unchecked → d.mends = false → t = s
  differs : v = .mismatch → d.mends = false → t.slot n = { (s.slot n).differed with repair := true }
  fails : v = .mismatch → d.mends = true → RepairFailed n (repairJudged n d s) t

theorem judgeCommit_taken {n : Fin 24} {s : State} (d : Delivery) (v : Verdict) (free : s.delivery n = none)
    (healthy : s.isFaulted = false) : VerdictTaken n d v s (judgeCommit n d v s) := by
  have cleared : (clearRepair n s).slot n = { s.slot n with repair := false } := by
    rw [clearRepair, dropSweep_slot, State.modSlot_slot, if_pos rfl]
  have cold : (clearRepair n s).sweep n = .cold := (clearRepair_sweep s n n).trans (if_pos rfl)
  cases own : d.mends
  · cases v with
    | unchecked =>
      rw [judgeCommit_keeps s own]
      exact ⟨free, rfl, by simp [own], fun _ _ => rfl, nofun, nofun⟩
    | isMatch =>
      rw [judgeCommit_clears s (.inl rfl)]
      exact ⟨free, rfl, fun _ => ⟨cleared, cold⟩, nofun, nofun, nofun⟩
    | mismatch =>
      rw [judgeCommit_differs s own]
      refine ⟨free, rfl, by simp, nofun, fun _ _ => ?_, by simp [own]⟩
      rw [countMismatch_slot, setRepair, State.modSlot_slot, if_pos rfl]
      rfl
  · by_cases differs : v = .mismatch
    · subst differs
      rw [judgeCommit_fails s own]
      obtain ⟨-, delivery, dues, -, faulted, -⟩ := repairJudged_kept n d s
      have failed := repairMismatch_failed (delivery.trans free) (faulted.trans healthy)
      exact ⟨failed.delivery, State.marks_of_dues (failed.dues.trans dues) n, by simp, nofun, by simp [own], fun _ _ => failed⟩
    · have good : v = .isMatch ∨ v = .unchecked ∧ d.mends = true := by
        cases v <;> simp_all
      rw [judgeCommit_clears s good]
      exact ⟨free, rfl, fun _ => ⟨cleared, cold⟩, fun _ other => by simp [own] at other, fun same => absurd same differs,
        fun same => absurd same differs⟩

/-- The held data that a commitment records stands whatever the verdict. -/
theorem VerdictTaken.records {n : Fin 24} {d : Delivery} {v : Verdict} {s t : State} (taken : VerdictTaken n d v s t) :
    (t.slot n).heldId = (s.slot n).heldId ∧ (t.slot n).reload = (s.slot n).reload ∧
      (t.slot n).heldH = (s.slot n).heldH := by
  have failed : v = .mismatch → d.mends = true → (t.slot n).heldId = (s.slot n).heldId ∧
      (t.slot n).reload = (s.slot n).reload ∧ (t.slot n).heldH = (s.slot n).heldH := by
    intro differs own
    have failed := taken.fails differs own
    obtain ⟨slot, -⟩ := repairJudged_kept n d s
    by_cases run : ((repairJudged n d s).sweep n).run = 0
    · rw [failed.first run, slot]
      exact ⟨rfl, rfl, rfl⟩
    · obtain ⟨second, -⟩ := failed.second run
      obtain ⟨-, -, -, reload, -, -, heldId, heldH, -⟩ := Slot.failed_fields (s.slot n).differed
        ((repairJudged n d s).slotProfile n)
      rw [second, slot]
      exact ⟨heldId, reload, heldH⟩
  cases v with
  | isMatch =>
    rw [(taken.clears (.inl rfl)).1]
    exact ⟨rfl, rfl, rfl⟩
  | unchecked =>
    cases own : d.mends
    · rw [taken.keeps rfl own]
      exact ⟨rfl, rfl, rfl⟩
    · rw [(taken.clears (.inr ⟨rfl, own⟩)).1]
      exact ⟨rfl, rfl, rfl⟩
  | mismatch =>
    cases own : d.mends
    · rw [taken.differs rfl own]
      exact ⟨rfl, rfl, rfl⟩
    · exact failed rfl own

/-! ### The answer taken -/

/-- The verdict of a CLOSE ACK, another tally being a MISMATCH (R170). -/
def closeVerdict (content : List Byte) (d : Delivery) : Verdict :=
  if echoedTally content d then verdictOf content else .mismatch

section
variable {s t : State} {n : Fin 24} {d : Delivery} {ex : Exchange} {content : List Byte} (has : s.delivery n = some d)
include has

theorem takeCloseAck_blocklist (committed : fieldAt content 0 1 = 1) (mode : d.mode.isBlocklist = true) :
    takeCloseAck ex content n s = commitBlocklist n d (closeVerdict content d) s := by
  simp only [takeCloseAck, has, committed, mode, if_true]
  rfl

theorem takeCloseAck_edition (committed : fieldAt content 0 1 = 1) (mode : d.mode.isBlocklist = false) :
    takeCloseAck ex content n s = commitEdition n d s := by
  simp only [takeCloseAck, has, committed, mode, if_true, Bool.false_eq_true, if_false]

theorem takeCloseAck_tally (result : fieldAt content 0 1 = 2) : takeCloseAck ex content n s = closeTally n d s := by
  simp only [takeCloseAck, has, result]
  rfl

theorem takeCloseAck_notOpen (first : fieldAt content 0 1 ≠ 1) (second : fieldAt content 0 1 ≠ 2) :
    takeCloseAck ex content n s = judgeRefused n d (dropDelivery n s) := by
  simp only [takeCloseAck, has, first, second, if_false]

end

theorem verdict_isMatch {content : List Byte} {d : Delivery} (tally : echoedTally content d = true)
    (verdict : fieldAt content 1 1 = 1) : closeVerdict content d = .isMatch := by
  rw [closeVerdict, if_pos tally, verdictOf, if_pos verdict]

theorem verdict_unchecked {content : List Byte} {d : Delivery} (tally : echoedTally content d = true)
    (verdict : fieldAt content 1 1 = 0) : closeVerdict content d = .unchecked := by
  rw [closeVerdict, if_pos tally, verdictOf, verdict, if_neg (by decide), if_neg (by decide)]

theorem verdict_mismatch {content : List Byte} {d : Delivery}
    (differs : ¬ echoedTally content d = true ∨ fieldAt content 1 1 = 2) : closeVerdict content d = .mismatch := by
  rw [closeVerdict]
  split
  · next tally =>
    rw [verdictOf, differs.resolve_left (not_not.2 tally), if_neg (by decide), if_pos rfl]
  · rfl

theorem verdict_cases (content : List Byte) (d : Delivery) : closeVerdict content d = .isMatch ∨
    closeVerdict content d = .unchecked ∨ closeVerdict content d = .mismatch := by
  cases closeVerdict content d
  · exact .inr (.inl rfl)
  · exact .inl rfl
  · exact .inr (.inr rfl)

theorem groupOf_isSome {s : State} {n : Fin 24} : (s.groupOf n).isSome = true ↔ ∃ g ∈ s.sched.groups, n ∈ g.members := by
  simp [State.groupOf, List.find?_isSome]

/-! ### The slot at the end of the step, by the result -/

section
variable {u t : State} {n : Fin 24} {d : Delivery} {ex : Exchange} {content : List Byte} (has : u.delivery n = some d)
  (later : Later (setKeepalive n (takeCloseAck ex content n u)) t)
include has later

theorem closed_blocklist (healthy : u.isFaulted = false) (committed : fieldAt content 0 1 = 1)
    (mode : d.mode.isBlocklist = true) : ∃ v, ReevaluatedIn n v t ∧ VerdictTaken n d (closeVerdict content d)
      (blocklistCommitted n d (d.failedRepair (closeVerdict content d)) u) v := by
  have committedIn := blocklistCommitted_in n d (d.failedRepair (closeVerdict content d)) u
  have healthy : (blocklistCommitted n d (d.failedRepair (closeVerdict content d)) u).isFaulted = false := by
    simpa only [State.isFaulted, committedIn.engine] using healthy
  have taken := judgeCommit_taken d (closeVerdict content d) committedIn.delivery healthy
  rw [takeCloseAck_blocklist has committed mode, commitBlocklist_eq] at later
  exact ⟨_, later.reevaluated taken.delivery, taken⟩

theorem closed_edition (committed : fieldAt content 0 1 = 1) (mode : d.mode.isBlocklist = false) :
    ReevaluatedIn n (editionCommitted n d u) t := by
  rw [takeCloseAck_edition has committed mode, commitEdition_eq] at later
  exact later.reevaluated (editionCommitted_in n d u).delivery

theorem closed_tally (result : fieldAt content 0 1 = 2) :
    (∃ k, t.slot n = { (u.slot n).tallied.failed (u.slotProfile n) with keepalive := k }) ∧ t.delivery n = none ∧
      ((u.groupOf n).isSome = true → (t.marks n).solo = true) := by
  rw [takeCloseAck_tally has result, closeTally_eq] at later
  obtain ⟨slot, delivery, wires, solo⟩ := tallyRefused_kept n d u
  have failed := countFailure_slot n n (tallyRefused n d u)
  have profile : (tallyRefused n d u).slotProfile n = u.slotProfile n :=
    slotProfile_of_wires wires (by rw [slot]; rfl)
  rw [if_pos rfl, slot, profile] at failed
  obtain ⟨k, taken⟩ := later.taken_slot
  rw [failed] at taken
  refine ⟨⟨k, taken⟩, later.delivery_none ((countFailure_delivery n n delivery).trans delivery), fun joined => ?_⟩
  have marks : t.marks n = (tallyRefused n d u).marks n :=
    (later.marks n).trans (State.marks_of_dues (countFailure_dues n _) n)
  rw [marks]
  exact solo joined

theorem closed_notOpen (first : fieldAt content 0 1 ≠ 1) (second : fieldAt content 0 1 ≠ 2) :
    (∃ k, t.slot n = { u.slot n with keepalive := k }) ∧ t.delivery n = none := by
  rw [takeCloseAck_notOpen has first second] at later
  obtain ⟨slot, delivery, -⟩ := judgeRefused_kept n d (dropDelivery n u)
  obtain ⟨k, taken⟩ := later.taken_slot
  rw [slot, dropDelivery_slot] at taken
  exact ⟨⟨k, taken⟩, later.delivery_none (delivery.trans (dropDelivery_none n u))⟩

theorem closed_delivery (healthy : u.isFaulted = false) : t.delivery n = none := by
  by_cases first : fieldAt content 0 1 = 1
  · cases mode : d.mode.isBlocklist
    · exact (closed_edition has later first mode).delivery
    · obtain ⟨v, reevaluated, -⟩ := closed_blocklist has later healthy first mode
      exact reevaluated.delivery
  · by_cases second : fieldAt content 0 1 = 2
    · exact (closed_tally has later second).2.1
    · exact (closed_notOpen has later first second).2

end

/-- Settles O54: by its result the CLOSE ACK is a commitment to the blocklist, whose verdict is judged, or to an edition, a
failed tally, or the end of a delivery that was not open. -/
theorem closeAckTaken : Obligations.CloseAckTaken := by
  unfold Obligations.CloseAckTaken
  intro s l ex content n d high held slot attached stands has f v committed tally reload plain mending w limit mismatched
  obtain ⟨t, run, later⟩ := takeReply_later (f := takeCloseAck) high held slot attached stands
  obtain ⟨mem, change⟩ := line_keeps (c := .closeAck l) rfl run
  have working : s.working = true := by
    by_contra rest
    rw [replyHeld_of_not_working (Bool.eq_false_iff.2 rest)] at held
    cases held
  have healthy : (overExchange l ex s).isFaulted = false := by
    simpa [State.isFaulted] using not_isFaulted_of_working working
  have has' : (overExchange l ex s).delivery n = some d := by simpa using has
  have slot' : (overExchange l ex s).slot n = v := overExchange_slot ..
  have image : (overExchange l ex s).change = s.change := by simp
  have sweep' : (overExchange l ex s).sweep n = w := overExchange_sweep ..
  have profile : (overExchange l ex s).slotProfile n = s.slotProfile n :=
    slotProfile_of_wires (overExchange_wires ..) (by rw [overExchange_slot])
  have joined : (overExchange l ex s).groupOf n = s.groupOf n := by
    simp only [State.groupOf, overExchange_groups]
  have echoed : tally ↔ echoedTally content d = true := by
    simp only [echoedTally, Bool.and_eq_true, decide_eq_true_iff]
    exact Iff.rfl
  generalize overExchange l ex s = u at later healthy has' slot' image sweep' profile joined
  have blocklist (c : committed) (mode : d.mode.isBlocklist = true) := closed_blocklist has' later healthy c mode
  have plainly (c : committed) (p : plain) : ∃ v', ReevaluatedIn n v' t ∧ VerdictTaken n d (closeVerdict content d)
      (blocklistCommitted n d (d.failedRepair (closeVerdict content d)) u) v' := by
    refine blocklist c ?_
    obtain ⟨mode | mode, -⟩ := p <;> rw [mode] <;> rfl
  have mended (c : committed) (p : mending) : ∃ v', ReevaluatedIn n v' t ∧ VerdictTaken n d (closeVerdict content d)
      (blocklistCommitted n d (d.failedRepair (closeVerdict content d)) u) v' := by
    refine blocklist c ?_
    obtain mode | ⟨mode, -⟩ := p <;> rw [mode] <;> rfl
  have shutOnly (r : fieldAt content 0 1 = 3) := closed_notOpen has' later (r ▸ by decide) (r ▸ by decide)
  have recorded (keep : Bool) := blocklistCommitted_slot n d keep u
  have committedIn (keep : Bool) := blocklistCommitted_in n d keep u
  simp only [slot', image] at recorded
  refine ⟨t, run, mem, change, closed_delivery has' later healthy, fun c => ?_, fun c bl => ?_, fun c p => ?_,
    fun c m same good => ?_, fun c m differs => ?_, fun c ed other => ?_, fun c ed active => ?_, fun r ⟨g, own, member⟩ => ?_,
    fun r => ?_, fun r => ?_, fun r => ?_⟩
  · cases mode : d.mode.isBlocklist
    · have after := closed_edition has' later c mode
      rw [after.marks]
      exact (editionCommitted_in n d u).solo
    · obtain ⟨v', after, taken⟩ := blocklist c mode
      rw [after.marks, taken.marks]
      exact (committedIn _).solo
  · obtain ⟨v', after, taken⟩ := blocklist c bl
    obtain ⟨q, k, same, -⟩ := after.slot
    obtain ⟨heldId, reload', heldH⟩ := taken.records
    rw [same]
    dsimp only
    rw [heldId, reload', heldH, recorded]
    exact ⟨rfl, rfl, rfl⟩
  · obtain ⟨v', after, taken⟩ := plainly c p
    obtain ⟨q, k, same, still, -⟩ := after.slot
    have own : d.mends = false := Delivery.mends_of_plain p
    have keep (x : Verdict) : d.failedRepair x = false := by rw [Delivery.failedRepair, own, Bool.and_false]
    rw [keep] at taken
    have base := recorded false
    refine ⟨?_, fun same' good => ?_, fun same' none => ?_, fun differs => ?_⟩
    · rw [same]
      dsimp only
      rcases verdict_cases content d with isMatch | unchecked | mismatch
      · rw [(taken.clears (.inl isMatch)).1, base]
        rfl
      · rw [taken.keeps unchecked own, base]
        rfl
      · rw [taken.differs mismatch own, base]
        rfl
    · obtain ⟨cleared, cold⟩ := taken.clears (.inl (verdict_isMatch (echoed.1 same') good))
      rw [same, after.sweep, cleared, cold, base]
      exact ⟨rfl, rfl, rfl⟩
    · rw [same, taken.keeps (verdict_unchecked (echoed.1 same') none) own, base]
      exact ⟨rfl, rfl⟩
    · have changed := taken.differs (verdict_mismatch (differs.imp_left (mt echoed.2))) own
      have repair : (v'.slot n).repair = true := by rw [changed]
      rw [same]
      refine ⟨repair, still repair, ?_⟩
      dsimp only
      rw [changed, base]
      rfl
  · obtain ⟨v', after, taken⟩ := mended c m
    obtain ⟨q, k, same', -⟩ := after.slot
    have own : d.mends = true := Delivery.mends_of_mending m
    have verdict : closeVerdict content d = .isMatch ∨ closeVerdict content d = .unchecked ∧ d.mends = true :=
      good.elim (fun none => .inr ⟨verdict_unchecked (echoed.1 same) none, own⟩)
        (fun good => .inl (verdict_isMatch (echoed.1 same) good))
    have keep : d.failedRepair (closeVerdict content d) = false := by
      rcases verdict with same | ⟨same, -⟩ <;> rw [same] <;> rfl
    obtain ⟨cleared, cold⟩ := taken.clears verdict
    rw [same', after.sweep, cleared, cold, keep, recorded]
    exact ⟨rfl, rfl, rfl⟩
  · obtain ⟨v', after, taken⟩ := mended c m
    obtain ⟨q, k, same, -, shut⟩ := after.slot
    have own : d.mends = true := Delivery.mends_of_mending m
    have verdict := verdict_mismatch (differs.imp_left (mt echoed.2))
    have failed := taken.fails verdict own
    rw [verdict, show d.failedRepair .mismatch = true by rw [Delivery.failedRepair, own]; rfl] at failed
    have base := recorded true
    obtain ⟨slot, -, -, wires, -, sweep⟩ := repairJudged_kept n d (blocklistCommitted n d true u)
    have profile' : (repairJudged n d (blocklistCommitted n d true u)).slotProfile n = s.slotProfile n :=
      (slotProfile_of_wires (wires.trans (committedIn true).wires) (by rw [slot, base, slot']; rfl)).trans profile
    have sweep : (repairJudged n d (blocklistCommitted n d true u)).sweep n = w.judged d := by
      rw [sweep, (committedIn true).sweep, sweep']
    have run : (w.judged d).run = w.run := by
      unfold Sweep.judged
      split <;> rfl
    obtain ⟨-, -, -, counted, first, second⟩ := failed
    rw [sweep, run, slot, base] at first second
    rw [profile'] at second
    rw [sweep] at counted
    obtain ⟨failures, counters, backoff, -, repair, -⟩ := Slot.failed_fields (v.committedTo s.change d true).differed
      (s.slotProfile n)
    have either : (v'.slot n).repair = v.repair ∧
        (v'.slot n).counters = { v.counters with mismatches := mismatched } := by
      by_cases none : w.run = 0
      · rw [first none]
        exact ⟨rfl, rfl⟩
      · rw [(second none).1]
        exact ⟨repair, counters⟩
    rw [same, after.sweep, counted]
    refine ⟨either.1, either.2, ?_, fun none => ?_, fun some => ?_⟩
    · unfold Sweep.counted
      rw [run]
      rfl
    · dsimp only
      rw [first none]
      exact ⟨rfl, rfl⟩
    · obtain ⟨slot, waits⟩ := second some
      dsimp only
      rw [slot]
      refine ⟨failures, backoff, fun reached other => ?_, after.waits waits⟩
      refine ⟨shut ?_, Slot.failed_reason _ _ reached other⟩
      rw [slot, Slot.failed_state]
      exact if_pos reached
  · have after := closed_edition has' later c ed
    obtain ⟨q, k, same, -⟩ := after.slot
    obtain ⟨b, recorded⟩ := editionCommitted_slot n d u
    rw [same, recorded, Slot.editionCommitted, other, slot']
    exact ⟨_, rfl, fun k page inside => testBit_fullMask page inside, rfl, rfl⟩
  · have after := closed_edition has' later c ed
    obtain ⟨q, k, same, -⟩ := after.slot
    obtain ⟨b, recorded⟩ := editionCommitted_slot n d u
    rw [same, recorded, Slot.editionCommitted, active, slot']
    refine ⟨rfl, rfl, fun p held number => ?_, fun p held number => ?_⟩
    · simp only [if_true, held, number]
    · simp only [if_true, held, number, if_false]
  · refine (closed_tally has' later r).2.2 ?_
    rw [joined, groupOf_isSome]
    exact ⟨g, own, member⟩
  · obtain ⟨⟨k, same⟩, -⟩ := closed_tally has' later r
    obtain ⟨failures, counters, -⟩ := Slot.failed_fields (u.slot n).tallied (u.slotProfile n)
    rw [same]
    dsimp only
    rw [failures, counters, profile, slot']
    exact ⟨rfl, rfl⟩
  · obtain ⟨⟨k, same⟩, -⟩ := shutOnly r
    rw [same, slot']
    exact ⟨rfl, rfl⟩
  · rcases r with tallied | shut
    · obtain ⟨⟨k, same⟩, -⟩ := closed_tally has' later tallied
      obtain ⟨-, -, -, -, repair, -, heldId, heldH, heldActive, heldPending⟩ :=
        Slot.failed_fields (u.slot n).tallied (u.slotProfile n)
      rw [same]
      dsimp only
      rw [repair, heldId, heldH, heldActive, heldPending, slot']
      exact ⟨rfl, rfl, rfl, rfl, rfl⟩
    · obtain ⟨⟨k, same⟩, -⟩ := shutOnly shut
      rw [same, slot']
      exact ⟨rfl, rfl, rfl, rfl, rfl⟩

end Sys2Proof.Machine

/-!
The STATUS of a slot (R77, R80, R121): kept aside, of another serial, with a store fault, or recorded as held data, whose digest is
compared.
-/
namespace Sys2Proof.Machine

/-! ### The reply that a port holds -/

def State.replies (s : State) : Vector (Option Reply) 4 := s.ports.map Port.reply

theorem replies_of_bare {s u : State} (same : u.bare = s.bare) : u.replies = s.replies := by
  refine Vector.ext fun k inside => ?_
  rw [State.replies, Vector.getElem_map, State.replies, Vector.getElem_map]
  exact reply_of_bare same ⟨k, inside⟩

theorem reply_of_replies {s u : State} (same : u.replies = s.replies) (l : Fin 4) : (u.port l).reply = (s.port l).reply := by
  have at_l := congrArg (fun v : Vector (Option Reply) 4 => v[l]) same
  simpa [State.replies, State.port] using at_l

@[simp] theorem modSlot_replies (s : State) (n : Fin 24) (f : Slot → Slot) : (s.modSlot n f).replies = s.replies := rfl
@[simp] theorem modMarks_replies (s : State) (n : Fin 24) (f : Marks → Marks) : (s.modMarks n f).replies = s.replies := rfl
@[simp] theorem setSweep_replies (s : State) (n : Fin 24) (w : Sweep) : (s.setSweep n w).replies = s.replies := rfl
@[simp] theorem want_replies (s : State) (r : Fin 29) : (want r s).replies = s.replies := rfl
@[simp] theorem setKeepalive_replies (s : State) (n : Fin 24) : (setKeepalive n s).replies = s.replies := rfl
@[simp] theorem abandon_replies (s : State) (n : Fin 24) : (abandon n s).replies = s.replies :=
  replies_of_bare (abandon_bare s n)
@[simp] theorem withdraw_replies (s : State) (n : Fin 24) (p : Work → Bool) (d : Bool) :
    (withdraw n p d s).replies = s.replies := replies_of_bare (withdraw_bare s n p d)

@[simp] theorem reevaluate_replies (n : Fin 24) (s : State) : (reevaluate n s).replies = s.replies := by
  obtain ⟨x, same⟩ := reevaluate_eq n s
  rw [same]
  rfl

@[simp] theorem quarantine_replies (n : Fin 24) (r : Reason) (s : State) : (quarantine n r s).replies = s.replies := by
  unfold quarantine
  split
  · rfl
  · have told (u : State) : (raiseForSlot .quarantine n u).replies = u.replies := by
      obtain ⟨x, same⟩ := raiseForSlot_eq .quarantine n u
      rw [same]
      rfl
    rw [told]
    split <;> simp

/-! ### The fields of a STATUS -/

theorem flag_of_byte (x i : Nat) (inside : i < 8) : (BitVec.ofNat 8 x).getLsbD i = decide (x / 2 ^ i % 2 = 1) := by
  rw [BitVec.getLsbD_ofNat, decide_eq_true inside, Bool.true_and, Nat.testBit_eq_decide_div_mod_eq]

theorem parseStatus_flags (c : List Byte) : (parseStatus c).openDelivery = decide (fieldAt c 41 1 % 2 = 1) ∧
    (parseStatus c).storeFault = decide (fieldAt c 41 1 / 2 % 2 = 1) ∧
    (parseStatus c).busy = decide (fieldAt c 41 1 / 4 % 2 = 1) := by
  refine ⟨?_, flag_of_byte _ 1 (by decide), flag_of_byte _ 2 (by decide)⟩
  refine (flag_of_byte _ 0 (by decide)).trans ?_
  rw [Nat.pow_zero, Nat.div_one]

theorem parseStatus_eq (c : List Byte) : parseStatus c =
    { serial := BitVec.ofNat 64 (fieldAt c 0 8), identity := BitVec.ofNat 32 (fieldAt c 8 4), gen := BitVec.ofNat 32 (fieldAt c 12 4)
      digest := BitVec.ofNat 32 (fieldAt c 16 4), active := ⟨BitVec.ofNat 16 (fieldAt c 20 2), BitVec.ofNat 32 (fieldAt c 22 4)⟩
      pending := if fieldAt c 26 2 = 0 then none
        else some ⟨⟨BitVec.ofNat 16 (fieldAt c 26 2), BitVec.ofNat 32 (fieldAt c 28 4)⟩, decide (fieldAt c 32 1 % 2 = 1),
          BitVec.ofNat 64 (fieldAt c 33 8)⟩
      openDelivery := decide (fieldAt c 41 1 % 2 = 1), storeFault := decide (fieldAt c 41 1 / 2 % 2 = 1)
      busy := decide (fieldAt c 41 1 / 4 % 2 = 1) } := by
  obtain ⟨open_, fault, busy⟩ := parseStatus_flags c
  have complete : (BitVec.ofNat 8 (fieldAt c 32 1)).getLsbD 0 = decide (fieldAt c 32 1 % 2 = 1) := by
    rw [flag_of_byte _ 0 (by decide), Nat.pow_zero, Nat.div_one]
  rw [← open_, ← fault, ← busy, ← complete]
  rfl

/-! ### What a STATUS records -/

/-- The backoff of slot `v` after the STATUS `st`. -/
def Slot.busyFor (v : Slot) (st : Status) : Option Time := if st.busy then v.closedFor busyTime else v.backoff

theorem keptAside_slot (n : Fin 24) (st : Status) (s : State) :
    (keptAside n st s).slot n = { s.slot n with backoff := (s.slot n).busyFor st } := by
  unfold keptAside Slot.busyFor
  split
  · rw [backOff, State.modSlot_slot, if_pos rfl]
    rfl
  · rfl

/-- Slot `v` with the held data of `st`. -/
def Slot.recorded (c : ChangeEngine) (e : EditionMgr) (st : Status) (v : Slot) : Slot :=
  { v with
    heldId := st.identity
    heldH := if v.reload then 0 else if st.identity = c.identity ∧ c.gen < st.gen then 0 else st.gen
    heldActive := st.active, heldPending := st.pending
    unconfirmed := v.unconfirmed && decide (st.active ≠ ⟨e.active.number, e.active.digest⟩) }

theorem recordStatus_slot (n : Fin 24) (st : Status) (s : State) :
    (recordStatus n st s).slot n = (s.slot n).recorded s.change s.editions st := by
  rw [recordStatus, State.modSlot_slot, if_pos rfl]
  rfl

/-- The state of a STATUS recorded without a store fault, before its digest is compared. -/
def statusRecorded (n : Fin 24) (st : Status) (s : State) : State :=
  let s := keptAside n st (recordStatus n st s)
  match s.delivery n with
  | some d => if d.phase ≠ .opening ∧ st.openDelivery = false then abandon n s else s
  | none => s

theorem takeHeldData_fault {n : Fin 24} {st : Status} {s : State} (fault : st.storeFault = true) :
    takeHeldData n st s = quarantine n .store (recordStatus n st s) := by
  simp only [takeHeldData, fault, if_true]

theorem takeHeldData_sound {n : Fin 24} {st : Status} {s : State} (sound : st.storeFault = false) :
    takeHeldData n st s = want (rosterRec n) (reevaluate n (compareStatus n st (statusRecorded n st s))) := by
  simp only [takeHeldData, sound, Bool.false_eq_true, if_false]
  rfl

theorem statusRecorded_kept (n : Fin 24) (st : Status) (s : State) :
    (statusRecorded n st s).slot n = { (s.slot n).recorded s.change s.editions st with backoff := (s.slot n).busyFor st } ∧
    (statusRecorded n st s).dues = s.dues ∧ (statusRecorded n st s).wires = s.wires ∧
    (statusRecorded n st s).replies = s.replies ∧ (statusRecorded n st s).change = s.change ∧
    (statusRecorded n st s).editions = s.editions := by
  have slot : (keptAside n st (recordStatus n st s)).slot n =
      { (s.slot n).recorded s.change s.editions st with backoff := (s.slot n).busyFor st } := by
    rw [keptAside_slot, recordStatus_slot]
    rfl
  have kept : (keptAside n st (recordStatus n st s)).dues = s.dues ∧ (keptAside n st (recordStatus n st s)).wires = s.wires ∧
      (keptAside n st (recordStatus n st s)).replies = s.replies ∧
      (keptAside n st (recordStatus n st s)).change = s.change ∧
      (keptAside n st (recordStatus n st s)).editions = s.editions := by
    unfold keptAside
    split <;> exact ⟨rfl, rfl, rfl, rfl, rfl⟩
  unfold statusRecorded
  generalize keptAside n st (recordStatus n st s) = u at slot kept
  dsimp only
  split
  · split
    · obtain ⟨dues, wires, replies, change, editions⟩ := kept
      rw [abandon_slot, abandon_dues, abandon_wires, abandon_replies, abandon_change, editions_of_bare (abandon_bare u n)]
      exact ⟨slot, dues, wires, replies, change, editions⟩
    · exact ⟨slot, kept⟩
  · exact ⟨slot, kept⟩

theorem statusRecorded_delivery (n : Fin 24) (st : Status) (s : State) : (statusRecorded n st s).delivery n =
    if ∃ d, s.delivery n = some d ∧ d.phase ≠ .opening ∧ st.openDelivery = false then none else s.delivery n := by
  have same : (keptAside n st (recordStatus n st s)).delivery n = s.delivery n := by
    unfold keptAside
    split <;> rfl
  unfold statusRecorded
  generalize keptAside n st (recordStatus n st s) = u at same
  dsimp only
  rw [← same]
  split
  · next d has =>
    by_cases lost : d.phase ≠ .opening ∧ st.openDelivery = false
    · rw [if_pos lost, if_pos ⟨d, has, lost⟩, abandon_delivery, if_pos rfl]
    · rw [if_neg lost, if_neg]
      rintro ⟨d', has', lost'⟩
      rw [has] at has'
      cases has'
      exact lost lost'
  · next none_ =>
    rw [if_neg]
    rintro ⟨d, has, -⟩
    rw [none_] at has
    cases has

/-! ### The digest comparison (R175) -/

/-- What a comparison of the digest of `st` with the live image leaves of slot `n`. -/
structure ComparedWith (n : Fin 24) (st : Status) (s t : State) : Prop where
  delivery : t.delivery n = s.delivery n
  dues : t.dues = s.dues
  wires : t.wires = s.wires
  replies : t.replies = s.replies
  change : t.change = s.change
  editions : t.editions = s.editions
  slot : ∃ r k, t.slot n = { s.slot n with repair := r, counters := k }
  equal : s.digestComparable n st = true → st.digest = s.change.digest → (t.slot n).repair = false
  found : s.digestComparable n st = true → st.digest ≠ s.change.digest → (s.slot n).repair = false →
    t.slot n = { (s.slot n).differed with repair := true }
  known : s.digestComparable n st = true → st.digest ≠ s.change.digest → (s.slot n).repair = true → t = s

theorem compareStatus_compared (n : Fin 24) (st : Status) (s : State) : ComparedWith n st s (compareStatus n st s) := by
  unfold compareStatus
  cases comparable : s.digestComparable n st
  · have no : ¬ s.digestComparable n st = true := Bool.eq_false_iff.1 comparable
    exact ⟨rfl, rfl, rfl, rfl, rfl, rfl, ⟨_, _, rfl⟩, fun yes => absurd yes no, fun yes => absurd yes no,
      fun yes => absurd yes no⟩
  · rw [if_pos rfl]
    by_cases same : st.digest = s.change.digest
    · rw [if_pos same]
      cases repair : (s.slot n).repair
      · exact ⟨rfl, rfl, rfl, rfl, rfl, rfl, ⟨_, _, rfl⟩, fun _ _ => repair, fun _ other => absurd same other,
          fun _ other => absurd same other⟩
      · have slot : (clearRepair n s).slot n = { s.slot n with repair := false } := by
          rw [clearRepair, dropSweep_slot, State.modSlot_slot, if_pos rfl]
        exact ⟨rfl, rfl, rfl, rfl, rfl, rfl, ⟨_, _, slot⟩, fun _ _ => (congrArg Slot.repair slot :), fun _ other =>
          absurd same other, fun _ other => absurd same other⟩
    · rw [if_neg same]
      cases repair : (s.slot n).repair
      · have slot : (countMismatch n (setRepair n s)).slot n = { (s.slot n).differed with repair := true } := by
          rw [countMismatch_slot, setRepair, State.modSlot_slot, if_pos rfl]
          rfl
        exact ⟨rfl, rfl, rfl, rfl, rfl, rfl, ⟨_, _, slot⟩, fun _ equal => absurd equal same, fun _ _ _ => slot,
          fun _ _ yes => absurd (repair.symm.trans yes) (by decide)⟩
      · exact ⟨rfl, rfl, rfl, rfl, rfl, rfl, ⟨_, _, rfl⟩, fun _ equal => absurd equal same,
          fun _ _ no => absurd (repair.symm.trans no) (by decide), fun _ _ _ => rfl⟩

/-! ### The ways of a STATUS -/

@[simp] theorem statusMarks_slot (w : Work) (n k : Fin 24) (s : State) : (statusMarks w n s).slot k = s.slot k := rfl
@[simp] theorem statusMarks_delivery (w : Work) (n k : Fin 24) (s : State) :
    (statusMarks w n s).delivery k = s.delivery k := rfl

theorem statusMarks_confirmed (w : Work) (n : Fin 24) (s : State) : ((statusMarks w n s).marks n).confirmDue = false := by
  rw [statusMarks, State.modMarks_marks, if_pos rfl]

/-- What every STATUS leaves of the marks, the lines and the reply. -/
structure StatusLeft (w : Work) (n : Fin 24) (s t : State) : Prop where
  marks : t.dues = (statusMarks w n s).dues
  wires : t.wires = s.wires
  replies : t.replies = s.replies

theorem keptAside_left {w : Work} {n : Fin 24} {st : Status} {s u : State} (left : StatusLeft w n s u) :
    StatusLeft w n s (keptAside n st u) := by
  unfold keptAside
  split
  · exact ⟨left.marks, left.wires, left.replies⟩
  · exact left

theorem takeHeldData_left {w : Work} {n : Fin 24} {st : Status} {s u : State} (left : StatusLeft w n s u) :
    StatusLeft w n s (takeHeldData n st u) := by
  obtain ⟨marks, wires, replies⟩ := left
  cases fault : st.storeFault
  · obtain ⟨-, dues, wires', replies', -⟩ := statusRecorded_kept n st u
    have compared := compareStatus_compared n st (statusRecorded n st u)
    rw [takeHeldData_sound fault]
    constructor
    · rw [want_dues, reevaluate_dues, compared.dues, dues, marks]
    · rw [want_wires, ← wires, ← wires', ← compared.wires]
      obtain ⟨x, same⟩ := reevaluate_eq n (compareStatus n st (statusRecorded n st u))
      rw [same]
      rfl
    · rw [want_replies, reevaluate_replies, compared.replies, replies', replies]
  · rw [takeHeldData_fault fault]
    exact ⟨(quarantine_dues n .store _).trans marks, (quarantine_wires n .store _).trans wires,
      (quarantine_replies n .store _).trans replies⟩

theorem takeStatus_left (ex : Exchange) (content : List Byte) (n : Fin 24) (s : State) :
    StatusLeft ex.work n s (takeStatus ex content n s) := by
  have base : StatusLeft ex.work n s (statusMarks ex.work n s) := ⟨rfl, rfl, rfl⟩
  have other (u : State) : StatusLeft ex.work n s (toIdentifying n (parseStatus content) (abandon n (statusMarks ex.work n s))) := by
    exact ⟨abandon_dues _ n, abandon_wires _ n, abandon_replies _ n⟩
  unfold takeStatus
  dsimp only
  split
  · exact base
  · exact keptAside_left ⟨rfl, rfl, rfl⟩
  · exact keptAside_left ⟨rfl, rfl, rfl⟩
  · split
    · exact other s
    · exact takeHeldData_left base
  · split
    · exact other s
    · exact takeHeldData_left base
  · split
    · exact ⟨rfl, rfl, rfl⟩
    · exact takeHeldData_left base

section
variable {s : State} {ex : Exchange} {content : List Byte} {n : Fin 24}

theorem takeStatus_silent (state : (s.slot n).state = .silent) : (takeStatus ex content n s).slot n =
    { s.slot n with state := .identifying, kept := some (parseStatus content), identify := some 0, keepalive := none
                    backoff := (s.slot n).busyFor (parseStatus content) } := by
  have taken : takeStatus ex content n s =
      keptAside n (parseStatus content) (toIdentifying n (parseStatus content) (statusMarks ex.work n s)) := by
    simp only [takeStatus, statusMarks_slot, state]
  rw [taken, keptAside_slot, toIdentifying, State.modSlot_slot, if_pos rfl]
  rfl

theorem takeStatus_identifying (state : (s.slot n).state = .identifying) : (takeStatus ex content n s).slot n =
    { s.slot n with kept := some (parseStatus content), backoff := (s.slot n).busyFor (parseStatus content) } := by
  have taken : takeStatus ex content n s = keptAside n (parseStatus content)
      ((statusMarks ex.work n s).modSlot n fun v => { v with kept := some (parseStatus content) }) := by
    simp only [takeStatus, statusMarks_slot, state]
  rw [taken, keptAside_slot, State.modSlot_slot, if_pos rfl]
  rfl

theorem takeStatus_other (state : (s.slot n).state = .behind ∨ (s.slot n).state = .current)
    (serial : (parseStatus content).serial ≠ (s.slot n).serial) :
    (takeStatus ex content n s).slot n = { s.slot n with
      state := .identifying, kept := some (parseStatus content), identify := some 0, keepalive := none } ∧
    (takeStatus ex content n s).delivery n = none := by
  have taken : takeStatus ex content n s = toIdentifying n (parseStatus content) (abandon n (statusMarks ex.work n s)) := by
    rcases state with state | state <;> simp only [takeStatus, statusMarks_slot, state] <;> exact if_pos serial
  rw [taken, toIdentifying, State.modSlot_slot, if_pos rfl, State.modSlot_delivery, abandon_slot, abandon_delivery, if_pos rfl]
  exact ⟨rfl, rfl⟩

theorem takeStatus_strange (state : (s.slot n).state = .quarantined)
    (serial : (parseStatus content).serial ≠ (s.slot n).serial) :
    (takeStatus ex content n s).slot n = { s.slot n with serialSeen := (parseStatus content).serial } := by
  have taken : takeStatus ex content n s =
      (statusMarks ex.work n s).modSlot n fun v => { v with serialSeen := (parseStatus content).serial } := by
    simp only [takeStatus, statusMarks_slot, state]
    exact if_pos serial
  rw [taken, State.modSlot_slot, if_pos rfl]
  rfl

theorem takeStatus_held (state : ((s.slot n).state = .behind ∨ (s.slot n).state = .current) ∨ (s.slot n).state = .quarantined)
    (serial : (parseStatus content).serial = (s.slot n).serial) :
    takeStatus ex content n s = takeHeldData n (parseStatus content) (statusMarks ex.work n s) := by
  rcases state with (state | state) | state <;> simp only [takeStatus, statusMarks_slot, state] <;>
    exact if_neg (not_not.2 serial)

end

/-! ### Held data at the end of the step -/

theorem Later.kept_slot {u t : State} {n : Fin 24} (later : Later (setKeepalive n u) t) : t.slot n =
    { u.slot n with keepalive := keepaliveAfter (u.slotProfile n).interval (u.slot n).state } := by
  rw [later.slot, setKeepalive_slot, if_pos rfl]

theorem quarantinedFor_held (v : Slot) (r : Reason) (i : Time) : (v.quarantinedFor r i).state = .quarantined ∧
    (v.quarantinedFor r i).heldId = v.heldId ∧ (v.quarantinedFor r i).heldH = v.heldH ∧
    (v.quarantinedFor r i).heldActive = v.heldActive ∧ (v.quarantinedFor r i).heldPending = v.heldPending ∧
    (v.quarantinedFor r i).unconfirmed = v.unconfirmed ∧ (v.quarantinedFor r i).binding = v.binding := by
  unfold Slot.quarantinedFor
  split
  · next state => exact ⟨state, rfl, rfl, rfl, rfl, rfl, rfl⟩
  · exact ⟨rfl, rfl, rfl, rfl, rfl, rfl, rfl⟩

/-- Slot `w` as held data `st` leaves it, its comparison and its state apart. -/
structure HeldBy (c : ChangeEngine) (e : EditionMgr) (st : Status) (v w : Slot) : Prop where
  heldId : w.heldId = (v.recorded c e st).heldId
  heldH : w.heldH = (v.recorded c e st).heldH
  heldActive : w.heldActive = (v.recorded c e st).heldActive
  heldPending : w.heldPending = (v.recorded c e st).heldPending
  unconfirmed : w.unconfirmed = (v.recorded c e st).unconfirmed
  binding : w.binding = v.binding
  state : w.state = .behind ∨ w.state = .current ∨ w.state = .quarantined

/-- A slot in service that the STATUS `st` left in service. -/
structure InformedBy (n : Fin 24) (st : Status) (s t : State) : Prop where
  compared : ∃ u, ComparedWith n st (statusRecorded n st s) u ∧
    t.slot n = (u.slot n).judged s.change s.editions ∧ t.delivery n = (statusRecorded n st s).delivery n
  wanted : t.report.wanted[rosterRec n] = true

theorem takeHeldData_informed {n : Fin 24} {st : Status} {s : State} (sound : st.storeFault = false) :
    InformedBy n st s (takeHeldData n st s) := by
  have compared := compareStatus_compared n st (statusRecorded n st s)
  obtain ⟨-, -, -, -, change, editions⟩ := statusRecorded_kept n st s
  rw [takeHeldData_sound sound]
  refine ⟨⟨_, compared, ?_, ?_⟩, ?_⟩
  · refine (reevaluate_slot _ n n).trans ?_
    rw [if_pos rfl, compared.change, compared.editions, change, editions]
  · obtain ⟨x, same⟩ := reevaluate_eq n (compareStatus n st (statusRecorded n st s))
    rw [same]
    exact compared.delivery
  · rw [want_wanted]
    simp

theorem takeHeldData_heldBy {n : Fin 24} {st : Status} {s : State}
    (state : ((s.slot n).state = .behind ∨ (s.slot n).state = .current) ∨ (s.slot n).state = .quarantined) :
    HeldBy s.change s.editions st (s.slot n) ((takeHeldData n st s).slot n) := by
  cases fault : st.storeFault
  · obtain ⟨⟨u, compared, slot, -⟩, -⟩ := takeHeldData_informed (n := n) (s := s) fault
    obtain ⟨base, -⟩ := statusRecorded_kept n st s
    obtain ⟨r, k, found⟩ := compared.slot
    rw [base] at found
    have after : (u.slot n).state = (s.slot n).state := by rw [found]; rfl
    rw [slot]
    by_cases serving : (s.slot n).state = .behind ∨ (s.slot n).state = .current
    · rw [Slot.judged, if_pos (by rwa [after]), found]
      refine ⟨rfl, rfl, rfl, rfl, rfl, rfl, ?_⟩
      dsimp only
      split
      · exact .inr (.inl rfl)
      · exact .inl rfl
    · rw [Slot.judged, if_neg (by rwa [after]), found]
      exact ⟨rfl, rfl, rfl, rfl, rfl, rfl, .inr (.inr (state.resolve_left serving))⟩
  · rw [takeHeldData_fault fault, quarantine_slot, if_pos rfl, recordStatus_slot]
    obtain ⟨state, heldId, heldH, heldActive, heldPending, unconfirmed, binding⟩ := quarantinedFor_held
      ((s.slot n).recorded s.change s.editions st) .store ((recordStatus n st s).slotProfile n).interval
    exact ⟨heldId, heldH, heldActive, heldPending, unconfirmed, binding, .inr (.inr state)⟩

/-- What CURRENT says of a slot's held data (R76). -/
theorem upToDate_says {c : ChangeEngine} {e : EditionMgr} {v : Slot} (matched : v.upToDate c e = true) :
    v.heldId = c.identity ∧ v.heldH = c.gen ∧ v.heldActive = ⟨e.active.number, e.active.digest⟩ ∧ v.repair = false ∧
    v.unconfirmed = false ∧ (e.pending.state ≠ .pending → v.heldPending = none) ∧
    (e.pending.state = .pending → ∃ p, v.heldPending = some p ∧ p.complete = true ∧
      p.edition = ⟨e.pending.number, e.pending.digest⟩) := by
  simp only [Slot.upToDate, Bool.and_eq_true, decide_eq_true_iff, Bool.not_eq_true'] at matched
  obtain ⟨⟨⟨⟨⟨⟨⟨heldId, heldH⟩, heldActive⟩, pending⟩, repair⟩, unconfirmed⟩, -⟩, -⟩ := matched
  refine ⟨heldId, heldH, heldActive, repair, unconfirmed, fun other => ?_, fun has => ?_⟩
  · rw [EditionMgr.pendingRef, if_neg other] at pending
    exact Option.isNone_iff_eq_none.1 pending
  · rw [EditionMgr.pendingRef, if_pos has] at pending
    obtain ⟨m, held⟩ := (holdsPending_iff v _).1 pending
    exact ⟨_, held, rfl, rfl⟩

theorem judged_serving {c : ChangeEngine} {e : EditionMgr} {v : Slot} (state : v.state = .behind ∨ v.state = .current) :
    (v.judged c e).state = .behind ∨ (v.judged c e).state = .current := by
  rw [Slot.judged, if_pos state]
  dsimp only
  split
  · exact .inr rfl
  · exact .inl rfl

/-- Settles O50: by the state of its slot the STATUS is kept aside, shows another serial, or is recorded as held data. -/
theorem statusTaken : Obligations.StatusTaken := by
  unfold Obligations.StatusTaken
  intro s l ex content n high held slot attached stands c st v interval inService busied compared
  obtain ⟨t, run, later⟩ := takeReply_later (f := takeStatus) high held slot attached stands
  obtain ⟨mem, change⟩ := line_keeps (c := .status l) rfl run
  have working : s.working = true := by
    by_contra rest
    rw [replyHeld_of_not_working (Bool.eq_false_iff.2 rest)] at held
    cases held
  have healthy : (overExchange l ex s).isFaulted = false := by
    simpa [State.isFaulted] using not_isFaulted_of_working working
  have parsed : parseStatus content = st := parseStatus_eq content
  have slot' : (overExchange l ex s).slot n = v := overExchange_slot ..
  have image : (overExchange l ex s).change = s.change := by simp
  have editions : (overExchange l ex s).editions = s.editions := overExchange_editions ..
  have delivery : (overExchange l ex s).delivery n = s.delivery n := overExchange_delivery ..
  have wires : (overExchange l ex s).wires = s.wires := overExchange_wires ..
  have empty : ((overExchange l ex s).port l).reply = none := by
    rw [overExchange_port]
    simp
  generalize overExchange l ex s = u at later healthy slot' image editions delivery wires empty
  have left := takeStatus_left ex content n u
  have kept := later.kept_slot
  have profile (same : ((takeStatus ex content n u).slot n).binding = v.binding) :
      (takeStatus ex content n u).slotProfile n = s.slotProfile n :=
    slotProfile_of_wires (left.wires.trans wires) same
  have interval' : (s.slotProfile n).interval = interval := rfl
  have heldData (state : inService ∨ v.state = .quarantined) (serial : st.serial = v.serial) :
      takeStatus ex content n u = takeHeldData n st (statusMarks ex.work n u) := by
    rw [← parsed] at serial ⊢
    exact takeStatus_held (by rwa [slot']) (by rwa [slot'])
  have heldBy (state : inService ∨ v.state = .quarantined) (serial : st.serial = v.serial) :
      HeldBy s.change s.editions st v ((takeStatus ex content n u).slot n) := by
    have by_ := takeHeldData_heldBy (n := n) (st := st) (s := statusMarks ex.work n u) (by
      rw [statusMarks_slot, slot']
      exact state)
    rw [statusMarks_slot, slot'] at by_
    rw [heldData state serial, ← image, ← editions]
    exact by_
  refine ⟨t, run, mem, change, ?_, ?_, fun state => ?_, fun serving serial => ?_, fun serving serial => ?_, fun state => ?_,
    fun state serial => ?_, fun state serial => ?_, fun serving serial fault => ?_, fun serving serial sound => ?_⟩
  · obtain ⟨x, r, port⟩ := later.port l
    rw [port]
    exact (reply_of_replies left.replies l).trans empty
  · have marks : t.marks n = (statusMarks ex.work n u).marks n :=
      (later.marks n).trans (State.marks_of_dues left.marks n)
    rw [marks]
    exact statusMarks_confirmed ..
  · rw [kept, takeStatus_silent (by rw [slot']; exact state), parsed, slot']
    rfl
  · rw [kept, (takeStatus_other (by rw [slot']; exact serving) (by rw [slot', parsed]; exact serial)).1, parsed, slot']
    rfl
  · exact later.delivery_none (takeStatus_other (by rw [slot']; exact serving) (by rw [slot', parsed]; exact serial)).2
  · have taken := takeStatus_identifying (ex := ex) (content := content) (s := u) (n := n) (by rw [slot']; exact state)
    rw [kept, taken, parsed, slot']
    dsimp only
    rw [state]
    rfl
  · have taken := takeStatus_strange (ex := ex) (content := content) (s := u) (n := n) (by rw [slot']; exact state)
      (by rw [slot', parsed]; exact serial)
    rw [kept, profile (by rw [taken, slot']), taken, parsed, slot']
    dsimp only
    rw [state]
    rfl
  · have by_ := heldBy state serial
    rw [kept, profile by_.binding]
    refine ⟨by_.heldId, by_.heldActive, by_.heldPending, ?_, by_.heldH, by_.unconfirmed⟩
    dsimp only
    rcases by_.state with state | state | state <;> rw [state] <;> rfl
  · have taken := heldData (.inl serving) serial
    have marked : (recordStatus n st (statusMarks ex.work n u)).slot n = v.recorded u.change u.editions st := by
      rw [recordStatus_slot, statusMarks_slot, slot']
      rfl
    have other : ((recordStatus n st (statusMarks ex.work n u)).slot n).state ≠ .quarantined := by
      rw [marked]
      rcases serving with state | state <;> exact state ▸ by decide
    have notice := quarantine_notice (r := .store) (s := recordStatus n st (statusMarks ex.work n u)) healthy other
    rw [takeHeldData_fault fault] at taken
    rw [taken] at kept later
    have delivery : t.delivery n = none := later.delivery_none (by
      rw [setKeepalive_delivery, quarantine_delivery, if_pos ⟨rfl, other⟩])
    have waiting := later.waiting
    rw [setKeepalive_report] at waiting
    rw [kept, quarantine_slot, if_pos rfl, Slot.quarantinedFor, if_neg other, waiting]
    exact ⟨rfl, rfl, delivery, notice⟩
  · have taken := heldData (.inl serving) serial
    obtain ⟨⟨w, found, slot'', delivery'⟩, wanted⟩ :=
      takeHeldData_informed (n := n) (s := statusMarks ex.work n u) sound
    obtain ⟨base, -, -, -, image', -⟩ := statusRecorded_kept n st (statusMarks ex.work n u)
    have recordedDelivery := statusRecorded_delivery n st (statusMarks ex.work n u)
    rw [statusMarks_delivery, delivery] at recordedDelivery
    have image'' : (statusMarks ex.work n u).change = s.change := image
    have editions'' : (statusMarks ex.work n u).editions = s.editions := editions
    rw [statusMarks_slot, slot', image'', editions''] at base
    rw [image''] at image'
    rw [image'', editions''] at slot''
    have comparable (c : compared) : (statusRecorded n st (statusMarks ex.work n u)).digestComparable n st = true := by
      obtain ⟨pages, identity, gen, reload, still, shut, others⟩ := c
      have own : ∀ d, (statusRecorded n st (statusMarks ex.work n u)).delivery n = some d → d.mode.isBlocklist = false := by
        intro d has
        rw [recordedDelivery] at has
        split at has
        · cases has
        · exact others d has
      have reload' : ((statusRecorded n st (statusMarks ex.work n u)).slot n).reload = false := by
        rw [base]
        exact reload
      simp only [State.digestComparable, image', reload', Bool.and_eq_true, decide_eq_true_iff, Bool.not_eq_true']
      refine ⟨⟨⟨⟨⟨⟨pages, identity⟩, gen⟩, trivial⟩, still⟩, shut⟩, ?_⟩
      split
      · next d has => rw [own d has]; rfl
      · rfl
    rw [taken] at kept later
    obtain ⟨r, k, same⟩ := found.slot
    rw [base] at same
    have serving' : (w.slot n).state = .behind ∨ (w.slot n).state = .current := by
      rw [same]
      exact serving
    obtain ⟨q, judged⟩ := judged_state s.change s.editions (w.slot n)
    have states := judged_serving (c := s.change) (e := s.editions) serving'
    have repaired := judged_not_current (c := s.change) (e := s.editions) (v := w.slot n)
    have current := judged_current (c := s.change) (e := s.editions) (v := w.slot n)
    rw [slot'', judged] at kept
    rw [judged] at states repaired current
    generalize keepaliveAfter _ _ = time at kept
    have fields : (t.slot n).state = q ∧ (t.slot n).repair = (w.slot n).repair ∧
        (t.slot n).counters = (w.slot n).counters := by
      rw [kept]
      exact ⟨rfl, rfl, rfl⟩
    obtain ⟨state', repair', counters'⟩ := fields
    rw [state', repair', counters']
    refine ⟨states, fun now => ?_, ?_, later.wanted _ wanted, fun d has open_ shut => ?_, fun c differs clear => ?_,
      fun c equal => ?_, fun c differs flagged => ?_⟩
    · obtain ⟨heldId, heldH, heldActive, repair, unconfirmed, gone, whole⟩ := upToDate_says (current now).1
      rw [kept]
      rw [same] at heldActive gone whole
      exact ⟨heldId, heldH, heldActive, repair, unconfirmed, gone, whole⟩
    · rw [kept, same]
      rfl
    · refine later.delivery_none (delivery'.trans (recordedDelivery.trans ?_))
      exact if_pos ⟨d, has, open_, shut⟩
    · have differing := found.found (comparable c) (by rw [image']; exact differs) (by rw [base]; exact clear)
      have repair : (w.slot n).repair = true := by rw [differing]
      have counted : (w.slot n).counters.mismatches = min (v.counters.mismatches + 1) 65535 := by
        rw [differing, base]
        rfl
      exact ⟨repair, states.resolve_right (repaired repair), counted⟩
    · exact found.equal (comparable c) (by rw [image']; exact equal)
    · have unchanged := found.known (comparable c) (by rw [image']; exact differs) (by rw [base]; exact flagged)
      rw [unchanged, base]
      exact ⟨flagged, rfl⟩

end Sys2Proof.Machine

/-!
A change of mode that waited takes effect (R98): the ports of the lines, a pair that starts, and the arbiter of its secondary.
-/
namespace Sys2Proof.Machine

/-! ### An arbiter that stays cold -/

/-- A fold over the lines whose step changes only its own line's part of something leaves the step's change in each. -/
theorem forLines_own {α : Type} {get : State → Fin 4 → α} {g : Fin 4 → α → α} {f : Fin 4 → State → State}
    (own : ∀ l s k, get (f l s) k = if l = k then g l (get s l) else get s k) :
    ∀ (ls : List (Fin 4)) (_ : ls.Nodup) (s : State) (k : Fin 4),
      get (forLines f ls s) k = if k ∈ ls then g k (get s k) else get s k
  | [], _, _, _ => rfl
  | l :: ls, nodup, s, k => by
    obtain ⟨fresh, rest⟩ := List.nodup_cons.1 nodup
    have step : forLines f (l :: ls) s = forLines f ls (f l s) := rfl
    rw [step, forLines_own own ls rest, own]
    by_cases here : l = k
    · subst here
      simp [fresh]
    · simp [here, Ne.symm here]

section
variable {s : State} {k : Fin 4} (cold : s.arbiter k = .cold)
include cold

theorem endTurns_cold (t : Target) : (endTurns t s).arbiter k = .cold := by
  have own : (endTurns t s).arbiter k = match (s.arbiter k).turn with
      | some u => if u.target = t then { s.arbiter k with turn := none } else s.arbiter k
      | none => s.arbiter k := by
    simp only [State.arbiter, endTurns, Fin.getElem_fin, Vector.getElem_map] <;> rfl
  rw [own, cold]
  rfl

theorem foldEndTurns_cold : ∀ (gs : List Group), (gs.foldl (fun s g => endTurns (.group g.id) s) s).arbiter k = .cold := by
  intro gs
  induction gs generalizing s with
  | nil => exact cold
  | cons g gs ih => exact ih (endTurns_cold cold _)

theorem tendGroups_cold : (tendGroups s).arbiter k = .cold := foldEndTurns_cold cold _

theorem leaveGroup_cold (n : Fin 24) : (leaveGroup n s).arbiter k = .cold := tendGroups_cold cold

theorem dropDelivery_cold (n : Fin 24) : (dropDelivery n s).arbiter k = .cold := by
  unfold dropDelivery
  split
  · have base : (unlist n (s.setDelivery n none)).arbiter k = .cold := cold
    exact leaveGroup_cold (endTurns_cold base _) n
  · exact cold

theorem endDelivery_cold (n : Fin 24) : (endDelivery n s).arbiter k = .cold := by
  unfold endDelivery
  split
  · have dropped := dropDelivery_cold cold n
    split <;> exact dropped
  · exact cold

theorem abandon_cold (n : Fin 24) : (abandon n s).arbiter k = .cold :=
  leaveGroup_cold (endDelivery_cold (s := withdraw n Work.isDelivery false s) cold n) n

end

/-- No boundary gives a line that is not on a turn. -/
theorem bounds_cold (u : State) (k : Fin 4) (off : u.lineOn k = false) :
    Bounds fun v => v.bare = u.bare ∧ v.arbiter k = .cold where
  turn s l f on kept := by
    obtain ⟨bare, cold⟩ := kept
    have other : l ≠ k := by
      rintro rfl
      rw [lineOn_of_bare bare, off] at on
      cases on
    exact ⟨bare, (State.modArbiter_arbiter s l k f).trans ((if_neg other).trans cold)⟩
  hand s l w on _ kept := by
    obtain ⟨bare, cold⟩ := kept
    exact ⟨(handOver_bare s l w).trans bare, cold⟩
  leave s n kept := ⟨(leaveGroup_bare s n).trans kept.1, leaveGroup_cold kept.2 n⟩
  abandons s n l _ _ _ kept := ⟨(abandon_bare s n).trans kept.1, abandon_cold kept.2 n⟩
  forms s g _ _ _ _ _ kept := kept

/-! ### A port whose mode comes into force -/

/-- A port, its idle time apart, with the discovery position of its line. -/
def State.fitted (s : State) (k : Fin 4) : Port × Nat :=
  ({ s.port k with idleTime := 0 }, (s.lineRoster k).position)

/-- What applying its mode makes of a port and its line's discovery position. -/
def appliedPort (x : Port × Nat) : Port × Nat :=
  ({ x.1 with
      last := if x.1.applied = .off then none else x.1.last
      tag := if x.1.applied = .pairSecondary then 0 else x.1.tag
      applied := x.1.mode },
    if x.1.applied = .off ∨ x.1.applied = .pairSecondary then 1 else x.2)

theorem applyPort_fitted (l : Fin 4) (s : State) (k : Fin 4) :
    (applyPort l s).fitted k = if l = k then appliedPort (s.fitted l) else s.fitted k := by
  by_cases here : l = k
  · subst here
    rw [if_pos rfl]
    cases old : (s.port l).applied <;>
      simp [applyPort, old, State.fitted, appliedPort, leaveOff, splitOdd]
  · rw [if_neg here]
    cases old : (s.port l).applied <;>
      simp [applyPort, old, State.fitted, leaveOff, splitOdd, here]

/-- The lines of `ls` whose recorded mode is not in force. -/
def State.unapplied (s : State) (ls : List (Fin 4)) : List (Fin 4) :=
  ls.filter fun k => decide ((s.port k).applied ≠ (s.port k).mode)

theorem modeLines_nodup (s : State) (l : Fin 4) : (s.modeLines l).Nodup := by
  unfold State.modeLines
  dsimp only
  split
  · fin_cases l <;> decide
  · exact List.nodup_singleton _

theorem mem_modeLines (s : State) (l : Fin 4) : l ∈ s.modeLines l := by
  unfold State.modeLines
  dsimp only
  split
  · fin_cases l <;> decide
  · exact List.mem_singleton_self _

theorem mem_modeLines_pair {s : State} {l : Fin 4} (pairs : (s.port (evenLine l)).mode = .pairPrimary) (k : Fin 4) :
    k ∈ s.modeLines l ↔ k = evenLine l ∨ k = partner (evenLine l) := by
  have whole : s.modeLines l = [evenLine l, partner (evenLine l)] := by
    unfold State.modeLines
    refine if_pos ?_
    fin_cases l <;> simp only [evenLine, partner] at pairs ⊢ <;> simp [pairs]
  rw [whole]
  simp

/-- The state in which the recorded modes of `ls` are in force. -/
def modesApplied (ls : List (Fin 4)) (s : State) : State := forLines applyPort (s.unapplied ls) s

theorem modesApplied_fitted {ls : List (Fin 4)} (nodup : ls.Nodup) (s : State) (k : Fin 4) :
    (modesApplied ls s).fitted k =
      if k ∈ ls ∧ (s.port k).applied ≠ (s.port k).mode then appliedPort (s.fitted k) else s.fitted k := by
  have distinct : (s.unapplied ls).Nodup := nodup.filter _
  rw [modesApplied, forLines_own (get := State.fitted) (g := fun _ => appliedPort) applyPort_fitted _ distinct]
  simp only [State.unapplied, List.mem_filter, decide_eq_true_iff]

theorem applyModes_eq (l : Fin 4) (s : State) : applyModes l s =
    if (modesApplied (s.modeLines l) s).looped (evenLine l) &&
      (!s.looped (evenLine l) || ((modesApplied (s.modeLines l) s).port (evenLine l)).forming)
    then startPair (evenLine l) (modesApplied (s.modeLines l) s) else modesApplied (s.modeLines l) s := rfl

theorem applyPort_rest (l : Fin 4) (s : State) : (applyPort l s).roster.slots = s.roster.slots ∧
    (applyPort l s).sched = s.sched := by
  unfold applyPort
  cases (s.port l).applied <;> exact ⟨rfl, rfl⟩

theorem modesApplied_rest (ls : List (Fin 4)) (s : State) : (modesApplied ls s).roster.slots = s.roster.slots ∧
    (modesApplied ls s).sched = s.sched := by
  have keeps := forLines_keeps (fun s => (s.roster.slots, s.sched)) applyPort
    (fun l s => Prod.ext (applyPort_rest l s).1 (applyPort_rest l s).2) (s.unapplied ls) s
  exact Prod.mk.injEq .. ▸ keeps

/-! ### A pair that starts -/

/-- The port of line `k` as the pair of line `l` starts, its idle time apart. -/
def Port.paired (p : Port) : Port :=
  { p with forming := false, broken := false, missRun := 0, goodRun := 0, echoDue := false }

/-- The state in which the pair of line `l` is INTACT, before its arbiters are joined. -/
def pairIntact (l : Fin 4) (s : State) : State :=
  s.modPort l fun p => { p.paired with idleTime := min p.idleTime (s.port (partner l)).idleTime }

theorem startPair_eq (l : Fin 4) (s : State) :
    startPair l s = passArbiter l (partner l) (reachPrimary l (pairIntact l s)) := rfl

theorem reachPrimary_slot (l : Fin 4) (s : State) (n : Fin 24) : (reachPrimary l s).slot n = (s.slot n).primaryOn l := by
  rw [reachPrimary_eq, State.slot]
  simp

theorem reachPrimary_fitted (l k : Fin 4) (s : State) : (reachPrimary l s).fitted k = s.fitted k := by
  have eq := reachPrimary_eq s l
  generalize (Vector.ofFn fun n => (s.slot n).primaryOn l) = slots at eq
  rw [eq]
  rfl

theorem passArbiter_rest (l k : Fin 4) (s : State) : (passArbiter l k s).ports = s.ports ∧
    (passArbiter l k s).roster = s.roster := ⟨rfl, rfl⟩

theorem passArbiter_fitted (l k j : Fin 4) (s : State) : (passArbiter l k s).fitted j = s.fitted j := by
  obtain ⟨ports, roster⟩ := passArbiter_rest l k s
  simp only [State.fitted, State.port, State.lineRoster, ports, roster]

theorem passArbiter_slot (l k : Fin 4) (s : State) (n : Fin 24) : (passArbiter l k s).slot n = s.slot n := by
  rw [State.slot, (passArbiter_rest l k s).2, State.slot]

theorem passArbiter_cold (l k : Fin 4) (s : State) : (passArbiter l k s).arbiter k = .cold := by
  have set (u : State) : (u.modArbiter k fun _ => .cold).arbiter k = .cold := by
    rw [State.modArbiter_arbiter, if_pos rfl]
  exact set (s.modArbiter l fun a => { a with activateDue := mergeDue a.activateDue (s.arbiter k).activateDue })

theorem startPair_fitted (l k : Fin 4) (s : State) : (startPair l s).fitted k =
    if l = k then ((s.fitted k).1.paired, (s.fitted k).2) else s.fitted k := by
  rw [startPair_eq, passArbiter_fitted, reachPrimary_fitted]
  by_cases here : l = k
  · subst here
    simp [State.fitted, pairIntact, Port.paired]
  · simp [State.fitted, pairIntact, here]

theorem startPair_slot (l : Fin 4) (s : State) (n : Fin 24) : (startPair l s).slot n = (s.slot n).primaryOn l := by
  rw [startPair_eq, passArbiter_slot, reachPrimary_slot]
  rfl

/-- What the rules of a line's mode say of its port. -/
def Port.rules (p : Port) : LineMode × Fin 4 × LineMode × BitVec 4 × Option (Nat × Bool) :=
  (p.mode, p.profile, p.applied, p.tag, p.last)

theorem applyModes_fitted (l k : Fin 4) (s : State) :
    ((applyModes l s).fitted k).1.rules = ((modesApplied (s.modeLines l) s).fitted k).1.rules ∧
      ((applyModes l s).fitted k).2 = ((modesApplied (s.modeLines l) s).fitted k).2 := by
  rw [applyModes_eq]
  split
  · rw [startPair_fitted]
    split <;> exact ⟨rfl, rfl⟩
  · exact ⟨rfl, rfl⟩

theorem Later.modeTaken {s t : State} {l : Fin 4} (later : Later (applyModes l s) t) (k : Fin 4) :
    (t.port k).rules = ((modesApplied (s.modeLines l) s).fitted k).1.rules ∧
      (t.lineRoster k).position = ((modesApplied (s.modeLines l) s).fitted k).2 := by
  obtain ⟨rules, position⟩ := applyModes_fitted l k s
  obtain ⟨x, r, port⟩ := later.port k
  rw [port, later.lineRoster k]
  exact ⟨rules, position⟩

/-- Settles O41: each port whose mode waited takes it, and a pair that comes into force starts with a cold secondary. -/
theorem lineModeTakesEffect : Obligations.LineModeTakesEffect := by
  unfold Obligations.LineModeTakesEffect
  intro s l high working waits idle
  have ready : (s.working && s.modeWaits l && s.modeReady l) = true := by
    simp only [working, Bool.true_and, State.modeWaits, State.modeReady, Bool.and_eq_true, Bool.or_eq_true, decide_eq_true_iff,
      List.all_eq_true, Option.isNone_iff_eq_none]
    exact ⟨waits, idle⟩
  have step : exec (.lineModeChangeApplied l) s = scheduled s fun s =>
    if s.working && s.modeWaits l && s.modeReady l then applyModes l s else s := rfl
  have run := step.trans (scheduled_next high)
  have later := later_boundaries s (if s.working && s.modeWaits l && s.modeReady l then applyModes l s else s)
  rw [if_pos ready] at run later
  obtain ⟨t', run', fixed⟩ := exec_fixed (c := .lineModeChangeApplied l) rfl s
  rw [run] at run'
  cases run'
  obtain ⟨mem, -, -, -, -, change, clock, profiles, -⟩ := of_fixed fixed
  have still (k : Fin 4) (off : (applyModes l s).lineOn k = false) (cold : (applyModes l s).arbiter k = .cold) :
      (settle s (boundaries (applyModes l s))).arbiter k = .cold := by
    have kept := ((bounds_cold (applyModes l s) k off).boundaries (s := applyModes l s) ⟨rfl, cold⟩).2
    rw [State.arbiter, settle_sched]
    exact kept
  generalize settle s (boundaries (applyModes l s)) = t at run later fixed mem change clock profiles still
  have taken (k : Fin 4) := later.modeTaken k
  have fitted (k : Fin 4) := modesApplied_fitted (modeLines_nodup s l) s k
  refine ⟨_, run, mem, change, clock, profiles, mem_modeLines s l, fun k => ?_, fun k own => ?_, ?_⟩
  · obtain ⟨rules, -⟩ := taken k
    simp only [Port.rules, Prod.mk.injEq] at rules
    obtain ⟨mode, profile, applied, tag, -⟩ := rules
    rw [mode, profile, applied, tag, fitted]
    refine ⟨?_, ?_, fun other => ?_⟩
    · split <;> rfl
    · split <;> rfl
    · rw [if_neg fun both => other both.1]
      exact ⟨rfl, rfl⟩
  · obtain ⟨rules, position⟩ := taken k
    simp only [Port.rules, Prod.mk.injEq] at rules
    obtain ⟨-, -, applied, tag, last⟩ := rules
    rw [applied, tag, last, position, fitted]
    by_cases same : (s.port k).applied = (s.port k).mode
    · rw [if_neg fun both => both.2 same]
      exact ⟨same, fun off on => absurd (same.symm.trans off) on, fun second other => absurd (same.symm.trans second) other, fun _ => rfl⟩
    · rw [if_pos ⟨own, same⟩]
      refine ⟨rfl, fun off _ => ⟨if_pos (.inl off), if_pos off⟩, fun second _ => ⟨if_pos second, if_pos (.inr second)⟩, ?_⟩
      intro other
      refine if_neg fun second => ?_
      exact other.elim (fun no => no second) (fun stays => same (second.trans stays.symm))
  · intro e starts first second
    have pair := mem_modeLines_pair (l := l) first
    have inForce (k : Fin 4) (own : k ∈ s.modeLines l) :
        ((modesApplied (s.modeLines l) s).port k).applied = (s.port k).mode := by
      have same := fitted k
      by_cases already : (s.port k).applied = (s.port k).mode
      · rw [if_neg fun both => both.2 already] at same
        exact (congrArg (fun x : Port × Nat => x.1.applied) same).trans already
      · rw [if_pos ⟨own, already⟩] at same
        exact (congrArg (fun x : Port × Nat => x.1.applied) same :)
    have forming : ((modesApplied (s.modeLines l) s).port e).forming = (s.port e).forming := by
      have same := fitted e
      split at same
      · exact (congrArg (fun x : Port × Nat => x.1.forming) same :)
      · exact (congrArg (fun x : Port × Nat => x.1.forming) same :)
    have looped : (modesApplied (s.modeLines l) s).looped e = true := by
      rw [State.looped, inForce e ((pair e).2 (.inl rfl)), inForce (partner e) ((pair _).2 (.inr rfl)), first, second]
      rfl
    have started : applyModes l s = startPair e (modesApplied (s.modeLines l) s) := by
      rw [applyModes_eq]
      refine if_pos ?_
      rw [looped, forming]
      rcases starts with never | starts
      · simp [e, never]
      · simp [e, starts]
    have off : (applyModes l s).lineOn (partner e) = false := by
      obtain ⟨rules, -⟩ := applyModes_fitted l (partner e) s
      have mode := congrArg Prod.fst rules
      have same := congrArg (fun x : Port × Nat => x.1.mode) (fitted (partner e))
      have mode : ((applyModes l s).port (partner e)).mode = .pairSecondary := by
        refine Eq.trans mode (Eq.trans same ?_)
        split <;> exact second
      rw [State.lineOn, mode]
      rfl
    have cold : (applyModes l s).arbiter (partner e) = .cold := by
      rw [started]
      exact passArbiter_cold e (partner e) _
    have still := still (partner e) off cold
    obtain ⟨x, r, port⟩ := later.port e
    have paired := startPair_fitted e e (modesApplied (s.modeLines l) s)
    rw [if_pos rfl, ← started] at paired
    have field {γ : Type} (g : Port → γ) := congrArg (fun x : Port × Nat => g x.1) paired
    rw [port]
    refine ⟨field Port.forming, field Port.broken, field Port.missRun, field Port.goodRun, still, fun n line => ?_⟩
    rw [later.slot, started, startPair_slot]
    have slots := (modesApplied_rest (s.modeLines l) s).1
    have slot : (modesApplied (s.modeLines l) s).slot n = s.slot n := by rw [State.slot, slots, State.slot]
    rw [slot]
    exact if_pos line

end Sys2Proof.Machine

/-!
SET LINE (R94, R96 to R98): what it refuses, what it records of a line's mode and profile, and what a line that goes OFF leaves of
its port and its slots.
-/
namespace Sys2Proof.Machine

/-! ### What SET LINE refuses -/

/-- The lines that SET LINE names for line `l`. -/
theorem mem_namedLines {s : State} {l k : Fin 4} {mode : Nat} :
    k ∈ s.namedLines l mode ↔ k = l ∨ (s.paired l = true ∨ mode = 2) ∧ k = partner l := by
  have pair : k = evenLine l ∨ k = partner (evenLine l) ↔ k = l ∨ k = partner l := by
    revert k l
    decide
  unfold State.namedLines
  by_cases both : s.paired l = true ∨ mode = 2
  · rw [if_pos (by simpa using both)]
    simpa [both] using pair
  · rw [if_neg (by simpa using both)]
    simp [both]

theorem namedLines_nodup (s : State) (l : Fin 4) (mode : Nat) : (s.namedLines l mode).Nodup := by
  unfold State.namedLines
  split
  · fin_cases l <;> decide
  · exact List.nodup_singleton _

/-- Two slots at the same drop address, one of each line of the pair. -/
theorem pairConflict_iff {s : State} {l k : Fin 4} : s.pairConflict l k = true ↔
    ∃ n m a, (s.slot n).binding = some (l, a) ∧ (s.slot m).binding = some (k, a) := by
  simp only [State.pairConflict, allSlots, List.any_eq_true, List.mem_finRange, true_and]
  refine ⟨fun ⟨n, m, met⟩ => ?_, fun ⟨n, m, a, first, second⟩ => ⟨n, m, by simp [first, second]⟩⟩
  split at met
  · next a d b e first second =>
    simp only [Bool.and_eq_true, decide_eq_true_iff] at met
    obtain ⟨⟨rfl, rfl⟩, rfl⟩ := met
    exact ⟨n, m, d, first, second⟩
  · cases met

theorem setLine_bad {r : Request} (s : State)
    (bad : 4 ≤ r.param 8 1 ∨ 3 ≤ r.param 9 1 ∨ 4 ≤ r.param 10 1 ∨ (r.param 9 1 = 2 ∧ r.param 8 1 % 2 = 1)) :
    setLine r s = (s, .plain Outcome.badParam) := by
  have refused : refuseLine s (r.param 8 1) (r.param 9 1) (r.param 10 1) = some Outcome.badParam := by
    unfold refuseLine
    by_cases line : r.param 8 1 < 4
    · rw [lineOfNat, dif_pos line]
      dsimp only
      by_cases range : 2 < r.param 9 1 ∨ 3 < r.param 10 1
      · rw [if_pos range]
      · rw [if_neg range, if_pos (by omega)]
    · rw [lineOfNat, dif_neg line]
  simp only [setLine, refused]

section
variable {r : Request} {s : State} {l i : Fin 4}
  (good : ¬ (4 ≤ r.param 8 1 ∨ 3 ≤ r.param 9 1 ∨ 4 ≤ r.param 10 1 ∨ (r.param 9 1 = 2 ∧ r.param 8 1 % 2 = 1)))
  (line : r.param 8 1 = l.val) (profile : r.param 10 1 = i.val)
include good line

theorem refuseLine_good : refuseLine s (r.param 8 1) (r.param 9 1) (r.param 10 1) =
    if r.param 9 1 = 2 ∧ s.paired l = false ∧ s.pairConflict l (partner l) = true then some Outcome.wrongState else none := by
  unfold refuseLine
  rw [line, lineOfNat_val]
  dsimp only
  rw [if_neg (by omega), if_neg (by omega)]

theorem setLine_merges (merges : r.param 9 1 = 2 ∧ s.paired l = false ∧ s.pairConflict l (partner l) = true) :
    setLine r s = (s, .plain Outcome.wrongState) := by
  have refused := refuseLine_good (s := s) good line
  rw [if_pos merges] at refused
  simp only [setLine, refused]

include profile

theorem setLine_accepted (apart : ¬ (r.param 9 1 = 2 ∧ s.paired l = false ∧ s.pairConflict l (partner l) = true)) :
    setLine r s = (acceptLine l (r.param 9 1) i s, .plain Outcome.ok) := by
  have taken := refuseLine_good (s := s) good line
  rw [if_neg apart] at taken
  simp only [setLine, taken]
  rw [line, profile, lineOfNat_val, lineOfNat_val]

end

/-! ### What an accepted SET LINE records -/

section
variable (l : Fin 4) (mode : Nat) (i : Fin 4) (s : State)

/-- The state in which the lines named record mode and profile. -/
def linesRecorded : State := forLines (recordLine mode i) (s.namedLines l mode) s

/-- The lines named had a clash to show. -/
def State.clashed : Bool := (s.namedLines l mode).any fun k => !(s.lineRoster k).clash.isEmpty

/-- The state in which the change of the clash lists is told. -/
def linesTold : State :=
  if s.clashed l mode then raiseAfter .line ((s.namedLines l mode).map lineRec) (linesRecorded l mode i s)
  else linesRecorded l mode i s

/-- The state in which a forming pair holds the slots of its second line. -/
def linesBound : State :=
  if decide (mode = 2) && !s.paired l then rebindPair l (linesTold l mode i s) else linesTold l mode i s

/-- The state in which the lines named serve their slots at the rate of the profile. -/
def linesServed : State :=
  forLines (fun k u => rateChanged ((s.profileOf k).rate) k u) (s.namedLines l mode) (linesBound l mode i s)

/-- The slots of the lines named. -/
def State.namedSlots : List (Fin 24) := (s.namedLines l mode).flatMap s.slotsOn

/-- The state in which no exchange that has not started is left on a line whose mode waits. -/
def linesWaiting : State :=
  forLines (fun k u => if u.modeWaits k then takeBackUnstarted k u else u) (s.namedLines l mode) (linesServed l mode i s)

theorem acceptLine_eq : acceptLine l mode i s =
    if mode = 0 then forLines (goOff (s.namedSlots l mode)) (s.namedLines l mode) (linesServed l mode i s)
    else if (s.namedLines l mode).any (linesWaiting l mode i s).modeWaits && (linesWaiting l mode i s).modeReady l then
      applyModes l (linesWaiting l mode i s)
    else linesWaiting l mode i s := rfl

end

/-! ### The lines recorded -/

/-- What SET LINE records of line `k`. -/
def lineRecorded (mode : Nat) (i k : Fin 4) (x : Port × LineRoster) : Port × LineRoster :=
  ({ x.1 with mode := modeFor mode k, profile := i, forming := decide (mode = 2) && x.1.forming },
    { x.2 with clash := [], garbles := List.replicate 31 0 })

section
variable (l : Fin 4) (mode : Nat) (i : Fin 4) (s : State)

theorem linesRecorded_line (k : Fin 4) :
    ((linesRecorded l mode i s).port k, (linesRecorded l mode i s).lineRoster k) =
      if k ∈ s.namedLines l mode then lineRecorded mode i k (s.port k, s.lineRoster k) else (s.port k, s.lineRoster k) :=
  forLines_own (get := fun s k => (s.port k, s.lineRoster k)) (g := lineRecorded mode i) (fun l s k => by
    by_cases here : l = k
    · subst here
      simp [recordLine, lineRecorded]
    · simp [recordLine, here]) _ (namedLines_nodup s l mode) s k

theorem linesRecorded_rest : (linesRecorded l mode i s).roster.slots = s.roster.slots ∧
    (linesRecorded l mode i s).profiles = s.profiles ∧ (linesRecorded l mode i s).report = s.report ∧
    (linesRecorded l mode i s).engine = s.engine := by
  have keeps := forLines_keeps (fun s => (s.roster.slots, s.profiles, s.report, s.engine)) (recordLine mode i)
    (fun _ _ => rfl) (s.namedLines l mode) s
  simp only [Prod.mk.injEq] at keeps
  exact keeps

/-- What is told of the lines named leaves everything but what waits for records. -/
theorem linesTold_eq : ∃ r, linesTold l mode i s = { linesRecorded l mode i s with report := r } := by
  unfold linesTold
  split
  · exact raiseAfter_eq ..
  · exact ⟨_, rfl⟩

theorem linesTold_waits (healthy : s.isFaulted = false) (clashed : s.clashed l mode = true) :
    (⟨(s.namedLines l mode).map lineRec, .notice .line⟩ : Waiting) ∈ (linesTold l mode i s).report.waiting := by
  have still : (linesRecorded l mode i s).isFaulted = false := by
    rw [State.isFaulted, (linesRecorded_rest l mode i s).2.2.2]
    exact healthy
  rw [linesTold, if_pos clashed, raiseAfter, still, if_neg Bool.false_ne_true, awaitRecords_waiting]
  exact List.mem_append_right _ (List.mem_singleton_self _)

/-! ### The slots bound to a forming pair -/

/-- Slot `v` with its binding on line `l` if it was on the second line of the pair. -/
def Slot.passed (l : Fin 4) (v : Slot) : Slot :=
  { v with binding := v.binding.map fun b => if b.1 = partner l then (l, b.2) else b }

/-- The state in which every slot of the second line is bound to the first. -/
def slotsPassed : State := forSlots (fun n s => s.modSlot n (Slot.passed l)) allSlots s

theorem rebindPair_eq :
    rebindPair l s = reachPrimary l ((slotsPassed l s).modPort l fun p => { p with forming := true }) := rfl

theorem slotsPassed_slot (n : Fin 24) : (slotsPassed l s).slot n = (s.slot n).passed l :=
  forSlots_own (get := State.slot) (g := fun _ => Slot.passed l) (fun m u k => State.modSlot_slot u m k _) s n

theorem slotsPassed_rest : (slotsPassed l s).ports = s.ports ∧ (slotsPassed l s).roster.lines = s.roster.lines ∧
    (slotsPassed l s).profiles = s.profiles ∧ (slotsPassed l s).report = s.report := by
  have bound := forSlots_keeps (fun s => (s.ports, s.roster.lines, s.profiles, s.report))
    (fun n s => s.modSlot n (Slot.passed l)) (fun _ _ => rfl) allSlots s
  simp only [Prod.mk.injEq] at bound
  exact bound

theorem rebindPair_slot (n : Fin 24) : (rebindPair l s).slot n = ((s.slot n).passed l).primaryOn l := by
  rw [rebindPair_eq, reachPrimary_slot, State.modPort_slot, slotsPassed_slot]

theorem reachPrimary_rest : (reachPrimary l s).ports = s.ports ∧ (reachPrimary l s).roster.lines = s.roster.lines ∧
    (reachPrimary l s).profiles = s.profiles ∧ (reachPrimary l s).report = s.report := by
  have eq := reachPrimary_eq s l
  generalize (Vector.ofFn fun n => (s.slot n).primaryOn l) = slots at eq
  rw [eq]
  exact ⟨rfl, rfl, rfl, rfl⟩

theorem rebindPair_rest : (∀ k, ∃ f, (rebindPair l s).port k = { s.port k with forming := f }) ∧
    (rebindPair l s).roster.lines = s.roster.lines ∧ (rebindPair l s).profiles = s.profiles ∧
    (rebindPair l s).report = s.report := by
  obtain ⟨ports, lines, profiles, report⟩ := slotsPassed_rest l s
  rw [rebindPair_eq]
  generalize slotsPassed l s = u at ports lines profiles report
  obtain ⟨ports', lines', profiles', report'⟩ := reachPrimary_rest l (u.modPort l fun p => { p with forming := true })
  rw [lines', profiles', report']
  refine ⟨fun k => ?_, lines, profiles, report⟩
  have same (k : Fin 4) : u.port k = s.port k := by rw [State.port, ports, State.port]
  have port : (reachPrimary l (u.modPort l fun p => { p with forming := true })).port k =
      (u.modPort l fun p => { p with forming := true }).port k := by rw [State.port, ports', State.port]
  rw [port, State.modPort_port, same, same]
  split
  · next here =>
    subst here
    exact ⟨_, rfl⟩
  · exact ⟨_, rfl⟩

end

/-! ### The lines served at the new rate -/

section
variable (l : Fin 4) (mode : Nat) (i : Fin 4) (s : State)

/-- The slot with the binding that SET LINE leaves it. -/
def Slot.namedTo (l : Fin 4) (pairing : Bool) (v : Slot) : Slot := if pairing then (v.passed l).primaryOn l else v

theorem linesTold_rest : (linesTold l mode i s).ports = (linesRecorded l mode i s).ports ∧
    (linesTold l mode i s).roster.lines = (linesRecorded l mode i s).roster.lines ∧
    (linesTold l mode i s).profiles = s.profiles ∧ ∀ n, (linesTold l mode i s).slot n = s.slot n := by
  obtain ⟨slots, profiles, -⟩ := linesRecorded_rest l mode i s
  obtain ⟨r, same⟩ := linesTold_eq l mode i s
  rw [same]
  refine ⟨rfl, rfl, profiles, fun n => ?_⟩
  have slot : (linesRecorded l mode i s).slot n = s.slot n := by rw [State.slot, slots, State.slot]
  exact slot

/-- Line `k` as SET LINE leaves its port, the forming flag apart, and its clash list. -/
structure LineKept (s : State) (k : Fin 4) (u : State) : Prop where
  port : ∃ f, u.port k = { s.port k with forming := f }
  line : u.lineRoster k = s.lineRoster k

theorem linesBound_line (k : Fin 4) : LineKept (linesRecorded l mode i s) k (linesBound l mode i s) := by
  obtain ⟨ports, lines, -⟩ := linesTold_rest l mode i s
  have port : (linesTold l mode i s).port k = (linesRecorded l mode i s).port k := by rw [State.port, ports, State.port]
  have line : (linesTold l mode i s).lineRoster k = (linesRecorded l mode i s).lineRoster k := by
    rw [State.lineRoster, lines, State.lineRoster]
  unfold linesBound
  split
  · obtain ⟨ports, lines, -⟩ := rebindPair_rest l (linesTold l mode i s)
    obtain ⟨f, forms⟩ := ports k
    refine ⟨⟨f, by rw [forms, port]⟩, ?_⟩
    rw [State.lineRoster, lines]
    exact line
  · exact ⟨⟨_, port⟩, line⟩

theorem linesBound_slot (n : Fin 24) :
    (linesBound l mode i s).slot n = (s.slot n).namedTo l (decide (mode = 2) && !s.paired l) := by
  obtain ⟨-, -, -, slot⟩ := linesTold_rest l mode i s
  unfold linesBound Slot.namedTo
  split
  · rw [rebindPair_slot, slot]
  · exact slot n

theorem linesBound_rest : (linesBound l mode i s).profiles = s.profiles ∧
    (linesBound l mode i s).report = (linesTold l mode i s).report := by
  obtain ⟨-, -, profiles, -⟩ := linesTold_rest l mode i s
  unfold linesBound
  split
  · obtain ⟨-, -, profiles', report⟩ := rebindPair_rest l (linesTold l mode i s)
    exact ⟨profiles'.trans profiles, report⟩
  · exact ⟨profiles, rfl⟩

theorem linesServed_offServed : (linesServed l mode i s).offServed = (linesBound l mode i s).offServed :=
  forLines_keeps State.offServed _ (fun k => rateChanged_offServed _ k) _ _

theorem linesServed_served (n : Fin 24) : ((linesServed l mode i s).slot n).served =
    if ∃ k ∈ s.namedLines l mode, (linesBound l mode i s).lineOf n = some k then (linesBound l mode i s).servedRate n
    else ((linesBound l mode i s).slot n).served := by
  have fold := foldl_served (touches := ((linesBound l mode i s).lineOf n = some ·)) (n := n)
    (f := fun k u => rateChanged ((s.profileOf k).rate) k u) (fun k => rateChanged_offServed _ k)
    (w := (linesBound l mode i s).offServed)
    (fun k u same => by
      have line : u.lineOf n = (linesBound l mode i s).lineOf n := by rw [← offServed_lineOf, same, offServed_lineOf]
      rw [rateChanged_served, ← same, offServed_servedRate, line])
    (s.namedLines l mode) (linesBound l mode i s) rfl
  rw [offServed_servedRate] at fold
  convert fold
  rfl

/-- What an accepted SET LINE leaves before a line goes OFF or a mode comes into force. -/
structure LinesServed (u : State) : Prop where
  line : ∀ k, LineKept (linesRecorded l mode i s) k u
  slot : ∀ n, ∃ r, u.slot n = { (s.slot n).namedTo l (decide (mode = 2) && !s.paired l) with served := r }
  report : u.report = (linesTold l mode i s).report
  served : ∀ n, (∀ k ∈ s.namedLines l mode, u.lineOf n = some k → (u.slot n).servedAt (s.profiles[i]).rate) ∧
    ((∀ k ∈ s.namedLines l mode, u.lineOf n ≠ some k) → (u.slot n).served = (s.slot n).served)

theorem linesServed_served_at : LinesServed l mode i s (linesServed l mode i s) := by
  have same := linesServed_offServed l mode i s
  have bound (n : Fin 24) : (linesServed l mode i s).lineOf n = (linesBound l mode i s).lineOf n := by
    rw [← offServed_lineOf, same, offServed_lineOf]
  obtain ⟨profiles, report⟩ := linesBound_rest l mode i s
  refine ⟨fun k => ?_, fun n => ?_, ?_, fun n => ⟨fun k own line => ?_, fun others => ?_⟩⟩
  · obtain ⟨⟨f, port⟩, line⟩ := linesBound_line l mode i s k
    have ports := congrArg State.ports same
    have roster := congrArg State.roster same
    have port' : (linesServed l mode i s).port k = (linesBound l mode i s).port k := congrArg (·[k]) ports
    have line' : (linesServed l mode i s).lineRoster k = (linesBound l mode i s).lineRoster k := congrArg (·.lines[k]) roster
    exact ⟨⟨f, port'.trans port⟩, line'.trans line⟩
  · have slot := slot_eq_of_offServed same n
    rw [linesBound_slot] at slot
    exact ⟨_, slot⟩
  · exact (congrArg State.report same).trans report
  · have served := linesServed_served l mode i s n
    rw [bound] at line
    rw [if_pos ⟨k, own, line⟩] at served
    have cap : ((linesServed l mode i s).slot n).cap = ((linesBound l mode i s).slot n).cap := by
      rw [slot_eq_of_offServed same n]
    have rate : (linesBound l mode i s).profileOf k = s.profiles[i] := by
      obtain ⟨⟨f, port⟩, -⟩ := linesBound_line l mode i s k
      have recorded := congrArg Prod.fst (linesRecorded_line l mode i s k)
      rw [if_pos own] at recorded
      dsimp only at recorded
      have profile : ((linesBound l mode i s).port k).profile = i := by
        rw [port, recorded]
        rfl
      simp only [State.profileOf, profile, profiles]
    have at_line := servedAt_servedRate (s := linesBound l mode i s) line cap served
    rwa [rate] at at_line
  · have served := linesServed_served l mode i s n
    rw [if_neg] at served
    · rw [served, linesBound_slot, Slot.namedTo]
      split <;> rfl
    · rintro ⟨k, own, line⟩
      exact others k own (by rw [bound, line])

end

/-! ### A slot whose line goes OFF -/

/-- A slot in service, or about to be. -/
def Slot.reached (v : Slot) : Prop := v.state = .identifying ∨ v.state = .behind ∨ v.state = .current

/-- Slot `k` after the slots `ns` were told that their line is OFF. -/
structure WentOff (ns : List (Fin 24)) (s t : State) (k : Fin 24) : Prop where
  slot : ∃ st kp i ka, t.slot k = { s.slot k with state := st, kept := kp, identify := i, keepalive := ka }
  gone : k ∈ ns → (s.slot k).reached → (t.slot k).state = .silent ∧ t.delivery k = none
  rest : k ∉ ns ∨ ¬ (s.slot k).reached → t.slot k = s.slot k
  none : s.delivery k = none → t.delivery k = none

theorem WentOff.refl (s : State) (k : Fin 24) : WentOff [] s s k :=
  ⟨⟨_, _, _, _, rfl⟩, fun own => absurd own (List.not_mem_nil), fun _ => rfl, id⟩

theorem silent_not_reached {v : Slot} (silent : v.state = .silent) : ¬ v.reached := by
  rintro (state | state | state) <;> rw [silent] at state <;> cases state

theorem WentOff.append {ms ns : List (Fin 24)} {s t u : State} {k : Fin 24} (first : WentOff ms s t k)
    (second : WentOff ns t u k) : WentOff (ms ++ ns) s u k where
  slot := by
    obtain ⟨_, _, _, _, one⟩ := first.slot
    obtain ⟨_, _, _, _, two⟩ := second.slot
    rw [two, one]
    exact ⟨_, _, _, _, rfl⟩
  gone own reached := by
    by_cases early : k ∈ ms
    · obtain ⟨silent, none⟩ := first.gone early reached
      rw [second.rest (.inr (silent_not_reached silent))]
      exact ⟨silent, second.none none⟩
    · have same := first.rest (.inl early)
      exact second.gone ((List.mem_append.1 own).resolve_left early) (by rwa [same])
  rest out := by
    have out' : (k ∉ ms ∧ k ∉ ns) ∨ ¬ (s.slot k).reached := by simpa [List.mem_append, not_or] using out
    have same := first.rest (out'.imp_left And.left)
    rw [second.rest (out'.imp And.right (by rw [same]; exact id)), same]
  none free := second.none (first.none free)

theorem WentOff.twice {ns : List (Fin 24)} {s t u : State} {k : Fin 24} (first : WentOff ns s t k)
    (second : WentOff ns t u k) : WentOff ns s u k where
  slot := (first.append second).slot
  gone own := (first.append second).gone (List.mem_append_left _ own)
  rest out := (first.append second).rest (out.imp_left fun no => by simpa using no)
  none := (first.append second).none

/-- A step that leaves slots and deliveries alone. -/
theorem WentOff.of_same {s t : State} {k : Fin 24} (slot : t.slot k = s.slot k) (delivery : t.delivery k = s.delivery k) :
    WentOff [] s t k :=
  ⟨⟨_, _, _, _, slot⟩, fun own => absurd own (List.not_mem_nil), fun _ => slot, fun free => delivery.trans free⟩

theorem toSilent_slot (n k : Fin 24) (s : State) : ∃ i, (toSilent n s).slot k = if n = k then
    { s.slot n with state := .silent, kept := none, identify := none, keepalive := some i } else s.slot k := by
  refine ⟨4 * (((abandon n s).modSlot n fun v =>
    { v with state := .silent, kept := none, identify := none }).slotProfile n).interval, ?_⟩
  rw [toSilent, setKeepalive_slot, State.modSlot_slot, State.modSlot_slot]
  by_cases here : n = k
  · subst here
    simp [keepaliveAfter]
  · simp [here]

theorem toSilent_delivery (n k : Fin 24) (s : State) :
    (toSilent n s).delivery k = if n = k then none else s.delivery k := by
  rw [toSilent, setKeepalive_delivery, State.modSlot_delivery, abandon_delivery]

theorem lineOffSlot_reached {n : Fin 24} {s : State} (reached : (s.slot n).reached) : lineOffSlot n s = toSilent n s := by
  unfold lineOffSlot
  rcases reached with state | state | state <;> rw [state]

theorem lineOffSlot_other {n : Fin 24} {s : State} (other : ¬ (s.slot n).reached) : lineOffSlot n s = s := by
  unfold lineOffSlot
  unfold Slot.reached at other
  cases state : (s.slot n).state <;> simp [state] at other ⊢

theorem lineOffSlot_went (n k : Fin 24) (s : State) : WentOff [n] s (lineOffSlot n s) k := by
  by_cases reached : (s.slot n).reached
  · rw [lineOffSlot_reached reached]
    obtain ⟨i, slot⟩ := toSilent_slot n k s
    have delivery := toSilent_delivery n k s
    by_cases here : n = k
    · subst here
      rw [if_pos rfl] at slot delivery
      exact ⟨⟨_, _, _, _, slot⟩, fun _ _ => ⟨by rw [slot], delivery⟩,
        fun out => absurd reached (out.resolve_left (not_not.2 (List.mem_singleton_self _))), fun _ => delivery⟩
    · rw [if_neg here] at slot delivery
      exact ⟨⟨_, _, _, _, slot⟩, fun own => absurd (List.mem_singleton.1 own).symm here, fun _ => slot,
        fun free => delivery.trans free⟩
  · rw [lineOffSlot_other reached]
    refine ⟨⟨_, _, _, _, rfl⟩, fun own active => absurd active ?_, fun _ => rfl, id⟩
    rw [List.mem_singleton.1 own]
    exact reached

theorem forSlots_lineOff_went (k : Fin 24) : ∀ (ns : List (Fin 24)) (s : State),
    WentOff ns s (forSlots lineOffSlot ns s) k
  | [], s => .refl s k
  | n :: ns, s => (lineOffSlot_went n k s).append (forSlots_lineOff_went k ns (lineOffSlot n s))

/-! ### What the slots' deliveries leave of the lines -/

/-- What a slot that goes SILENT leaves of the lines: the ports but for their exchanges, the clash lists, what waits. -/
structure LinesKept (s t : State) : Prop where
  core : ∀ k, (t.port k).core = (s.port k).core
  left : ∀ k, ExchangeLeft (s.port k).exchange (t.port k).exchange
  lines : t.roster.lines = s.roster.lines
  report : t.report = s.report

theorem LinesKept.refl (s : State) : LinesKept s s := ⟨fun _ => rfl, fun _ => .refl _, rfl, rfl⟩

theorem LinesKept.trans {s t u : State} (first : LinesKept s t) (second : LinesKept t u) : LinesKept s u :=
  ⟨fun k => (second.core k).trans (first.core k), fun k => (first.left k).trans (second.left k),
    second.lines.trans first.lines, second.report.trans first.report⟩

theorem core_of_bare {s u : State} (same : u.bare = s.bare) (k : Fin 4) : (u.port k).core = (s.port k).core := by
  have ports := congrArg (fun v : State => v.ports[k]) same
  simpa [State.bare, State.port] using ports

theorem abandon_lines (n : Fin 24) (s : State) : LinesKept s (abandon n s) where
  core := core_of_bare (abandon_bare s n)
  left := abandon_left s n
  lines := by
    have roster := congrArg State.roster (abandon_bare s n)
    exact congrArg Roster.lines roster
  report := abandon_report s n

theorem lineOffSlot_lines (n : Fin 24) (s : State) : LinesKept s (lineOffSlot n s) := by
  by_cases reached : (s.slot n).reached
  · rw [lineOffSlot_reached reached]
    refine (abandon_lines n s).trans ?_
    rw [toSilent]
    generalize abandon n s = u
    exact ⟨fun _ => rfl, fun _ => .refl _, rfl, rfl⟩
  · rw [lineOffSlot_other reached]
    exact .refl s

theorem forSlots_lineOff_lines : ∀ (ns : List (Fin 24)) (s : State), LinesKept s (forSlots lineOffSlot ns s)
  | [], s => .refl s
  | n :: ns, s => (lineOffSlot_lines n s).trans (forSlots_lineOff_lines ns (lineOffSlot n s))

/-! ### The port of a line that goes OFF -/

/-- What the end of a line's scheduling leaves of the part: no group, turn or due mark of it, and its port OFF. -/
def lineCleared (l : Fin 4) (s : State) : State :=
  let gone := s.sched.groups.filter fun g => g.line = l
  let s := gone.foldl (fun s g => endTurns (.group g.id) s) s
  let s := s.setGroups (s.sched.groups.filter fun g => decide (g.line ≠ l))
  let s := s.modArbiter l fun a => { a with turn := none, activateDue := none, discoveryDue := false }
  let s : State := { s with editions := { s.editions with timeDue := s.editions.timeDue.set l false } }
  let s := if (s.port l).applied = .pairSecondary then splitOdd l s else s
  s.modPort l fun p => { p with applied := .off, echoDue := false }

theorem goOff_eq (ns : List (Fin 24)) (l : Fin 4) (s : State) :
    goOff ns l s = lineCleared l (forSlots lineOffSlot ns (silencePort l (dropReception l s))) := rfl

theorem foldEndTurns_rest (gs : List Group) (s : State) :
    (gs.foldl (fun s g => endTurns (.group g.id) s) s).ports = s.ports ∧
    (gs.foldl (fun s g => endTurns (.group g.id) s) s).roster = s.roster ∧
    (gs.foldl (fun s g => endTurns (.group g.id) s) s).report = s.report ∧
    (gs.foldl (fun s g => endTurns (.group g.id) s) s).sched.deliveries = s.sched.deliveries := by
  have keeps := foldl_keeps (fun s => (s.ports, s.roster, s.report, s.sched.deliveries))
    (fun s (g : Group) => endTurns (.group g.id) s) (fun _ _ => rfl) gs s
  simp only [Prod.mk.injEq] at keeps
  exact keeps

/-- Port `p` OFF, its tag and idle time apart. -/
def Port.offWith (p : Port) (tag : BitVec 4) (idle : Time) : Port :=
  { p with tag := tag, idleTime := idle, applied := .off, echoDue := false }

theorem splitOff_rest (l : Fin 4) (s : State) :
    let t := (if (s.port l).applied = .pairSecondary then splitOdd l s else s).modPort l fun p =>
      { p with applied := .off, echoDue := false }
    (∃ tag idle, t.port l = (s.port l).offWith tag idle) ∧ (∀ k, k ≠ l → t.port k = s.port k) ∧
    (∀ k, (t.lineRoster k).clash = (s.lineRoster k).clash) ∧ t.roster.slots = s.roster.slots ∧ t.report = s.report ∧
    t.sched = s.sched := by
  dsimp only
  split
  · refine ⟨⟨0, min (s.port l).idleTime (s.port (partner l)).idleTime, ?_⟩, fun k other => ?_, fun k => ?_, rfl, rfl, rfl⟩
    · simp [splitOdd, Port.offWith]
    · simp [splitOdd, Ne.symm other]
    · rw [State.modPort_lineRoster, splitOdd, State.modLineRoster_lineRoster]
      split
      · next here => rw [← here]; rfl
      · rfl
  · refine ⟨⟨(s.port l).tag, (s.port l).idleTime, ?_⟩, fun k other => ?_, fun k => rfl, rfl, rfl, rfl⟩
    · rw [State.modPort_port, if_pos rfl, Port.offWith]
    · rw [State.modPort_port, if_neg (Ne.symm other)]

theorem lineCleared_rest (l : Fin 4) (s : State) :
    (∃ tag idle, (lineCleared l s).port l = (s.port l).offWith tag idle) ∧
    (∀ k, k ≠ l → (lineCleared l s).port k = s.port k) ∧
    (∀ k, ((lineCleared l s).lineRoster k).clash = (s.lineRoster k).clash) ∧
    (∀ n, (lineCleared l s).slot n = s.slot n) ∧ (lineCleared l s).report = s.report ∧
    (∀ n, (lineCleared l s).delivery n = s.delivery n) := by
  unfold lineCleared
  dsimp only
  obtain ⟨ports, roster, report, deliveries⟩ := foldEndTurns_rest (s.sched.groups.filter fun g => g.line = l) s
  generalize (s.sched.groups.filter fun g => decide (g.line = l)).foldl (fun s g => endTurns (.group g.id) s) s = u at *
  generalize cleared : ({ (u.setGroups (u.sched.groups.filter fun g => decide (g.line ≠ l))).modArbiter l fun a =>
      { a with turn := none, activateDue := none, discoveryDue := false } with editions := _ } : State) = v
  have port (k : Fin 4) : v.port k = s.port k := by
    rw [← cleared]
    exact congrArg (·[k]) ports
  have line (k : Fin 4) : v.lineRoster k = s.lineRoster k := by
    rw [← cleared]
    exact congrArg (·.lines[k]) roster
  have slot (n : Fin 24) : v.slot n = s.slot n := by
    rw [← cleared]
    exact congrArg (·.slots[n]) roster
  have delivery (n : Fin 24) : v.delivery n = s.delivery n := by
    rw [← cleared]
    exact congrArg (·[n]) deliveries
  have report' : v.report = s.report := by
    rw [← cleared]
    exact report
  obtain ⟨own, others, clash, slots, reports, scheds⟩ := splitOff_rest l v
  refine ⟨?_, fun k other => ?_, fun k => ?_, fun n => ?_, ?_, fun n => ?_⟩
  · rw [← port]
    exact own
  · rw [← port]
    exact others k other
  · rw [← line]
    exact clash k
  · rw [← slot, State.slot, slots, State.slot]
  · exact reports.trans report'
  · rw [← delivery, State.delivery, scheds, State.delivery]

/-- Where a frame that is read no more leaves its port. -/
def From.dropped : From → XState
  | .awaiting => .awaiting
  | .idle | .gap => .gap

theorem afterStale_port (l : Fin 4) (o : From) (s : State) :
    ∃ g : Port → Time, afterStale l o s = s.modPort l fun p => { p with xstate := o.dropped, gapLeft := g p } := by
  cases o with
  | awaiting => exact ⟨fun p => p.gapLeft, rfl⟩
  | idle => exact ⟨fun p => (s.timing l p.rate).2, rfl⟩
  | gap => exact ⟨fun p => (s.timing l p.rate).2, rfl⟩

/-- The end of a line's reading changes at most the state of the partner's port that took a frame from it. -/
theorem dropReception_eq (l : Fin 4) (s : State) : dropReception l s = s ∨
    ∃ (o : From) (g : Port → Time), (s.port (partner l)).xstate = .receiving o ∧
      dropReception l s = s.modPort (partner l) fun p => { p with xstate := o.dropped, gapLeft := g p } := by
  rcases dropReception_cases l s with ⟨o, receiving, -, -, same⟩ | ⟨-, same⟩
  · obtain ⟨g, stale⟩ := afterStale_port (partner l) o s
    exact .inr ⟨o, g, receiving, same.trans stale⟩
  · exact .inl same

theorem dropReception_dropped {l : Fin 4} {s : State} {o : From} (receiving : (s.port (partner l)).xstate = .receiving o)
    (looped : s.looped (partner l) = true) (side : (s.port (partner l)).rxSide = .secondary) :
    ((dropReception l s).port (partner l)).xstate = o.dropped := by
  rcases dropReception_cases l s with ⟨o', receiving', -, -, same⟩ | ⟨no, -⟩
  · rw [receiving] at receiving'
    cases receiving'
    obtain ⟨g, stale⟩ := afterStale_port (partner l) o s
    rw [same, stale, State.modPort_port, if_pos rfl]
  · rcases no o receiving with unlooped | other
    · rw [looped] at unlooped
      cases unlooped
    · exact absurd side other

theorem partner_ne_self (l : Fin 4) : partner l ≠ l := by
  fin_cases l <;> decide

theorem silencePort_own (l : Fin 4) (s : State) : ∃ x e, (silencePort l s).port l =
    { s.port l with xstate := x, exchange := e, reply := none } ∧
    ((s.port l).xstate ≠ .sending → x = .idle ∧ e = none) := by
  rw [silencePort, State.modPort_port, if_pos rfl]
  split
  · next ex sending has => exact ⟨.sending, _, by rw [sending], fun other => absurd sending other⟩
  · exact ⟨_, _, rfl, fun _ => ⟨rfl, rfl⟩⟩

theorem silencePort_other {l k : Fin 4} (other : k ≠ l) (s : State) : (silencePort l s).port k = s.port k := by
  rw [silencePort, State.modPort_port, if_neg (Ne.symm other)]

/-- A port that does nothing. -/
def Port.calm (p : Port) : Prop := p.xstate = .idle ∧ p.exchange = none

/-- What line `l` going OFF leaves of the lines. -/
structure GoneOff (l : Fin 4) (s t : State) : Prop where
  kept : ∀ k, (t.port k).mode = (s.port k).mode ∧ (t.port k).profile = (s.port k).profile ∧
    (t.port k).counters = (s.port k).counters ∧ (t.port k).replyLeft = (s.port k).replyLeft
  applied : ∀ k, (t.port k).applied = if k = l then .off else (s.port k).applied
  own : (s.port l).xstate ≠ .sending → (t.port l).calm
  calm : ∀ k, (s.port k).calm → (t.port k).calm
  quiet : ∀ k, (s.port k).xstate ≠ .sending → (t.port k).xstate ≠ .sending
  others : ∀ k, k ≠ l → (t.port k).xstate = ((dropReception l s).port k).xstate
  clash : ∀ k, (t.lineRoster k).clash = (s.lineRoster k).clash
  report : t.report = s.report

theorem dropReception_port (l k : Fin 4) (s : State) : ∃ x g, (dropReception l s).port k =
    { s.port k with xstate := x, gapLeft := g } ∧ ((s.port k).xstate ≠ .sending → x ≠ .sending) ∧
    (k = l ∨ (s.port k).xstate = .idle → x = (s.port k).xstate) := by
  rcases dropReception_eq l s with same | ⟨o, g, receiving, same⟩
  · rw [same]
    exact ⟨_, _, rfl, id, fun _ => rfl⟩
  · rw [same, State.modPort_port]
    split
    · next here =>
      subst here
      refine ⟨_, _, rfl, fun _ => by cases o <;> nofun, fun stays => ?_⟩
      rcases stays with own | idle
      · exact absurd own (partner_ne_self l)
      · rw [receiving] at idle
        cases idle
    · exact ⟨_, _, rfl, id, fun _ => rfl⟩

theorem goOff_gone (ns : List (Fin 24)) (l : Fin 4) (s : State) : GoneOff l s (goOff ns l s) := by
  rw [goOff_eq]
  obtain ⟨x, e, silenced, rests⟩ := silencePort_own l (dropReception l s)
  have apart (k : Fin 4) (other : k ≠ l) := silencePort_other other (dropReception l s)
  have rest : (silencePort l (dropReception l s)).report = s.report ∧
      (silencePort l (dropReception l s)).roster = s.roster := by
    rcases dropReception_eq l s with same | ⟨o, g, -, same⟩ <;> rw [same] <;> exact ⟨rfl, rfl⟩
  have kept := forSlots_lineOff_lines ns (silencePort l (dropReception l s))
  have dropped (k : Fin 4) := dropReception_port l k s
  generalize silencePort l (dropReception l s) = u at silenced apart rest kept
  generalize forSlots lineOffSlot ns u = v at kept
  obtain ⟨own, others, clash, -, report, -⟩ := lineCleared_rest l v
  obtain ⟨tag, idle, own⟩ := own
  have field {γ : Type} (g : Port → γ) (k : Fin 4) : g (v.port k).core = g (u.port k).core := congrArg g (kept.core k)
  have xstate (k : Fin 4) : (v.port k).xstate = (u.port k).xstate := field Port.xstate k
  have each (k : Fin 4) : ((lineCleared l v).port k).mode = (u.port k).mode ∧
      ((lineCleared l v).port k).profile = (u.port k).profile ∧
      ((lineCleared l v).port k).counters = (u.port k).counters ∧
      ((lineCleared l v).port k).replyLeft = (u.port k).replyLeft ∧
      ((lineCleared l v).port k).xstate = (u.port k).xstate ∧
      ((lineCleared l v).port k).applied = if k = l then .off else (u.port k).applied := by
    by_cases here : k = l
    · subst here
      rw [own, if_pos rfl]
      exact ⟨field Port.mode k, field Port.profile k, field Port.counters k, field Port.replyLeft k, xstate k, rfl⟩
    · rw [others k here, if_neg here]
      exact ⟨field Port.mode k, field Port.profile k, field Port.counters k, field Port.replyLeft k, xstate k,
        field Port.applied k⟩
  have exchange (k : Fin 4) : ((lineCleared l v).port k).exchange = (v.port k).exchange := by
    by_cases here : k = l
    · subst here
      rw [own]
      rfl
    · rw [others k here]
  have calms (k : Fin 4) (calm : (u.port k).calm) : ((lineCleared l v).port k).calm := by
    obtain ⟨-, -, -, -, xstate', -⟩ := each k
    refine ⟨xstate'.trans calm.1, (exchange k).trans ((kept.left k).none calm.2)⟩
  have ofDropped (k : Fin 4) : (u.port k).mode = (s.port k).mode ∧ (u.port k).profile = (s.port k).profile ∧
      (u.port k).counters = (s.port k).counters ∧ (u.port k).replyLeft = (s.port k).replyLeft ∧
      (u.port k).applied = (s.port k).applied := by
    obtain ⟨y, g, port, -⟩ := dropped k
    by_cases here : k = l
    · subst here
      rw [silenced, port]
      exact ⟨rfl, rfl, rfl, rfl, rfl⟩
    · rw [apart k here, port]
      exact ⟨rfl, rfl, rfl, rfl, rfl⟩
  have ownState : ((dropReception l s).port l).xstate = (s.port l).xstate := by
    obtain ⟨y, g, port, -, stays⟩ := dropped l
    rw [port]
    exact stays (.inl rfl)
  rw [ownState] at rests
  refine ⟨fun k => ?_, fun k => ?_, fun active => ?_, fun k calm => ?_, fun k active => ?_, fun k other => ?_, fun k => ?_, ?_⟩
  · obtain ⟨mode, profile, counters, replyLeft, -⟩ := each k
    obtain ⟨mode', profile', counters', replyLeft', -⟩ := ofDropped k
    exact ⟨mode.trans mode', profile.trans profile', counters.trans counters', replyLeft.trans replyLeft'⟩
  · obtain ⟨-, -, -, -, -, applied⟩ := each k
    obtain ⟨-, -, -, -, applied'⟩ := ofDropped k
    rw [applied, applied']
  · obtain ⟨x', e'⟩ := rests active
    refine calms l ?_
    rw [silenced]
    exact ⟨x', e'⟩
  · refine calms k ?_
    by_cases here : k = l
    · subst here
      obtain ⟨x', e'⟩ := rests (by rw [calm.1]; nofun)
      rw [silenced]
      exact ⟨x', e'⟩
    · obtain ⟨y, g, port, -, stays⟩ := dropped k
      rw [apart k here, port]
      exact ⟨(stays (.inr calm.1)).trans calm.1, calm.2⟩
  · obtain ⟨-, -, -, -, xstate', -⟩ := each k
    rw [xstate']
    by_cases here : k = l
    · subst here
      rw [silenced]
      dsimp only
      rw [(rests active).1]
      nofun
    · obtain ⟨y, g, port, other, -⟩ := dropped k
      rw [apart k here, port]
      exact other active
  · obtain ⟨-, -, -, -, xstate', -⟩ := each k
    rw [xstate', apart k other]
  · rw [clash, State.lineRoster, kept.lines, rest.2, State.lineRoster]
  · exact report.trans (kept.report.trans rest.1)

/-! ### All the lines named go OFF -/

theorem goOff_went (ns : List (Fin 24)) (l : Fin 4) (k : Fin 24) (s : State) : WentOff ns s (goOff ns l s) k := by
  rw [goOff_eq]
  have before : WentOff [] s (silencePort l (dropReception l s)) k := by
    rcases dropReception_eq l s with same | ⟨o, g, -, same⟩ <;> rw [same] <;> exact .of_same rfl rfl
  obtain ⟨-, -, -, slot, -, delivery⟩ := lineCleared_rest l (forSlots lineOffSlot ns (silencePort l (dropReception l s)))
  have whole := (before.append (forSlots_lineOff_went k ns _)).append (.of_same (slot k) (delivery k))
  rwa [List.nil_append, List.append_nil] at whole

theorem forLines_goOff_went (ns : List (Fin 24)) (k : Fin 24) : ∀ (ls : List (Fin 4)) (_ : ls ≠ []) (s : State),
    WentOff ns s (forLines (goOff ns) ls s) k
  | [], nonempty, _ => absurd rfl nonempty
  | [l], _, s => goOff_went ns l k s
  | l :: m :: ls, _, s =>
    (goOff_went ns l k s).twice (forLines_goOff_went ns k (m :: ls) (List.cons_ne_nil m ls) (goOff ns l s))

/-- What the lines `ls` going OFF leave of the lines. -/
structure LinesOff (ls : List (Fin 4)) (s t : State) : Prop where
  kept : ∀ k, (t.port k).mode = (s.port k).mode ∧ (t.port k).profile = (s.port k).profile ∧
    (t.port k).counters = (s.port k).counters ∧ (t.port k).replyLeft = (s.port k).replyLeft
  applied : ∀ k ∈ ls, (t.port k).applied = .off
  own : ∀ k ∈ ls, (s.port k).xstate ≠ .sending → (t.port k).calm
  off : ∀ k, (s.port k).applied = .off → (t.port k).applied = .off
  calm : ∀ k, (s.port k).calm → (t.port k).calm
  clash : ∀ k, (t.lineRoster k).clash = (s.lineRoster k).clash
  report : t.report = s.report

theorem forLines_goOff (ns : List (Fin 24)) : ∀ (ls : List (Fin 4)) (s : State), LinesOff ls s (forLines (goOff ns) ls s)
  | [], s => ⟨fun _ => ⟨rfl, rfl, rfl, rfl⟩, fun _ own => absurd own (List.not_mem_nil), fun _ own => absurd own (List.not_mem_nil),
      fun _ => id, fun _ => id, fun _ => rfl, rfl⟩
  | l :: ls, s => by
    have gone := goOff_gone ns l s
    have rest := forLines_goOff ns ls (goOff ns l s)
    have step : forLines (goOff ns) (l :: ls) s = forLines (goOff ns) ls (goOff ns l s) := rfl
    rw [step]
    refine ⟨fun k => ?_, fun k own => ?_, fun k own active => ?_, fun k off => ?_, fun k calm => rest.calm k (gone.calm k calm),
      fun k => (rest.clash k).trans (gone.clash k), rest.report.trans gone.report⟩
    · obtain ⟨mode, profile, counters, replyLeft⟩ := gone.kept k
      obtain ⟨mode', profile', counters', replyLeft'⟩ := rest.kept k
      exact ⟨mode'.trans mode, profile'.trans profile, counters'.trans counters, replyLeft'.trans replyLeft⟩
    · rcases List.mem_cons.1 own with rfl | later
      · exact rest.off k ((gone.applied k).trans (if_pos rfl))
      · exact rest.applied k later
    · rcases List.mem_cons.1 own with rfl | later
      · exact rest.calm k (gone.own active)
      · exact rest.own k later (gone.quiet k active)
    · refine rest.off k ((gone.applied k).trans ?_)
      split
      · rfl
      · exact off

/-! ### The lines named take their mode -/

/-- What a change of mode leaves of the records of the lines and of the slots. -/
structure ModesIn (s t : State) : Prop where
  line : ∀ k, (t.port k).mode = (s.port k).mode ∧ (t.port k).profile = (s.port k).profile ∧
    (t.lineRoster k).clash = (s.lineRoster k).clash
  slot : ∀ n, ∃ r, t.slot n = { s.slot n with reach := r }
  report : t.report = s.report

theorem ModesIn.refl (s : State) : ModesIn s s := ⟨fun _ => ⟨rfl, rfl, rfl⟩, fun _ => ⟨_, rfl⟩, rfl⟩

theorem ModesIn.trans {s t u : State} (first : ModesIn s t) (second : ModesIn t u) : ModesIn s u where
  line k := by
    obtain ⟨mode, profile, clash⟩ := first.line k
    obtain ⟨mode', profile', clash'⟩ := second.line k
    exact ⟨mode'.trans mode, profile'.trans profile, clash'.trans clash⟩
  slot n := by
    obtain ⟨r, one⟩ := first.slot n
    obtain ⟨q, two⟩ := second.slot n
    exact ⟨q, by rw [two, one]⟩
  report := second.report.trans first.report

theorem forLines_modesIn {f : Fin 4 → State → State} (each : ∀ l s, ModesIn s (f l s)) :
    ∀ (ls : List (Fin 4)) (s : State), ModesIn s (forLines f ls s)
  | [], s => .refl s
  | l :: ls, s => (each l s).trans (forLines_modesIn each ls (f l s))

theorem takeBackUnstarted_modesIn (l : Fin 4) (s : State) : ModesIn s (takeBackUnstarted l s) := by
  refine ⟨fun k => ?_, fun n => ⟨_, rfl⟩, rfl⟩
  rw [takeBackUnstarted, State.modPort_port]
  split
  · next here =>
    subst here
    split
    · split <;> exact ⟨rfl, rfl, rfl⟩
    · exact ⟨rfl, rfl, rfl⟩
  · exact ⟨rfl, rfl, rfl⟩

theorem applyPort_modesIn (l : Fin 4) (s : State) : ModesIn s (applyPort l s) := by
  obtain ⟨slots, -⟩ := applyPort_rest l s
  have line (k : Fin 4) : ((applyPort l s).lineRoster k).clash = (s.lineRoster k).clash := by
    by_cases here : l = k
    · subst here
      cases old : (s.port l).applied <;> simp [applyPort, old, leaveOff, splitOdd]
    · cases old : (s.port l).applied <;> simp [applyPort, old, leaveOff, splitOdd, here]
  have report : (applyPort l s).report = s.report := by
    cases old : (s.port l).applied <;> simp [applyPort, old, leaveOff, splitOdd]
  refine ⟨fun k => ?_, fun n => ⟨(s.slot n).reach, ?_⟩, report⟩
  · have port := congrArg Prod.fst (applyPort_fitted l s k)
    rw [line]
    refine ⟨?_, ?_, rfl⟩
    · have mode := congrArg Port.mode port
      refine mode.trans ?_
      split
      · next here => rw [here]; rfl
      · rfl
    · have profile := congrArg Port.profile port
      refine profile.trans ?_
      split
      · next here => rw [here]; rfl
      · rfl
  · rw [State.slot, slots, State.slot]

theorem fitted_mode (s : State) (k : Fin 4) : (s.fitted k).1.mode = (s.port k).mode := rfl
theorem fitted_profile (s : State) (k : Fin 4) : (s.fitted k).1.profile = (s.port k).profile := rfl
theorem passArbiter_report (l k : Fin 4) (s : State) : (passArbiter l k s).report = s.report := rfl

theorem startPair_modesIn (l : Fin 4) (s : State) : ModesIn s (startPair l s) := by
  have line (k : Fin 4) : (startPair l s).lineRoster k = s.lineRoster k := by
    rw [startPair_eq, State.lineRoster, (passArbiter_rest _ _ _).2, (reachPrimary_rest _ _).2.1]
    rfl
  refine ⟨fun k => ⟨?_, ?_, by rw [line]⟩, fun n => ⟨_, startPair_slot l s n⟩, ?_⟩
  · rw [← fitted_mode, startPair_fitted]
    split <;> rfl
  · rw [← fitted_profile, startPair_fitted]
    split <;> rfl
  · rw [startPair_eq, passArbiter_report, (reachPrimary_rest l (pairIntact l s)).2.2.2]
    rfl

theorem applyModes_modesIn (l : Fin 4) (s : State) : ModesIn s (applyModes l s) := by
  have applied : ModesIn s (modesApplied (s.modeLines l) s) := forLines_modesIn applyPort_modesIn _ s
  rw [applyModes_eq]
  split
  · exact applied.trans (startPair_modesIn _ _)
  · exact applied

theorem linesWaiting_modesIn (l : Fin 4) (mode : Nat) (i : Fin 4) (s : State) :
    ModesIn (linesServed l mode i s) (linesWaiting l mode i s) := by
  refine forLines_modesIn (fun k u => ?_) _ _
  split
  · exact takeBackUnstarted_modesIn k u
  · exact .refl u

theorem acceptLine_modesIn {l : Fin 4} {mode : Nat} {i : Fin 4} {s : State} (on : mode ≠ 0) :
    ModesIn (linesServed l mode i s) (acceptLine l mode i s) := by
  rw [acceptLine_eq, if_neg on]
  split
  · exact (linesWaiting_modesIn l mode i s).trans (applyModes_modesIn l _)
  · exact linesWaiting_modesIn l mode i s

/-! ### The registers -/

theorem lineOffSlot_regs (n : Fin 24) (s : State) : (lineOffSlot n s).regs = s.regs := by
  by_cases reached : (s.slot n).reached
  · rw [lineOffSlot_reached reached]
    have regs := congrArg State.regs (abandon_bare s n)
    exact regs
  · rw [lineOffSlot_other reached]

theorem splitOff_regs (l : Fin 4) (s : State) : (if (s.port l).applied = .pairSecondary then splitOdd l s else s).regs = s.regs := by
  split <;> rfl

theorem lineCleared_regs (l : Fin 4) (s : State) : (lineCleared l s).regs = s.regs := by
  unfold lineCleared
  dsimp only
  rw [State.modPort_regs, splitOff_regs]
  exact foldl_keeps State.regs (fun s (g : Group) => endTurns (.group g.id) s) (fun _ _ => rfl) _ s

theorem goOff_regs (ns : List (Fin 24)) (l : Fin 4) (s : State) : (goOff ns l s).regs = s.regs := by
  rw [goOff_eq, lineCleared_regs, forSlots_keeps State.regs lineOffSlot lineOffSlot_regs]
  rcases dropReception_eq l s with same | ⟨o, g, -, same⟩ <;> rw [same] <;> rfl

theorem applyPort_regs (l : Fin 4) (s : State) : (applyPort l s).regs = s.regs := by
  unfold applyPort
  cases (s.port l).applied <;> rfl

theorem reachPrimary_regs (l : Fin 4) (s : State) : (reachPrimary l s).regs = s.regs := by rw [reachPrimary_eq]

theorem rebindPair_regs (l : Fin 4) (s : State) : (rebindPair l s).regs = s.regs := by
  rw [rebindPair_eq, reachPrimary_regs, State.modPort_regs]
  exact forSlots_keeps State.regs (fun n s => s.modSlot n (Slot.passed l)) (fun _ _ => rfl) allSlots s

theorem startPair_regs (l : Fin 4) (s : State) : (startPair l s).regs = s.regs := by
  have passed (l k : Fin 4) (s : State) : (passArbiter l k s).regs = s.regs := rfl
  rw [startPair_eq, passed, reachPrimary_regs]
  rfl

theorem applyModes_regs (l : Fin 4) (s : State) : (applyModes l s).regs = s.regs := by
  have applied : (modesApplied (s.modeLines l) s).regs = s.regs := forLines_keeps State.regs applyPort applyPort_regs _ s
  rw [applyModes_eq]
  split
  · exact (startPair_regs _ _).trans applied
  · exact applied

section
variable (l : Fin 4) (mode : Nat) (i : Fin 4) (s : State)

theorem linesServed_regs : (linesServed l mode i s).regs = s.regs := by
  obtain ⟨regs, -⟩ := of_offServed (linesServed_offServed l mode i s)
  have told : (linesTold l mode i s).regs = s.regs := by
    obtain ⟨r, same⟩ := linesTold_eq l mode i s
    rw [same]
    exact forLines_keeps State.regs (recordLine mode i) (fun _ _ => rfl) _ s
  have bound : (linesBound l mode i s).regs = (linesTold l mode i s).regs := by
    unfold linesBound
    split
    · exact rebindPair_regs l _
    · rfl
  exact regs.trans (bound.trans told)

theorem acceptLine_regs : (acceptLine l mode i s).regs = s.regs := by
  have waiting : (linesWaiting l mode i s).regs = s.regs := by
    refine (forLines_keeps State.regs _ (fun k u => ?_) _ _).trans (linesServed_regs l mode i s)
    split <;> rfl
  rw [acceptLine_eq]
  split
  · exact (forLines_keeps State.regs _ (fun k u => goOff_regs _ k u) _ _).trans (linesServed_regs l mode i s)
  · split
    · exact (applyModes_regs l _).trans waiting
    · exact waiting

end

/-! ### The accepted SET LINE -/

theorem modeFor_eq {mode : Nat} {l k : Fin 4} (named : k = l ∨ mode = 2 ∧ k = partner l ∨ mode < 2)
    (even : mode = 2 → l.val % 2 = 0) (range : mode < 3) : modeFor mode k =
      if mode = 0 then .off else if mode = 1 then .single else if k = l then .pairPrimary else .pairSecondary := by
  unfold modeFor
  by_cases zero : mode = 0
  · rw [if_pos zero, if_pos zero]
  rw [if_neg zero, if_neg zero]
  by_cases one : mode = 1
  · rw [if_pos one, if_pos one]
  rw [if_neg one, if_neg one]
  have even := even (by omega)
  rcases named with rfl | ⟨-, rfl⟩ | small
  · rw [if_pos even, if_pos rfl]
  · have odd : ∀ l : Fin 4, l.val % 2 = 0 → ¬ (partner l).val % 2 = 0 := by decide
    rw [if_neg (partner_ne_self l), if_neg (odd l even)]
  · omega

section
variable {l : Fin 4} {mode : Nat} {i : Fin 4} {s : State}

/-- What an accepted SET LINE leaves of the lines and of the slots. -/
structure LinesAccepted (l : Fin 4) (mode : Nat) (i : Fin 4) (s t : State) : Prop where
  line : ∀ k, ((t.port k).mode, (t.port k).profile, (t.lineRoster k).clash) =
    if k ∈ s.namedLines l mode then (modeFor mode k, i, []) else ((s.port k).mode, (s.port k).profile, (s.lineRoster k).clash)
  slot : ∀ n, ∃ st kp id ka re se, t.slot n = { s.slot n with
    binding := ((s.slot n).namedTo l (decide (mode = 2) && !s.paired l)).binding
    state := st, kept := kp, identify := id, keepalive := ka, reach := re, served := se }
  served : ∀ n, (∀ k ∈ s.namedLines l mode, t.lineOf n = some k → (t.slot n).servedAt (s.profiles[i]).rate) ∧
    ((∀ k ∈ s.namedLines l mode, t.lineOf n ≠ some k) → (t.slot n).served = (s.slot n).served)
  report : t.report = (linesTold l mode i s).report

theorem linesServed_line (k : Fin 4) : (((linesServed l mode i s).port k).mode, ((linesServed l mode i s).port k).profile,
    ((linesServed l mode i s).lineRoster k).clash) =
    if k ∈ s.namedLines l mode then (modeFor mode k, i, []) else ((s.port k).mode, (s.port k).profile, (s.lineRoster k).clash) := by
  obtain ⟨⟨f, port⟩, line⟩ := (linesServed_served_at l mode i s).line k
  have recorded := linesRecorded_line l mode i s k
  rw [port, line]
  split at recorded
  · next own =>
    obtain ⟨port', line'⟩ := Prod.mk.inj recorded
    rw [if_pos own, port', line']
  · next out =>
    obtain ⟨port', line'⟩ := Prod.mk.inj recorded
    rw [if_neg out, port', line']

theorem linesServed_port (k : Fin 4) : ∃ m p f, (linesServed l mode i s).port k =
    { s.port k with mode := m, profile := p, forming := f } := by
  obtain ⟨⟨f, port⟩, -⟩ := (linesServed_served_at l mode i s).line k
  have recorded := congrArg Prod.fst (linesRecorded_line l mode i s k)
  rw [port]
  dsimp only at recorded
  rw [recorded]
  split <;> exact ⟨_, _, _, rfl⟩

theorem linesServed_slot (n : Fin 24) : ∃ re se, (linesServed l mode i s).slot n = { s.slot n with
    binding := ((s.slot n).namedTo l (decide (mode = 2) && !s.paired l)).binding, reach := re, served := se } := by
  obtain ⟨r, slot⟩ := (linesServed_served_at l mode i s).slot n
  rw [slot, Slot.namedTo]
  split <;> exact ⟨_, _, rfl⟩

theorem acceptLine_on (on : mode ≠ 0) : LinesAccepted l mode i s (acceptLine l mode i s) ∧
    ∀ n, ((acceptLine l mode i s).slot n).state = (s.slot n).state := by
  have served := linesServed_served_at l mode i s
  have modes := acceptLine_modesIn (l := l) (i := i) (s := s) on
  refine ⟨⟨fun k => ?_, fun n => ?_, fun n => ?_, modes.report.trans served.report⟩, fun n => ?_⟩
  · obtain ⟨mode', profile, clash⟩ := modes.line k
    rw [mode', profile, clash, linesServed_line]
  · obtain ⟨r, slot⟩ := modes.slot n
    obtain ⟨re, se, base⟩ := linesServed_slot (l := l) (mode := mode) (i := i) (s := s) n
    rw [slot, base]
    exact ⟨_, _, _, _, _, _, rfl⟩
  · obtain ⟨r, slot⟩ := modes.slot n
    obtain ⟨at_, others⟩ := served.served n
    have line : (acceptLine l mode i s).lineOf n = (linesServed l mode i s).lineOf n :=
      lineOf_of_binding (by rw [slot])
    rw [line, slot]
    exact ⟨at_, others⟩
  · obtain ⟨r, slot⟩ := modes.slot n
    obtain ⟨re, se, base⟩ := linesServed_slot (l := l) (mode := mode) (i := i) (s := s) n
    rw [slot, base]

theorem namedLines_ne_nil (s : State) (l : Fin 4) (mode : Nat) : s.namedLines l mode ≠ [] :=
  List.ne_nil_of_mem (mem_namedLines.2 (.inl rfl))

theorem acceptLine_off : LinesAccepted l 0 i s (acceptLine l 0 i s) ∧
    LinesOff (s.namedLines l 0) (linesServed l 0 i s) (acceptLine l 0 i s) ∧
    ∀ n, WentOff (s.namedSlots l 0) (linesServed l 0 i s) (acceptLine l 0 i s) n := by
  have eq : acceptLine l 0 i s = forLines (goOff (s.namedSlots l 0)) (s.namedLines l 0) (linesServed l 0 i s) :=
    (acceptLine_eq l 0 i s).trans (if_pos rfl)
  have served := linesServed_served_at l 0 i s
  have off := forLines_goOff (s.namedSlots l 0) (s.namedLines l 0) (linesServed l 0 i s)
  have went (n : Fin 24) := forLines_goOff_went (s.namedSlots l 0) n (s.namedLines l 0) (namedLines_ne_nil s l 0)
    (linesServed l 0 i s)
  rw [← eq] at off went
  refine ⟨⟨fun k => ?_, fun n => ?_, fun n => ?_, off.report.trans served.report⟩, off, went⟩
  · obtain ⟨mode', profile, -⟩ := off.kept k
    rw [mode', profile, off.clash, linesServed_line]
  · obtain ⟨st, kp, id, ka, slot⟩ := (went n).slot
    obtain ⟨re, se, base⟩ := linesServed_slot (l := l) (mode := 0) (i := i) (s := s) n
    rw [slot, base]
    exact ⟨_, _, _, _, _, _, rfl⟩
  · obtain ⟨st, kp, id, ka, slot⟩ := (went n).slot
    obtain ⟨at_, others⟩ := served.served n
    have line : (acceptLine l 0 i s).lineOf n = (linesServed l 0 i s).lineOf n := lineOf_of_binding (by rw [slot])
    rw [line, slot]
    exact ⟨at_, others⟩

end

theorem mem_namedSlots {s : State} {l : Fin 4} {mode : Nat} {n : Fin 24} :
    n ∈ s.namedSlots l mode ↔ ∃ k ∈ s.namedLines l mode, s.lineOf n = some k := by
  simp [State.namedSlots, State.slotsOn, allSlots]

section
variable {l i : Fin 4} {s t : State} (later : Later (acceptLine l 0 i s) t)
include later

/-- The port of a line set OFF (R96). -/
theorem Later.off_port {k : Fin 4} (named : k ∈ s.namedLines l 0) : (t.port k).applied = .off ∧
    ((s.port k).xstate ≠ .sending → (t.port k).calm) := by
  obtain ⟨accepted, off, -⟩ := acceptLine_off (l := l) (i := i) (s := s)
  obtain ⟨x, r, port⟩ := later.port k
  refine ⟨?_, fun active => ?_⟩
  · rw [port]
    exact off.applied k named
  · obtain ⟨m, p, f, base⟩ := linesServed_port (l := l) (mode := 0) (i := i) (s := s) k
    have calm := off.own k named (by rw [base]; exact active)
    have mode := congrArg Prod.fst (accepted.line k)
    rw [if_pos named] at mode
    have mode : ((acceptLine l 0 i s).port k).mode = .off := mode
    have dark : (acceptLine l 0 i s).lineOn k = false := by
      rw [State.lineOn, mode]
      rfl
    exact ⟨by rw [port]; exact calm.1, (later.exchange k).off dark calm.2⟩

/-- The port of a pair that took a frame from its odd line, as that line is set OFF (log 57). -/
theorem Later.off_dropped {o : From} (single : s.paired l = false) (looped : s.looped (partner l) = true)
    (receiving : (s.port (partner l)).xstate = .receiving o) (side : (s.port (partner l)).rxSide = .secondary) :
    (t.port (partner l)).xstate = o.dropped ∧ (t.port (partner l)).replyLeft = (s.port (partner l)).replyLeft ∧
      ∀ k, (t.port k).counters = (s.port k).counters := by
  obtain ⟨-, off, -⟩ := acceptLine_off (l := l) (i := i) (s := s)
  have base (k : Fin 4) := linesServed_port (l := l) (mode := 0) (i := i) (s := s) k
  have lines : s.namedLines l 0 = [l] := by
    rw [State.namedLines, single]
    rfl
  have eq : acceptLine l 0 i s = goOff (s.namedSlots l 0) l (linesServed l 0 i s) := by
    refine ((acceptLine_eq l 0 i s).trans (if_pos rfl)).trans ?_
    rw [lines]
    rfl
  have gone := goOff_gone (s.namedSlots l 0) l (linesServed l 0 i s)
  rw [← eq] at gone
  obtain ⟨m, p, f, own⟩ := base (partner l)
  have looped' : (linesServed l 0 i s).looped (partner l) = true := by
    obtain ⟨m', p', f', own'⟩ := base (partner (partner l))
    rw [State.looped, own, own']
    exact looped
  have dropped := dropReception_dropped (l := l) (s := linesServed l 0 i s) (o := o) (by rw [own]; exact receiving) looped'
    (by rw [own]; exact side)
  obtain ⟨x, r, port⟩ := later.port (partner l)
  refine ⟨?_, ?_, fun k => ?_⟩
  · rw [port]
    exact (gone.others _ (partner_ne_self l)).trans dropped
  · obtain ⟨-, -, -, replyLeft⟩ := off.kept (partner l)
    rw [port]
    refine replyLeft.trans ?_
    rw [own]
  · obtain ⟨-, -, counters, -⟩ := off.kept k
    obtain ⟨x', r', port'⟩ := later.port k
    obtain ⟨m', p', f', own'⟩ := base k
    rw [port']
    refine counters.trans ?_
    rw [own']

/-- The slots of the lines set OFF, and the others (R94). -/
theorem Later.off_slot (n : Fin 24) :
    ((∃ k ∈ s.namedLines l 0, s.lineOf n = some k) → (s.slot n).reached → (t.slot n).state = .silent ∧ t.delivery n = none) ∧
    ((∀ k ∈ s.namedLines l 0, s.lineOf n ≠ some k) ∨ ¬ (s.slot n).reached → (t.slot n).state = (s.slot n).state) := by
  obtain ⟨-, -, went⟩ := acceptLine_off (l := l) (i := i) (s := s)
  obtain ⟨re, se, base⟩ := linesServed_slot (l := l) (mode := 0) (i := i) (s := s) n
  have reached : ((linesServed l 0 i s).slot n).reached ↔ (s.slot n).reached := by
    rw [base]
    exact Iff.rfl
  refine ⟨fun bound active => ?_, fun others => ?_⟩
  · obtain ⟨silent, gone⟩ := (went n).gone (mem_namedSlots.2 bound) (reached.2 active)
    rw [later.slot]
    exact ⟨silent, later.delivery_none gone⟩
  · have out : n ∉ s.namedSlots l 0 ∨ ¬ ((linesServed l 0 i s).slot n).reached := by
      refine others.imp (fun none own => ?_) (fun no yes => no (reached.1 yes))
      obtain ⟨k, named, line⟩ := mem_namedSlots.1 own
      exact none k named line
    rw [later.slot, (went n).rest out, base]

end

/-- Settles O40: what is refused changes nothing; what is accepted is recorded line by line, and an OFF line is left by its port
and its slots. -/
theorem setLineRecordsMode : Obligations.SetLineRecordsMode := by
  unfold Obligations.SetLineRecordsMode
  intro s t take f u bad
  by_cases refused : bad
  · obtain ⟨t', run, answers⟩ := atOnce_refused take (setLine_bad u refused)
    exact ⟨t', run, fun _ => answers, fun l i good => absurd refused good⟩
  obtain ⟨x, taken⟩ := takeUp_atOnce_eq_exch s t
  obtain ⟨l, line⟩ : ∃ l : Fin 4, f 8 = l.val := ⟨⟨f 8, by omega⟩, rfl⟩
  obtain ⟨i, profile⟩ : ∃ i : Fin 4, f 10 = i.val := ⟨⟨f 10, by omega⟩, rfl⟩
  have conflict : f 9 = 2 ∧ u.paired l = false ∧ u.pairConflict l (partner l) = true ↔ f 9 = 2 ∧ s.paired l = false ∧
      ∃ n m a, (s.slot n).binding = some (l, a) ∧ (s.slot m).binding = some (partner l, a) := by
    rw [pairConflict_iff]
    simp only [u, taken]
    exact Iff.rfl
  have only {l' i' : Fin 4} (line' : f 8 = l'.val) (profile' : f 10 = i'.val) : l' = l ∧ i' = i :=
    ⟨Fin.ext (line'.symm.trans line), Fin.ext (profile'.symm.trans profile)⟩
  by_cases merging : f 9 = 2 ∧ u.paired l = false ∧ u.pairConflict l (partner l) = true
  · obtain ⟨t', run, answers⟩ := atOnce_refused take (setLine_merges refused line merging)
    refine ⟨t', run, fun yes => absurd yes refused, fun l' i' _ line' profile' => ?_⟩
    obtain ⟨rfl, rfl⟩ := only line' profile'
    exact ⟨fun _ => answers, fun no => absurd (conflict.1 merging) no⟩
  · obtain ⟨t', run, completed, later⟩ := atOnce_later take (setLine_accepted refused line profile merging)
      (acceptLine_fixed ..) (acceptLine_regs ..)
    refine ⟨t', run, fun yes => absurd yes refused, fun l' i' _ line' profile' => ?_⟩
    obtain ⟨rfl, rfl⟩ := only line' profile'
    refine ⟨fun yes => absurd (conflict.2 yes) merging, fun _ => ⟨completed, ?_⟩⟩
    have healthy : s.isFaulted = false := not_isFaulted_of_working (working_of_canTake take)
    have even : f 9 = 2 → l'.val % 2 = 0 := by omega
    have range : f 9 < 3 := by omega
    have fixed := acceptLine_fixed u l' (f 9) i'
    obtain ⟨-, -, -, -, -, change, clock, profiles, -⟩ := of_fixed fixed
    have change := later.change.trans change
    have clock := later.clock.trans clock
    have profiles := later.profiles.trans profiles
    simp only [u, taken] at later change clock profiles
    generalize at_ : ({ s with exch := x } : State) = s' at later change clock profiles
    have accepted : LinesAccepted l' (f 9) i' s' (acceptLine l' (f 9) i' s') := by
      by_cases off : f 9 = 0
      · rw [off]
        exact acceptLine_off.1
      · exact (acceptLine_on off).1
    subst at_
    have later : Later (acceptLine l' (f 9) i' { s with exch := x }) t' := later
    refine ⟨fun k named => ?_, fun k out => ?_, fun k named off => ?_, fun o off single looped receiving side => ?_, fun n => ?_,
      fun n bound off active => ?_, fun n others => ?_, fun clashed => ?_, fun n d two single bound => ?_, fun n => ?_,
      change, clock, profiles⟩
    · have line := (accepted.line k).trans (if_pos (mem_namedLines.2 named))
      obtain ⟨mode', line⟩ := Prod.mk.inj line
      obtain ⟨profile', clash⟩ := Prod.mk.inj line
      obtain ⟨y, r, port⟩ := later.port k
      rw [port, later.lineRoster]
      refine ⟨mode'.trans (modeFor_eq ?_ even range), profile', clash⟩
      by_cases two : f 9 = 2
      · exact named.imp_right fun ⟨_, second⟩ => .inl ⟨two, second⟩
      · exact .inr (.inr (by omega))
    · have line := (accepted.line k).trans (if_neg fun own => out (mem_namedLines.1 own))
      obtain ⟨mode', line⟩ := Prod.mk.inj line
      obtain ⟨profile', clash⟩ := Prod.mk.inj line
      obtain ⟨y, r, port⟩ := later.port k
      rw [port, later.lineRoster]
      exact ⟨mode', profile', clash⟩
    · have named := mem_namedLines.2 named
      rw [off] at later named
      exact later.off_port named
    · rw [off] at later
      have dropped := later.off_dropped single looped receiving side
      have same : o.dropped = if o = .awaiting then .awaiting else .gap := by cases o <;> rfl
      rwa [same] at dropped
    · obtain ⟨st, kp, id, ka, re, se, slot⟩ := accepted.slot n
      rw [later.slot, slot]
      exact ⟨rfl, rfl, rfl, rfl, rfl, rfl⟩
    · obtain ⟨k, named, line⟩ := bound
      have named := mem_namedLines.2 named
      rw [off] at later named
      exact (later.off_slot n).1 ⟨k, named, line⟩ active
    · by_cases off : f 9 = 0
      · rw [off] at later
        refine (later.off_slot n).2 ?_
        rcases others with on | none | rest
        · exact absurd off on
        · refine .inl fun k own => none k (mem_namedLines.1 ?_)
          rw [off]
          exact own
        · refine .inr ?_
          rintro (state | state | state) <;> rcases rest with other | other | other <;>
            exact absurd (state.symm.trans other) (by decide)
      · rw [later.slot]
        exact (acceptLine_on off).2 n
    · obtain ⟨k, named, some⟩ := clashed
      have told : State.clashed l' (f 9) { s with exch := x } = true := by
        refine List.any_eq_true.2 ⟨k, mem_namedLines.2 named, ?_⟩
        have some : (State.lineRoster { s with exch := x } k).clash ≠ [] := some
        simpa using some
      have waits := linesTold_waits l' (f 9) i' { s with exch := x } healthy told
      rw [← accepted.report, ← later.waiting] at waits
      refine ⟨_, waits, rfl, fun q => ?_⟩
      simp only [List.mem_map]
      exact ⟨fun ⟨k, own, same⟩ => ⟨k, mem_namedLines.1 own, same.symm⟩, fun ⟨k, own, same⟩ => ⟨k, mem_namedLines.2 own, same.symm⟩⟩
    · obtain ⟨st, kp, id, ka, re, se, slot⟩ := accepted.slot n
      have pairing : (decide (f 9 = 2) && !State.paired { s with exch := x } l') = true := by
        have single : State.paired { s with exch := x } l' = false := single
        rw [single, two]
        rfl
      have bound : (State.slot { s with exch := x } n).binding = some (partner l', d) := bound
      rw [later.slot, slot]
      dsimp only
      rw [pairing, Slot.namedTo, if_pos rfl, Slot.primaryOn, Slot.passed, bound]
      exact congrArg some (if_pos rfl)
    · obtain ⟨at_, others⟩ := accepted.served n
      have same := later.slot n
      have line : t'.lineOf n = (acceptLine l' (f 9) i' { s with exch := x }).lineOf n := lineOf_of_binding (by rw [same])
      rw [line, same]
      exact ⟨fun k named => at_ k (mem_namedLines.2 named), fun none => others fun k own => none k (mem_namedLines.1 own)⟩

end Sys2Proof.Machine

/-!
Taking a request up (R33, R34, R42, R59): what it leaves of the strips and of a queued purge job, and whose turn it is.
-/
namespace Sys2Proof.Machine

/-! ### What is taken up, and what still waits -/

theorem leaveHolder_strip (s : State) (t v : Strip) :
    ((leaveHolder t s).strip v).position = (s.strip v).position ∧
    (v ≠ t → (leaveHolder t s).strip v = s.strip v) := by
  unfold leaveHolder
  split
  · rw [State.setStrip_strip]
    split
    · next here =>
      subst here
      exact ⟨rfl, fun other => absurd rfl other⟩
    · exact ⟨rfl, fun _ => rfl⟩
  · exact ⟨rfl, fun _ => rfl⟩

theorem boundStrip_strip (s : State) (t : Strip) (o : Owner) {r : Request} {h f : Bool}
    (hold : (s.strip t).scan = .holding r h f) : ((boundStrip t o s).strip t).scan =
      .holding r h (f && !(h && decide (ownerOf r.kind = some o))) := by
  have waits : s.waits t o = (h && decide (ownerOf r.kind = some o)) := by
    simp only [State.waits, State.heldRequest, hold]
    cases h <;> simp
  unfold boundStrip
  rw [waits]
  split
  · next bound =>
    simp only [hold, State.setStrip_strip, if_true, bound, Bool.not_true, Bool.and_false]
  · next free =>
    rw [hold, Bool.eq_false_iff.2 free, Bool.not_false, Bool.and_true]

theorem boundStrip_position (s : State) (t v : Strip) (o : Owner) :
    ((boundStrip t o s).strip v).position = (s.strip v).position := by
  by_cases here : t = v
  · subst here
    unfold boundStrip
    split
    · split
      · rw [State.setStrip_strip, if_pos rfl]
      · rfl
    · rfl
  · rw [boundStrip_strip_of_ne here]

theorem boundStrip_stopped {s : State} {t v : Strip} (o : Owner) (stopped : (s.strip v).scan = .stopped) :
    ((boundStrip t o s).strip v).scan = .stopped := by
  by_cases here : t = v
  · subst here
    unfold boundStrip
    simp only [stopped]
    split <;> exact stopped
  · rw [boundStrip_strip_of_ne here]
    exact stopped

theorem takeUp_strips (s : State) (t v : Strip) (o : Owner) :
    (takeUp t o s).strip v = (boundStrip (otherStrip t) o (leaveHolder t s)).strip v := by
  unfold takeUp
  split
  · exact boundPurge_strip _ v
  · rfl

theorem takeUp_position (s : State) (t v : Strip) (o : Owner) : ((takeUp t o s).strip v).position = (s.strip v).position := by
  rw [takeUp_strips, boundStrip_position]
  exact (leaveHolder_strip s t v).1

theorem takeUp_stopped {s : State} {t v : Strip} (o : Owner) (stopped : (s.strip v).scan = .stopped) :
    ((takeUp t o s).strip v).scan = .stopped := by
  rw [takeUp_strips]
  refine boundStrip_stopped o ?_
  by_cases here : v = t
  · subst here
    simp only [leaveHolder, stopped]
  · rw [(leaveHolder_strip s t v).2 here]
    exact stopped

theorem takeUp_other {s : State} {t : Strip} {o : Owner} {r : Request} {h f : Bool}
    (hold : (s.strip (otherStrip t)).scan = .holding r h f) : ((takeUp t o s).strip (otherStrip t)).scan =
      .holding r h (f && !(h && decide (ownerOf r.kind = some o))) := by
  rw [takeUp_strips]
  refine boundStrip_strip _ _ _ ?_
  rw [(leaveHolder_strip s t (otherStrip t)).2 (otherStrip_ne t)]
  exact hold

theorem setStrip_timers (s : State) (t : Strip) (v : StripState) : (s.setStrip t v).exch.descriptor = s.exch.descriptor ∧
    (s.setStrip t v).exch.scanTimer = s.exch.scanTimer := by
  cases t <;> exact ⟨rfl, rfl⟩

theorem takeUp_timers (s : State) (t : Strip) (o : Owner) : (takeUp t o s).exch.descriptor = s.exch.descriptor ∧
    (takeUp t o s).exch.scanTimer = s.exch.scanTimer := by
  have left : (leaveHolder t s).exch.descriptor = s.exch.descriptor ∧ (leaveHolder t s).exch.scanTimer = s.exch.scanTimer := by
    unfold leaveHolder
    split
    · exact setStrip_timers ..
    · exact ⟨rfl, rfl⟩
  have bound (u : State) : (boundStrip (otherStrip t) o u).exch.descriptor = u.exch.descriptor ∧
      (boundStrip (otherStrip t) o u).exch.scanTimer = u.exch.scanTimer := by
    unfold boundStrip
    split
    · split
      · exact setStrip_timers ..
      · exact ⟨rfl, rfl⟩
    · exact ⟨rfl, rfl⟩
  have purge (u : State) : (boundPurge u).exch = u.exch := by
    unfold boundPurge
    split <;> rfl
  obtain ⟨descriptor, timer⟩ := bound (leaveHolder t s)
  unfold takeUp
  split
  · rw [purge]
    exact ⟨descriptor.trans left.1, timer.trans left.2⟩
  · exact ⟨descriptor.trans left.1, timer.trans left.2⟩

theorem takeUp_purge (s : State) (t : Strip) (o : Owner) : (takeUp t o s).change.purge =
    if o = .change ∧ s.change.purge ≠ .empty then .queued false else s.change.purge := by
  have change : (boundStrip (otherStrip t) o (leaveHolder t s)).change = s.change := by
    rw [boundStrip_change, leaveHolder_change]
  unfold takeUp
  by_cases own : o = .change
  · rw [if_pos own, boundPurge]
    rw [change]
    cases purge : s.change.purge with
    | empty => simp [purge]
    | queued f => simp [own]
  · rw [if_neg own, if_neg (fun both => own both.1), change]

/-! ### Whose turn it is -/

theorem waits_iff (s : State) (t : Strip) (o : Owner) : s.waits t o = true ↔
    ∃ q f, (s.strip t).scan = .holding q true f ∧ ownerOf q.kind = some o := by
  unfold State.waits
  refine ⟨fun waits => ?_, fun ⟨q, f, hold, own⟩ => ?_⟩
  · split at waits
    · next r held =>
      obtain ⟨f, hold⟩ := heldRequest_eq_some held
      exact ⟨r, f, hold, by simpa using waits⟩
    · cases waits
  · simp only [State.heldRequest, hold, own, decide_true]

theorem changeIdle_iff (s : State) : s.changeIdle = true ↔ ¬ s.busyWith .change := by
  simp only [State.changeIdle, State.busyWith, ← handingOver_iff]
  cases s.change.batch <;> cases s.change.format <;> cases s.change.rebuild <;> cases s.handingOver .change <;> simp

theorem ownerIdle_iff (s : State) (o : Owner) : s.ownerIdle o = true ↔ ¬ s.busyWith o := by
  cases o with
  | change => exact changeIdle_iff s
  | edition => exact editionIdle_iff s
  | atOnce => simp [State.ownerIdle, State.busyWith]

theorem inOrder_iff {s : State} {t : Strip} {o : Owner} {r : Request} {f : Bool} (hold : (s.strip t).scan = .holding r true f) :
    s.inOrder t o = true ↔ t = .priority ∨ f = true ∨ o = .atOnce ∨
      (¬ s.priorityWaits o ∧ (o = .change → s.change.purge = .empty)) := by
  have waits : s.waits .priority o = false ↔ ¬ s.priorityWaits o := by
    rw [← Bool.not_eq_true, waits_iff]
    rfl
  cases t with
  | priority => simp [State.inOrder]
  | routine =>
    have free : s.heldFree .routine = f := by simp only [State.heldFree, hold]
    simp only [State.inOrder, free, Bool.or_eq_true, Bool.and_eq_true, Bool.not_eq_true', decide_eq_true_iff, waits,
      reduceCtorEq, false_or, or_assoc, ne_eq, imp_iff_not_or]

theorem mayTake_iff (s : State) (t : Strip) (o : Owner) (k : Nat) : s.mayTake t o k = true ↔ s.working = true ∧ ¬ s.busyWith o ∧
    ∃ r free, (s.strip t).scan = .holding r true free ∧ r.kind = k ∧
      (t = .priority ∨ free = true ∨ o = .atOnce ∨ (¬ s.priorityWaits o ∧ (o = .change → s.change.purge = .empty))) := by
  unfold State.mayTake
  simp only [Bool.and_eq_true, ownerIdle_iff]
  refine ⟨fun ⟨⟨⟨work, idle⟩, order⟩, kind⟩ => ⟨work, idle, ?_⟩, fun ⟨work, idle, r, f, hold, kind, order⟩ => ?_⟩
  · split at kind
    · next r held =>
      obtain ⟨f, hold⟩ := heldRequest_eq_some held
      exact ⟨r, f, hold, by simpa using kind, (inOrder_iff hold).1 order⟩
    · cases kind
  · have held : s.heldRequest t = some r := by simp only [State.heldRequest, hold]
    refine ⟨⟨⟨work, idle⟩, (inOrder_iff hold).2 order⟩, ?_⟩
    rw [held]
    exact decide_eq_true kind

theorem mayPurge_iff (s : State) : s.mayPurge = true ↔ s.working = true ∧ ¬ s.busyWith .change ∧
    ∃ free, s.change.purge = .queued free ∧ (free = true ∨ ¬ s.priorityWaits .change) := by
  have waits : s.waits .priority .change = false ↔ ¬ s.priorityWaits .change := by
    rw [← Bool.not_eq_true, waits_iff]
    rfl
  unfold State.mayPurge
  rw [Bool.and_eq_true, Bool.and_eq_true, changeIdle_iff, and_assoc]
  refine and_congr_right fun _ => and_congr_right fun _ => ?_
  cases s.change.purge with
  | empty => simp
  | queued free => simp [waits]

theorem mayApply_iff (s : State) (t : Strip) : s.mayApply t = true ↔ s.mayTake t .change 0x01 = true ∨
    (t = .priority ∧ s.working = true ∧ s.change.batch = none ∧ (∃ b, s.change.rebuild = some b ∧ b.look = true) ∧
      ∃ r f, (s.strip .priority).scan = .holding r true f ∧ r.kind = 0x01) := by
  have looked : s.looked = true ↔ ∃ b, s.change.rebuild = some b ∧ b.look = true := by
    unfold State.looked
    cases s.change.rebuild <;> simp
  have holds : s.holdsApply .priority = true ↔ ∃ r f, (s.strip .priority).scan = .holding r true f ∧ r.kind = 0x01 := by
    unfold State.holdsApply
    refine ⟨fun kind => ?_, fun ⟨r, f, hold, kind⟩ => ?_⟩
    · split at kind
      · next r held =>
        obtain ⟨f, hold⟩ := heldRequest_eq_some held
        exact ⟨r, f, hold, of_decide_eq_true kind⟩
      · cases kind
    · simp only [State.heldRequest, hold]
      exact decide_eq_true kind
  simp only [State.mayApply, State.yields, Bool.or_eq_true, Bool.and_eq_true, decide_eq_true_iff, looked, holds,
    Option.isNone_iff_eq_none, and_assoc]
  exact Iff.rfl

/-! ### A command whose turn has not come -/

theorem scheduled_idle {s : State} {f : State → State} (high : s.resetLow = false) (idle : f s = s) :
    ∃ t, scheduled s f = .next t ∧ Settled s t := by
  obtain ⟨t, run, settled, -⟩ := scheduled_later (f := f) high
  rw [idle] at settled
  exact ⟨t, run, settled⟩

/-- Settles O18: taking up by its three steps, whose turn it is by the flags of the holders, and the commands by their guards. -/
theorem takingUpLeavesOutputsAlone : Obligations.TakingUpLeavesOutputsAlone := by
  unfold Obligations.TakingUpLeavesOutputsAlone
  refine ⟨fun t o s => ?_, fun s t o k _ => mayTake_iff s t o k, mayPurge_iff, mayApply_iff,
    fun s t k c o high member own not_ notApply => ?_, fun s high not_ => ?_, fun s pages purge rest => ?_⟩
  · obtain ⟨x, p, same, -⟩ := takeUp_eq t o s
    obtain ⟨descriptor, timer⟩ := takeUp_timers s t o
    refine ⟨?_, takeUp_purge s t o, descriptor, timer, fun v => ⟨takeUp_position s t v o, takeUp_stopped o⟩,
      fun r h f hold => congrArg StripState.scan (takeUp_strip o hold), fun r h f hold => takeUp_other hold⟩
    rw [same]
  · simp only [takingCommands, List.mem_cons, Prod.mk.injEq, List.not_mem_nil, or_false] at member
    have turn : ¬ s.mayTake t o k = true := Bool.eq_false_iff.1 not_
    rcases member with ⟨rfl, rfl⟩ | ⟨rfl, rfl⟩ | ⟨rfl, rfl⟩ | ⟨rfl, rfl⟩ | ⟨rfl, rfl⟩ | ⟨rfl, rfl⟩ | ⟨rfl, rfl⟩ | ⟨rfl, rfl⟩ |
      ⟨rfl, rfl⟩ | ⟨rfl, rfl⟩ | ⟨rfl, rfl⟩ | ⟨rfl, rfl⟩ | ⟨rfl, rfl⟩ | ⟨rfl, rfl⟩ <;> cases own
    · exact scheduled_idle high (if_neg (Bool.eq_false_iff.1 (notApply rfl)))
    all_goals exact scheduled_idle high (if_neg turn)
  · exact scheduled_idle high (if_neg (Bool.eq_false_iff.1 not_))
  · have late : s.arrivesFree .change = false := by
      simp only [State.arrivesFree, rest, Bool.false_and]
    simp only [queuePurge, pages, purge, late, if_false]

end Sys2Proof.Machine

/-!
The items of a batch (R24 to R29) that change no page, and the end of a batch that changed none.
-/
namespace Sys2Proof.Machine

/-! ### Outcomes of items -/

theorem ItemOutcome.code_full (o : ItemOutcome) : o.code = 6 ↔ o = .full := by cases o <;> decide

/-- The batch with one more item done, which ended `o`. -/
def Batch.counted (b : Batch) (o : ItemOutcome) : Batch :=
  { b with
    next := b.next + 1
    faulty := if o.faulty then b.faulty + 1 else b.faulty
    anyFull := b.anyFull || decide (o = .full) }

/-- The state with an item done that changed no page: its outcome in byte 11, the counts raised. -/
def State.noted (s : State) (b : Batch) (o : ItemOutcome) : State :=
  { s with
    mem := Memory.write s.mem (b.list + 16 * b.next + 11) o.code
    change := { s.change with
      refused := if o = .full then satInc s.change.refused else s.change.refused
      batch := some (b.counted o) } }

/-- The batch ended, if it changed no page and no item is left. -/
def closeBatch (s : State) : State :=
  match s.change.batch with
  | some b => if b.next = b.count ∧ b.changed = [] then endBatch b s else s
  | none => s

theorem exec_changeItem {s : State} {b : Batch} (high : s.resetLow = false) (work : s.working = true)
    (has : s.change.batch = some b) (more : b.next < b.count) :
    exec .changeItem s =
      .next (settle s (boundaries (closeBatch (itemDone (applyNext b s).2 (applyNext b s).1)))) := by
  have step : exec .changeItem s = execChangeItem s := rfl
  rw [step, execChangeItem, scheduled_next high]
  simp only [has, work, more, decide_true, Bool.and_self, if_true]
  generalize itemDone (applyNext b s).2 (applyNext b s).1 = u
  unfold closeBatch
  cases u.change.batch <;> rfl

theorem itemDone_eq {s : State} {b : Batch} (has : s.change.batch = some b) (o : ItemOutcome) : itemDone o s =
    { s with
      mem := Memory.write s.mem (b.list + 16 * b.next + 11) o.code
      change := { s.change with batch := some (b.counted o) } } := by
  simp only [itemDone, has]
  rfl

theorem itemDone_noted {s : State} {b : Batch} {o : ItemOutcome} (has : s.change.batch = some b)
    (applied : s.applied b = ⟨s.mem, o, none⟩) : itemDone (applyNext b s).2 (applyNext b s).1 = s.noted b o := by
  have live : applyLive b s = { s with change := { s.change with
      refused := if o = .full then satInc s.change.refused else s.change.refused } } := by
    simp only [applyLive, applied]
  have mirrors : s.mirrors b = false := by simp only [State.mirrors, applied]
  simp only [applyNext, mirrors, applied, Bool.false_eq_true, if_false]
  rw [live]
  exact itemDone_eq (s := { s with change := { s.change with
    refused := if o = .full then satInc s.change.refused else s.change.refused } }) has o

/-! ### Items that change no page -/

/-- An item ends `o` and changes no page (R24 to R28). -/
theorem applied_without {s : State} {b : Batch} {code : Byte}
    (ends : let i := s.nextItem b
      let live := liveCount s.change.table
      let base := s.imageBase s.change.region
      let window := probeWindow i.entry.key s.change.pages s.change.seed
      let page := findPage s.mem base live i.entry.key window
      (i.bad = true ∧ code = 8) ∨ (i.bad = false ∧ i.isExpired s.serviceDay? = true ∧ code = 7) ∨
      (i.bad = false ∧ i.isExpired s.serviceDay? = false ∧
        ((i.operation = 2 ∧ page = none ∧ code = 5) ∨
         (i.operation = 1 ∧ page = none ∧ (∀ p ∈ window, 20 ≤ live p) ∧ code = 6) ∨
         (i.operation = 1 ∧ code = 3 ∧ ∃ p, page = some p ∧ i.entry ∈ readEntries s.mem base p (live p))))) :
    ∃ o : ItemOutcome, o.code = code ∧ s.applied b = ⟨s.mem, o, none⟩ := by
  simp only [State.applied, applyItem, State.liveSurface]
  rcases ends with ⟨bad, rfl⟩ | ⟨good, expired, rfl⟩ | ⟨good, fresh, ends⟩
  · exact ⟨.badItem, rfl, by rw [if_pos bad]⟩
  · exact ⟨.expired, rfl, by simp only [good, expired, if_true, Bool.false_eq_true, if_false]⟩
  · simp only [good, fresh, Bool.false_eq_true, if_false]
    rcases ends with ⟨removes, none, rfl⟩ | ⟨adds, none, full, rfl⟩ | ⟨adds, rfl, p, found, same⟩
    · refine ⟨.absent, rfl, ?_⟩
      rw [if_neg (by rw [removes]; decide)]
      simp only [applyRemove, none]
    · refine ⟨.full, rfl, ?_⟩
      rw [if_pos adds]
      have room : (probeWindow (s.nextItem b).entry.key s.change.pages s.change.seed).find?
          (fun p => liveCount s.change.table p < pageRoom) = Option.none := by
        rw [List.find?_eq_none]
        intro p inside
        have here := full p inside
        rw [decide_eq_true_iff, pageRoom]
        omega
      simp only [applyAdd, none, room]
    · refine ⟨.unchanged, rfl, ?_⟩
      rw [if_pos adds]
      have among : (readEntries s.mem (s.imageBase s.change.region) p (liveCount s.change.table p)).any
          (fun x => decide (x = (s.nextItem b).entry)) = true := by simpa using same
      simp only [applyAdd, found, among, if_true]

theorem Item.bad_iff (i : Item) : i.bad = true ↔ i.entry.key = 0 ∨ (i.operation ≠ 1 ∧ i.operation ≠ 2) ∨
    (i.operation = 1 ∧ ((i.entry.action ≠ 1 ∧ i.entry.action ≠ 2) ∨ 63 < i.entry.reason.toNat)) := by
  simp only [Item.bad, Bool.or_eq_true, Bool.and_eq_true, decide_eq_true_iff, or_assoc]

theorem isExpired_iff (s : State) (i : Item) : i.isExpired s.serviceDay? = true ↔
    i.operation = 1 ∧ i.entry.expiry ≠ 0 ∧ s.clock.isSet = true ∧ i.entry.expiry < s.clock.serviceDay := by
  simp only [Item.isExpired, State.serviceDay?, Bool.and_eq_true, decide_eq_true_iff, and_assoc]
  cases s.clock.isSet <;> simp

/-! ### The end of a batch that changed no page -/

theorem counted_eq (b : Batch) (o : ItemOutcome) : b.counted o =
    { b with
      next := b.next + 1, anyFull := b.anyFull || decide (o.code = 6)
      faulty := b.faulty + (if o.code = 6 ∨ o.code = 7 ∨ o.code = 8 then 1 else 0) } := by
  cases o <;> rfl

theorem Batch.result_eq (b : Batch) : b.result = ⟨if b.faulty = 0 then 1 else 2, false, b.faulty⟩ := by
  rw [Batch.result]
  by_cases none : b.faulty = 0
  · rw [if_pos none, if_pos none, none]
    rfl
  · rw [if_neg none, if_neg none]
    rfl

theorem want_summary (s : State) : (want summaryRec s).report.wanted[summaryRec] = true := by
  rw [want_wanted]
  rfl

theorem completeAfterSummary_wanted (t : Strip) (r : Result) (s : State) :
    (completeAfterSummary t r s).report.wanted[summaryRec] = true := want_summary s

theorem closeBatch_over {s : State} {b : Batch} (has : s.change.batch = some b) (last : b.next = b.count)
    (clean : b.changed = []) : closeBatch s =
      if b.anyFull then completeAfterSummary b.strip b.result (raiseAfter .saturated [summaryRec] (batchOver s))
      else completeRequest b.strip b.result (batchOver s) := by
  simp only [closeBatch, has, last, clean, and_self, if_true, endBatch, true_and]
  cases b.anyFull
  · exact if_pos rfl
  · exact if_neg (by decide)

theorem closeBatch_goesOn {s : State} {b : Batch} (has : s.change.batch = some b)
    (goes : ¬ (b.next = b.count ∧ b.changed = [])) : closeBatch s = s := by
  simp only [closeBatch, has, if_neg goes]

/-- A request that completes leaves shared memory outside its strip. -/
theorem completeRequest_outside {u : State} {t : Strip} (r : Result) (healthy : u.isFaulted = false)
    (pos : (u.strip t).position < u.stripCount t) (wf : Memory.wf u.mem = true) {a : Nat}
    (outside : u.outsideStrip t a = true) : Memory.read (completeRequest t r u).mem a = Memory.read u.mem a := by
  cases holds : (u.strip t).scan with
  | stopped => rw [completeRequest, holds]
  | holding q h f => exact (completed_completeRequest holds healthy pos wf).elsewhere a outside

/-- What the end of a batch that changed no page leaves of the state `u` it ends in. -/
structure BatchEnded (b : Batch) (u t : State) : Prop where
  change : t.change = { u.change with batch := none }
  outside : ∀ a, u.outsideStrip b.strip a = true → Memory.read t.mem a = Memory.read u.mem a
  atOnce : b.anyFull = false → (∃ q h f, (u.strip b.strip).scan = .holding q h f) →
    Completed b.strip b.result u t ∧ t.report.waiting = u.report.waiting
  saturated : b.anyFull = true → t.mem = u.mem ∧ t.report.wanted[summaryRec] = true ∧
    t.report.waiting = u.report.waiting ++
      [⟨[summaryRec], .notice .saturated⟩, ⟨[summaryRec], .outcome b.strip b.result⟩]

theorem batchEnded (s : State) {u : State} {b : Batch} (has : u.change.batch = some b) (last : b.next = b.count)
    (clean : b.changed = []) (healthy : u.isFaulted = false) (pos : (u.strip b.strip).position < u.stripCount b.strip)
    (wf : Memory.wf u.mem = true) : BatchEnded b u (settle s (boundaries (closeBatch u))) := by
  have settled := settled_boundaries s (closeBatch u)
  have ended := closeBatch_over has last clean
  cases full : b.anyFull with
  | true =>
    rw [full, if_pos rfl] at ended
    rw [ended] at settled ⊢
    have raised := raiseAfter_summary .saturated (s := batchOver u) healthy
    rw [raised] at settled ⊢
    refine ⟨?_, fun a _ => ?_, fun none => absurd (none.symm.trans full) (by decide), fun _ => ⟨?_, ?_, ?_⟩⟩
    · rw [settled.change]
      rfl
    · rw [settled.mem]
      rfl
    · rw [settled.mem]
      rfl
    · exact settled.wanted _ (completeAfterSummary_wanted ..)
    · rw [settled.waiting]
      exact List.append_assoc _ _ _
  | false =>
    rw [full] at ended
    rw [if_neg (by decide)] at ended
    rw [ended] at settled ⊢
    refine ⟨?_, fun a outside => ?_, fun _ ⟨q, h, f, holds⟩ => ?_, fun some => absurd (some.symm.trans full) (by decide)⟩
    · rw [settled.change]
      exact (of_ledger (completeRequest_ledger b.strip b.result (batchOver u))).1
    · rw [settled.mem]
      exact completeRequest_outside (u := (batchOver u)) _ healthy pos wf outside
    · obtain ⟨completed, later⟩ := later_completes (s := s) (u := (batchOver u)) (r := b.result) holds healthy pos wf
      exact ⟨Completed.of_eq (v := (batchOver u)) rfl rfl rfl completed, later.waiting⟩

/-- What an item that changed no page leaves (R24 to R29), with the end of its batch if it was the last. -/
structure ItemNoted (s : State) (b : Batch) (o : ItemOutcome) (t : State) : Prop where
  change : t.change = { s.change with
    refused := if o = .full then satInc s.change.refused else s.change.refused
    batch := t.change.batch }
  goesOn : b.next + 1 < b.count ∨ b.changed ≠ [] →
    t.mem = Memory.write s.mem (b.list + 16 * b.next + 11) o.code ∧ t.change.batch = some (b.counted o)
  ended : b.next + 1 = b.count → b.changed = [] → t.change.batch = none ∧ BatchEnded (b.counted o) (s.noted b o) t

theorem itemNoted {s : State} {b : Batch} {o : ItemOutcome} (high : s.resetLow = false) (work : s.working = true)
    (wf : Memory.wf s.mem = true) (has : s.change.batch = some b) (more : b.next < b.count)
    (pos : (s.strip b.strip).position < s.stripCount b.strip) (applied : s.applied b = ⟨s.mem, o, none⟩) :
    ∃ t, exec .changeItem s = .next t ∧ ItemNoted s b o t := by
  refine ⟨_, exec_changeItem high work has more, ?_⟩
  rw [itemDone_noted has applied]
  have noted : (s.noted b o).change.batch = some (b.counted o) := rfl
  by_cases last : b.next + 1 = b.count ∧ b.changed = []
  · obtain ⟨last, clean⟩ := last
    have ends : BatchEnded (b.counted o) (s.noted b o) (settle s (boundaries (closeBatch (s.noted b o)))) :=
      batchEnded s noted last clean (not_isFaulted_of_working work) pos (Memory.write_wf wf _ _)
    generalize settle s (boundaries (closeBatch (s.noted b o))) = t at ends ⊢
    have change := ends.change
    refine ⟨by rw [change]; rfl, fun goes => ?_, fun _ _ => ⟨by rw [change], ends⟩⟩
    rcases goes with more | dirty
    · omega
    · exact absurd clean dirty
  · rw [closeBatch_goesOn noted last]
    have settled := settled_boundaries s (s.noted b o)
    generalize settle s (boundaries (s.noted b o)) = t at settled ⊢
    have change := settled.change
    exact ⟨by rw [change]; rfl, fun _ => ⟨settled.mem, by rw [change]; rfl⟩, fun least clean => absurd ⟨least, clean⟩ last⟩

/-- Settles O20: the outcome of the item decides what is written and counted, and whether the batch ends with it. -/
theorem itemWithoutChange : Obligations.ItemWithoutChange := by
  unfold Obligations.ItemWithoutChange
  intro s b code high work wf has more pos addr i live base window page bad expired ends
  obtain ⟨o, rfl, applied⟩ := applied_without (s := s) (b := b) (code := code) (by
    simp only [← Bool.not_eq_true, Item.bad_iff, isExpired_iff]
    exact ends)
  obtain ⟨t, run, noted⟩ := itemNoted high work wf has more pos applied
  refine ⟨t, run, ?_, fun goes => ?_, fun last clean => ?_⟩
  · simp only [ItemOutcome.code_full]
    exact noted.change
  · obtain ⟨mem, batch⟩ := noted.goesOn goes
    exact ⟨mem, batch.trans (congrArg some (counted_eq b o))⟩
  · obtain ⟨none, ended⟩ := noted.ended last clean
    have result := (b.counted o).result_eq
    rw [counted_eq] at result
    refine ⟨none, fun outside => ?_, fun a other outside => ?_, ?_, ?_⟩
    · exact (ended.outside addr outside).trans (Memory.read_write_self wf addr o.code)
    · exact (ended.outside a outside).trans (Memory.read_write_ne o.code other s.mem)
    · intro few notFull holds
      rw [Ne, ItemOutcome.code_full] at notFull
      have few : (b.counted o).anyFull = false := by simp [Batch.counted, few, notFull]
      obtain ⟨completed, waiting⟩ := ended.atOnce few holds
      rw [counted_eq, result] at completed
      exact ⟨Completed.of_eq (v := s.noted b o) rfl rfl rfl completed, waiting⟩
    · intro full
      rw [ItemOutcome.code_full] at full
      have full : (b.counted o).anyFull = true := by simpa [Batch.counted] using full
      obtain ⟨mem, wanted, waiting⟩ := ended.saturated full
      rw [counted_eq, result] at waiting
      exact ⟨mem, wanted, waiting⟩

end Sys2Proof.Machine

/-!
The entries and the header of a page in shared memory (R5, R8, R9): what is read back after they are written, and which bytes
stay.
-/
namespace Sys2Proof.Machine

/-! ### Entries as bytes -/

theorem entryBytes_length (e : Entry) : (entryBytes e).length = 12 := by simp [entryBytes, leBytes_length]

theorem parseEntry_expiry (bs : List Byte) : (parseEntry bs).expiry < 65536 := fieldAt_lt bs 10 2

theorem parseItem_expiry (bs : List Byte) : (parseItem bs).entry.expiry < 65536 := fieldAt_lt bs 12 2

theorem parse_entryBytes {e : Entry} (fits : e.expiry < 65536) : parseEntry (entryBytes e) = e := by
  have key : fieldAt (entryBytes e) 0 8 = e.key.toNat := by
    rw [fieldAt, entryBytes, List.drop_zero, List.append_assoc, List.take_left' (leBytes_length 8 _),
      leNat_leBytes 8 _ e.key.isLt]
  have action : fieldAt (entryBytes e) 8 1 = e.action.toNat := by
    rw [fieldAt, entryBytes, List.append_assoc, List.drop_left' (leBytes_length 8 _)]
    exact Nat.add_zero _
  have reason : fieldAt (entryBytes e) 9 1 = e.reason.toNat := by
    rw [fieldAt, entryBytes, List.append_assoc, show 9 = 8 + 1 from rfl, ← List.drop_drop,
      List.drop_left' (leBytes_length 8 _)]
    exact Nat.add_zero _
  have expiry : fieldAt (entryBytes e) 10 2 = e.expiry := by
    rw [fieldAt, entryBytes, List.drop_left' (by simp [leBytes_length]), List.take_of_length_le (by simp [leBytes_length]),
      leNat_leBytes 2 _ fits]
  simp only [parseEntry, key, action, reason, expiry, BitVec.ofNat_toNat, BitVec.setWidth_eq]

theorem chunk_flatMap {e : Entry} (rest : List Byte) : ∀ {es : List Entry} {i : Nat}, es[i]? = some e →
    ((es.flatMap entryBytes ++ rest).drop (12 * i)).take 12 = entryBytes e
  | [], i, found => by simp at found
  | x :: xs, 0, found => by
    rw [List.getElem?_cons_zero, Option.some_inj] at found
    subst found
    rw [List.flatMap_cons, List.append_assoc, Nat.mul_zero, List.drop_zero, List.take_left' (entryBytes_length x)]
  | x :: xs, i + 1, found => by
    rw [List.getElem?_cons_succ] at found
    rw [List.flatMap_cons, List.append_assoc, Nat.mul_succ, Nat.add_comm, ← List.drop_drop,
      List.drop_left' (entryBytes_length x)]
    exact chunk_flatMap rest found

theorem flatMap_length (es : List Entry) : (es.flatMap entryBytes).length = 12 * es.length := by
  induction es with
  | nil => rfl
  | cons e es ih =>
    rw [List.flatMap_cons, List.length_append, entryBytes_length, ih, List.length_cons]
    omega

theorem bodyBytes_length {es : List Entry} (few : es.length ≤ 20) : (bodyBytes es).length = 240 := by
  rw [bodyBytes, List.length_append, flatMap_length, List.length_replicate, pageRoom]
  omega

/-! ### Reading entries -/

theorem readEntries_length (m : List Host.Cell) (base p k : Nat) : (readEntries m base p k).length = k := by
  simp [readEntries]

theorem readEntries_get (m : List Host.Cell) (base p : Nat) {k i : Nat} (inside : i < k) :
    (readEntries m base p k)[i]? = some (parseEntry (Memory.readBytes m (pageAddr base p + 16 + 12 * i) 12)) := by
  simp [readEntries, inside]

theorem readEntries_expiry {m : List Host.Cell} {base p k : Nat} {e : Entry} (among : e ∈ readEntries m base p k) :
    e.expiry < 65536 := by
  obtain ⟨i, -, rfl⟩ := List.mem_map.1 among
  exact parseEntry_expiry _

theorem readEntries_congr {m n : List Host.Cell} {base p k : Nat}
    (same : ∀ a, base + 256 * p + 16 ≤ a → a < base + 256 * p + 16 + 12 * k → Memory.read m a = Memory.read n a) :
    readEntries m base p k = readEntries n base p k := by
  refine List.map_congr_left fun i inside => ?_
  rw [List.mem_range] at inside
  refine congrArg parseEntry (Memory.readBytes_congr _ _ fun c low high => ?_)
  unfold pageAddr at low high
  exact same c (by omega) (by omega)

/-- The entries of a page are what its bytes are made of. -/
theorem readEntries_of_body {m : List Host.Cell} {base p : Nat} {es : List Entry} (few : es.length ≤ 20)
    (body : Memory.readBytes m (base + 256 * p + 16) 240 = bodyBytes es) (fits : ∀ e ∈ es, e.expiry < 65536) :
    readEntries m base p es.length = es := by
  refine List.ext_getElem? fun i => ?_
  by_cases inside : i < es.length
  · have found := List.getElem?_eq_getElem inside
    have chunk : Memory.readBytes m (base + 256 * p + 16 + 12 * i) 12 = entryBytes es[i] := by
      rw [← chunk_flatMap (List.replicate (12 * (pageRoom - es.length)) 0) found, ← bodyBytes, ← body,
        Memory.drop_readBytes, Memory.take_readBytes _ _ (by omega)]
    rw [readEntries_get m base p inside, pageAddr, chunk, parse_entryBytes (fits _ (List.getElem_mem inside)), found]
  · rw [List.getElem?_eq_none (by rw [readEntries_length]; omega), List.getElem?_eq_none (by omega)]

/-- The entry slots behind the entries of a page are zero. -/
theorem slots_of_body {m : List Host.Cell} {base p : Nat} {es : List Entry} (few : es.length ≤ 20)
    (body : Memory.readBytes m (base + 256 * p + 16) 240 = bodyBytes es) {k : Nat} (behind : es.length ≤ k) (inside : k < 20) :
    Memory.readBytes m (base + 256 * p + 16 + 12 * k) 12 = List.replicate 12 0 := by
  have zeros : (bodyBytes es).drop (12 * k) = List.replicate (12 * (20 - k)) 0 := by
    rw [bodyBytes, List.drop_append, List.drop_eq_nil_of_le (by rw [flatMap_length]; omega), flatMap_length,
      List.drop_replicate, List.nil_append, pageRoom]
    congr 1
    omega
  rw [← Memory.take_readBytes (n := 240 - 12 * k) _ _ (by omega), ← Memory.drop_readBytes, body, zeros, List.take_replicate]
  congr 1
  omega

/-! ### Writing entries -/

section
variable {m : List Host.Cell} {base p : Nat} {es : List Entry}

theorem writeEntries_body (wf : Memory.wf m = true) (few : es.length ≤ 20) :
    Memory.readBytes (writeEntries m base p es) (base + 256 * p + 16) 240 = bodyBytes es := by
  have whole := Memory.readBytes_writeBytes wf (pageAddr base p + 16) (bodyBytes es)
  rwa [bodyBytes_length few] at whole

theorem writeEntries_outside (few : es.length ≤ 20) {a : Nat}
    (outside : a < base + 256 * p + 16 ∨ base + 256 * p + 256 ≤ a) :
    Memory.read (writeEntries m base p es) a = Memory.read m a := by
  have size := bodyBytes_length few
  exact Memory.read_writeBytes_outside m _ _ (by unfold pageAddr; omega)

theorem readEntries_writeEntries (wf : Memory.wf m = true) (few : es.length ≤ 20) (fits : ∀ e ∈ es, e.expiry < 65536) :
    readEntries (writeEntries m base p es) base p es.length = es := readEntries_of_body few (writeEntries_body wf few) fits

end

/-! ### Headers -/

section
variable (m : List Host.Cell) (base p live : Nat) (stamp identity : Word)

theorem sealedPage_raw : (headerBytes p live stamp identity ++
    Memory.readBytes m (pageAddr base p + 16) 240).length = 256 := rawPage_length _ _ _ _ (Memory.readBytes_length _ _ _)

theorem sealedPage_length : (sealedPage m base p live stamp identity).length = 256 := by
  have raw := sealedPage_raw m base p live stamp identity
  rw [sealedPage, sealPage_length (by omega), raw]

theorem sealedPage_drop : (sealedPage m base p live stamp identity).drop 16 = Memory.readBytes m (pageAddr base p + 16) 240 := by
  have raw := sealedPage_raw m base p live stamp identity
  rw [sealedPage, sealPage_drop (by omega), List.drop_left' (headerBytes_length _ _ _ _)]

theorem headerCrc_eq : headerCrc m base p live stamp identity = pageCrc (sealedPage m base p live stamp identity) := by
  have raw := sealedPage_raw m base p live stamp identity
  rw [headerCrc, sealedPage, pageCrcField_sealPage (by omega), pageCrc_sealPage (by omega)]

theorem sealedPage_take : (sealedPage m base p live stamp identity).take 16 =
    leBytes 2 p ++ [BitVec.ofNat 8 live, 1] ++ leBytes 4 stamp.toNat ++ leBytes 4 identity.toNat ++
      leBytes 4 (pageCrc (sealedPage m base p live stamp identity)).toNat := by
  have raw := sealedPage_raw m base p live stamp identity
  have split : (sealedPage m base p live stamp identity).take 16 = (sealedPage m base p live stamp identity).take 12 ++
      ((sealedPage m base p live stamp identity).drop 12).take 4 := List.take_add (i := 12) (j := 4)
  rw [split, sealedPage, sealPage_crc (by omega), sealPage_take (by omega), pageCrc_sealPage (by omega),
    List.take_append_of_le_length (by rw [headerBytes_length]; omega), headerBytes_take]

variable {m base p live stamp identity}

/-- A page reads, its header written, as the sealed page. -/
theorem writeHeader_page (wf : Memory.wf m = true) :
    Memory.readBytes (writeHeader m base p live stamp identity) (base + 256 * p) 256 =
      sealedPage m base p live stamp identity := by
  have size : ((sealedPage m base p live stamp identity).take 16).length = 16 := by
    rw [List.length_take, sealedPage_length]
    rfl
  have head := Memory.readBytes_writeBytes wf (pageAddr base p) ((sealedPage m base p live stamp identity).take 16)
  have tail := Memory.readBytes_writeBytes_apart m (a := pageAddr base p) (x := pageAddr base p + 16) (n := 240)
    (bs := (sealedPage m base p live stamp identity).take 16) (.inr (by omega))
  rw [size] at head
  rw [Memory.readBytes_add _ (base + 256 * p) 240 16, ← List.take_append_drop 16 (sealedPage m base p live stamp identity)]
  exact congrArg₂ _ head (tail.trans (sealedPage_drop ..).symm)

theorem writeHeader_outside {a : Nat} (outside : a < base + 256 * p ∨ base + 256 * p + 16 ≤ a) :
    Memory.read (writeHeader m base p live stamp identity) a = Memory.read m a := by
  have size : ((sealedPage m base p live stamp identity).take 16).length = 16 := by
    rw [List.length_take, sealedPage_length]
    rfl
  exact Memory.read_writeBytes_outside m _ _ (by unfold pageAddr; omega)

end

end Sys2Proof.Machine

/-!
Pages brought up to a new G (R30): their stamps, headers and CRCs, in the stamp table and in shared memory.
-/
namespace Sys2Proof.Machine

/-- The page whose bytes are `page` shows a header for page `p` with `live` entries, and its own CRC (R8, R9). -/
def ShowsHeader (page : List Byte) (p live : Nat) (stamp identity : Word) : Prop :=
  page.take 16 = leBytes 2 p ++ [BitVec.ofNat 8 live, 1] ++ leBytes 4 stamp.toNat ++ leBytes 4 identity.toNat ++
    leBytes 4 (pageCrc page).toNat

/-- `t` is `s` with the pages `ps` of the live image brought up to G. -/
structure Brought (urgent : Bool) (ps : List Nat) (s t : State) : Prop where
  same : ∃ mem table digest, t = { s with mem := mem, change := { s.change with table := table, digest := digest } }
  wf : Memory.wf t.mem = true
  size : t.change.table.length = s.change.table.length
  others : ∀ (p : Nat) (r : StampRec), s.change.table[p]? = some r → p ∉ ps → t.change.table[p]? = some r
  brought : ∀ (p : Nat) (r : StampRec), s.change.table[p]? = some r → p ∈ ps →
    let page := Memory.readBytes t.mem (s.imageBase s.change.region + 256 * p) 256
    t.change.table[p]? = some
      { r with stamp := s.change.gen, hot := if urgent then s.change.gen else r.hot, crc := pageCrc page } ∧
    ShowsHeader page p r.live s.change.gen s.change.identity
  outside : ∀ a, (∀ p ∈ ps, a < s.imageBase s.change.region + 256 * p ∨ s.imageBase s.change.region + 256 * p + 16 ≤ a) →
    Memory.read t.mem a = Memory.read s.mem a

theorem brought_none (urgent : Bool) {s : State} (wf : Memory.wf s.mem = true) : Brought urgent [] s s where
  same := ⟨s.mem, s.change.table, s.change.digest, rfl⟩
  wf := wf
  size := rfl
  others _ _ here _ := here
  brought _ _ _ none := absurd none List.not_mem_nil
  outside _ _ := rfl

theorem bringUp_some {urgent : Bool} {p : Nat} {s : State} {r : StampRec} (here : s.change.table[p]? = some r) :
    bringUp urgent p s = { s with
      mem := writeHeader s.mem (s.imageBase s.change.region) p r.live s.change.gen s.change.identity
      change := { s.change with
        table := s.change.table.set p { r with
          stamp := s.change.gen, hot := if urgent then s.change.gen else r.hot
          crc := headerCrc s.mem (s.imageBase s.change.region) p r.live s.change.gen s.change.identity }
        digest := s.change.digest - r.crc +
          headerCrc s.mem (s.imageBase s.change.region) p r.live s.change.gen s.change.identity } } := by
  simp only [bringUp, here]

theorem brought_one (urgent : Bool) {p : Nat} {s : State} (wf : Memory.wf s.mem = true) (inside : p < s.change.table.length) :
    Brought urgent [p] s (bringUp urgent p s) := by
  have here : s.change.table[p]? = some s.change.table[p] := List.getElem?_eq_getElem inside
  have same := bringUp_eq urgent p s
  rw [bringUp_some here] at same ⊢
  generalize s.change.table[p] = r at here same
  have kept := writeHeader_wf wf (s.imageBase s.change.region) p r.live s.change.gen s.change.identity
  refine ⟨same, kept, List.length_set, fun q r' found other => ?_, fun q r' found own => ?_, fun a outside => ?_⟩
  · rw [List.mem_singleton] at other
    dsimp only
    rw [List.getElem?_set_ne (Ne.symm other)]
    exact found
  · rw [List.mem_singleton] at own
    subst own
    cases here.symm.trans found
    have page := writeHeader_page (base := s.imageBase s.change.region) (p := q) (live := r.live) (stamp := s.change.gen)
      (identity := s.change.identity) wf
    dsimp only
    rw [List.getElem?_set_self inside, page, headerCrc_eq]
    exact ⟨rfl, sealedPage_take ..⟩
  · have here := outside p List.mem_cons_self
    dsimp only
    exact writeHeader_outside here

/-- Bringing up more pages does not touch a page brought up already. -/
theorem Brought.cons {urgent : Bool} {p : Nat} {ps : List Nat} {s u t : State} (first : Brought urgent [p] s u)
    (rest : Brought urgent ps u t) : Brought urgent (p :: ps) s t := by
  have many := rest.same
  obtain ⟨mem, table, digest, rfl⟩ := first.same
  refine ⟨?_, rest.wf, rest.size.trans first.size, fun q r found other => ?_, fun q r found own => ?_, fun a outside => ?_⟩
  · obtain ⟨mem', table', digest', same⟩ := many
    exact ⟨mem', table', digest', same⟩
  · rw [List.mem_cons, not_or] at other
    exact rest.others q r (first.others q r found (by simpa using other.1)) other.2
  · by_cases later : q ∈ ps
    · by_cases here : q = p
      · obtain ⟨found', -⟩ := first.brought q r found (by simpa using here)
        obtain ⟨stamped, shows⟩ := rest.brought q _ found' later
        refine ⟨stamped.trans ?_, shows⟩
        cases urgent <;> rfl
      · exact rest.brought q r (first.others q r found (by simpa using here)) later
    · have here : q = p := (List.mem_cons.1 own).resolve_right later
      obtain ⟨found', shows⟩ := first.brought q r found (by simpa using here)
      have page : Memory.readBytes t.mem (s.imageBase s.change.region + 256 * q) 256 =
          Memory.readBytes mem (s.imageBase s.change.region + 256 * q) 256 := by
        refine Memory.readBytes_congr _ _ fun c low high => rest.outside c fun k among => ?_
        have other : k ≠ q := fun same => later (same ▸ among)
        change c < s.imageBase s.change.region + 256 * k ∨ s.imageBase s.change.region + 256 * k + 16 ≤ c
        omega
      rw [page]
      exact ⟨rest.others q _ found' later, shows⟩
  · exact (rest.outside a fun k among => outside k (List.mem_cons_of_mem _ among)).trans
      (first.outside a fun k own => outside k (by simp [List.mem_singleton.1 own]))

theorem brought_all (urgent : Bool) : ∀ {ps : List Nat} {s : State}, Memory.wf s.mem = true →
    (∀ p ∈ ps, p < s.change.table.length) → Brought urgent ps s (bringUpAll urgent ps s)
  | [], s, wf, _ => brought_none urgent wf
  | p :: ps, s, wf, inside => by
    have first := brought_one urgent wf (inside p List.mem_cons_self)
    have step : bringUpAll urgent (p :: ps) s = bringUpAll urgent ps (bringUp urgent p s) := rfl
    rw [step]
    exact first.cons (brought_all urgent first.wf fun q among => by
      rw [first.size]
      exact inside q (List.mem_cons_of_mem _ among))

/-! ### The image stops changing -/

/-- R175: a sweep record once its held CHECK REPORT has been compared with the stamp table. -/
def Sweep.compared (table : List StampRec) (w : Sweep) : Sweep :=
  match w.held with
  | some h => { w with list := w.list ++ differing table h.first h.crcs, cursor := h.first + h.crcs.length, held := none }
  | none => w

/-- The held CHECK REPORT of slot `n`, if any, compared. -/
def compareAt (n : Fin 24) (s : State) : State :=
  match (s.sweep n).held with
  | some h => compareReport n h s
  | none => s

theorem compareAt_sweep (n k : Fin 24) (s : State) :
    (compareAt n s).sweep k = (if n = k then (s.sweep n).compared s.change.table else s.sweep k) ∧
    (compareAt n s).change = s.change := by
  unfold compareAt Sweep.compared
  cases held : (s.sweep n).held with
  | some h =>
    refine ⟨?_, compareReport_change s n h⟩
    by_cases here : n = k
    · subst here
      rw [if_pos rfl]
      exact compareReport_sweep n h s
    · rw [if_neg here]
      dsimp only
      rw [compareReport, State.setSweep_sweep, if_neg here]
  | none =>
    refine ⟨?_, rfl⟩
    by_cases here : n = k
    · rw [if_pos here, here]
    · rw [if_neg here]

theorem compareHeld_slots (s : State) : compareHeld s = forSlots compareAt allSlots s := by
  refine congrArg (fun f => forSlots f allSlots s) (funext fun n => funext fun s => ?_)
  unfold compareAt
  cases (s.sweep n).held <;> rfl

theorem compareHeld_sweep (s : State) (k : Fin 24) : (compareHeld s).sweep k = (s.sweep k).compared s.change.table := by
  have both := forSlots_own (f := compareAt) (get := fun s n => (s.sweep n, s.change.table))
    (g := fun _ (x : Sweep × List StampRec) => (x.1.compared x.2, x.2)) (fun n s k => by
      obtain ⟨sweep, change⟩ := compareAt_sweep n k s
      rw [sweep, change]
      split <;> rfl) s k
  simp only [Prod.mk.injEq] at both
  rw [compareHeld_slots]
  exact both.1

theorem compareHeld_eq (s : State) : ∃ x, compareHeld s = { s with sweeps := x } := by
  refine foldl_holds (P := fun t : State => ∃ x, t = { s with sweeps := x }) ?_ _ ⟨s.sweeps, rfl⟩
  rintro t n ⟨x, rfl⟩
  dsimp only
  split
  · exact ⟨_, rfl⟩
  · exact ⟨x, rfl⟩

theorem reevaluateAll_eq (s : State) : ∃ x, reevaluateAll s = { s with roster := x } := by
  refine foldl_holds (P := fun t : State => ∃ x, t = { s with roster := x }) ?_ _ ⟨s.roster, rfl⟩
  rintro t n ⟨x, rfl⟩
  obtain ⟨y, same⟩ := reevaluate_eq n { s with roster := x }
  exact ⟨y, same⟩

theorem imageSettled_eq (s : State) : ∃ x y, imageSettled s =
    { s with change := { s.change with changing := false }, roster := x, sweeps := y } := by
  obtain ⟨y, compared⟩ := compareHeld_eq { s with change := { s.change with changing := false } }
  obtain ⟨x, judged⟩ := reevaluateAll_eq { s with change := { s.change with changing := false }, sweeps := y }
  rw [imageSettled, compared, judged]
  exact ⟨x, y, rfl⟩

theorem imageSettled_sweep (s : State) (k : Fin 24) : (imageSettled s).sweep k = (s.sweep k).compared s.change.table := by
  obtain ⟨-, -, -, sweeps⟩ := reevaluateAll_keeps (compareHeld { s with change := { s.change with changing := false } })
  rw [imageSettled, State.sweep, sweeps]
  exact compareHeld_sweep { s with change := { s.change with changing := false } } k

theorem imageSettled_slot (s : State) (k : Fin 24) :
    (imageSettled s).slot k = (s.slot k).judged { s.change with changing := false } s.editions := by
  obtain ⟨y, compared⟩ := compareHeld_eq { s with change := { s.change with changing := false } }
  rw [imageSettled, compared, reevaluateAll_slot]
  rfl

/-- A slot that records no H above the G before is not CURRENT at the next G (R30, R76). -/
theorem judged_raised {c : ChangeEngine} {e : EditionMgr} {v : Slot} {g : Word} (gen : c.gen = g + 1)
    (low : g < Config.spentG) (bound : v.heldId = c.identity → v.heldH ≤ g) :
    (v.judged c e).state = if v.state = .current then .behind else v.state := by
  have stale : v.upToDate c e = false := by
    by_contra matches'
    rw [Bool.not_eq_false] at matches'
    simp only [Slot.upToDate, Bool.and_eq_true, decide_eq_true_iff] at matches'
    obtain ⟨⟨⟨⟨⟨⟨⟨identity, same⟩, -⟩, -⟩, -⟩, -⟩, -⟩, -⟩ := matches'
    have bound := bound identity
    rw [same, gen] at bound
    have small : Config.spentG.toNat = 4294967040 := rfl
    bv_omega
  unfold Slot.judged
  cases state : v.state <;> simp [stale, state]

/-! ### The pages of a priority batch (R150) -/

theorem insertPage_ascending (p : Nat) : ∀ {qs : List Nat}, qs.Pairwise (· < ·) → (insertPage p qs).Pairwise (· < ·)
  | [], _ => by simp [insertPage]
  | q :: qs, sorted => by
    obtain ⟨head, tail⟩ := List.pairwise_cons.1 sorted
    unfold insertPage
    split_ifs with low same
    · refine List.pairwise_cons.2 ⟨fun x among => ?_, sorted⟩
      rcases List.mem_cons.1 among with rfl | among
      · exact low
      · exact low.trans (head x among)
    · exact sorted
    · refine List.pairwise_cons.2 ⟨fun x among => ?_, insertPage_ascending p tail⟩
      rcases (mem_insertPage qs).1 among with rfl | among
      · omega
      · exact head x among

theorem mergePages_ascending : ∀ (ps : List Nat) {qs : List Nat}, qs.Pairwise (· < ·) → (mergePages ps qs).Pairwise (· < ·)
  | [], _, sorted => sorted
  | p :: ps, _, sorted => mergePages_ascending ps (insertPage_ascending p sorted)

theorem insertUrgent_delivery {s : State} {n : Fin 24} {d : Delivery} (ps : List Nat) (has : s.delivery n = some d)
    (update : d.mode = .delta ∨ d.mode = .reload) : (insertUrgent ps s).delivery n =
      some (if d.phase = .closing then { d with late := mergePages ps d.late } else d.insert ps) := by
  have has : s.sched.deliveries[n.val] = some d := has
  simp only [insertUrgent, State.delivery, Fin.getElem_fin, Vector.getElem_map, has, Option.map_some, Option.some.injEq]
  rcases update with mode | mode <;> cases phase : d.phase <;> simp [mode]

theorem insert_inFlight (ps : List Nat) (d : Delivery) :
    (d.insert ps).inFlight = d.inFlight.filter fun p => !ps.contains p := by
  cases flight : d.inFlight with
  | none => simp [Delivery.insert, flight]
  | some p =>
    simp only [Delivery.insert, flight, Option.filter, Bool.not_eq_true']
    by_cases among : ps.contains p = true
    · rw [if_pos among, if_neg (by simpa using among)]
    · rw [if_neg among, if_pos (by simpa using among)]

/-! ### The end of a batch that changed a page -/

theorem endBatch_waits {s : State} {b : Batch} (healthy : s.isFaulted = false) (dirty : b.changed ≠ []) :
    ∃ report, endBatch b s = { batchOver s with report := report } ∧ report.wanted[summaryRec] = true ∧
      report.waiting = s.report.waiting ++ (if b.anyFull then [⟨[summaryRec], .notice .saturated⟩] else []) ++
        [⟨[summaryRec], .outcome b.strip b.result⟩] := by
  have ends : endBatch b s = completeAfterSummary b.strip b.result
      (if b.anyFull then raiseAfter .saturated [summaryRec] (batchOver s) else batchOver s) :=
    if_neg fun clean => dirty clean.1
  rw [ends]
  cases b.anyFull with
  | true =>
    have raised := raiseAfter_summary .saturated (s := batchOver s) healthy
    rw [if_pos rfl, if_pos rfl, raised]
    exact ⟨_, rfl, completeAfterSummary_wanted .., rfl⟩
  | false =>
    rw [if_neg (by decide), if_neg (by decide), List.append_nil]
    exact ⟨_, rfl, completeAfterSummary_wanted .., rfl⟩

/-- The pages of batch `b` brought up, and the other blocks told (R30, R150, R175). -/
def State.stampBatch (s : State) (b : Batch) : State :=
  let u := imageSettled (bringUpAll (decide (b.strip = .priority)) b.changed (raiseG s))
  if b.strip = .priority then insertUrgent b.changed u else u

theorem exec_batchEnd {s : State} {b : Batch} (high : s.resetLow = false) (work : s.working = true)
    (has : s.change.batch = some b) (last : b.next = b.count) (dirty : b.changed ≠ []) :
    exec .batchEnd s = .next (settle s (boundaries (endBatch b (s.stampBatch b)))) := by
  have step : exec .batchEnd s = execBatchEnd s := rfl
  rw [step, execBatchEnd, scheduled_next high]
  simp only [has, work, last, dirty, State.stampBatch, decide_true, Bool.and_self, if_true, ne_eq, not_false_eq_true,
    decide_eq_true_iff]

/-- What the pages brought up in `u`, and the other blocks told of them, leave of `s`. -/
structure BatchStamped (s : State) (b : Batch) (u x : State) : Prop where
  change : x.change = { u.change with changing := false }
  mem : x.mem = u.mem
  ports : x.ports = s.ports
  engine : x.engine = s.engine
  slot : ∀ n, x.slot n = (s.slot n).judged x.change s.editions
  sweep : ∀ n, x.sweep n = (s.sweep n).compared u.change.table
  sched : x.sched = (if b.strip = .priority then insertUrgent b.changed s else s).sched
  report : x.report = s.report

theorem batchStamped {s u : State} {b : Batch} (pages : u = bringUpAll (decide (b.strip = .priority)) b.changed (raiseG s))
    (same : ∃ mem table digest, u = { raiseG s with
      mem := mem, change := { (raiseG s).change with table := table, digest := digest } }) :
    BatchStamped s b u (s.stampBatch b) := by
  have slot := imageSettled_slot u
  have sweep := imageSettled_sweep u
  obtain ⟨roster, sweeps, settledEq⟩ := imageSettled_eq u
  rw [State.stampBatch, ← pages]
  rw [settledEq] at slot sweep ⊢
  obtain ⟨mem, table, digest, rfl⟩ := same
  clear pages settledEq
  dsimp only
  split
  · next urgent =>
    have sched : (if b.strip = .priority then insertUrgent b.changed s else s).sched = (insertUrgent b.changed s).sched := by
      rw [if_pos urgent]
    exact ⟨rfl, rfl, rfl, rfl, slot, sweep, sched.symm, rfl⟩
  · next routine =>
    have sched : (if b.strip = .priority then insertUrgent b.changed s else s).sched = s.sched := by
      rw [if_neg routine]
    exact ⟨rfl, rfl, rfl, rfl, slot, sweep, sched.symm, rfl⟩

theorem portReady_of_ports {s u : State} (engine : u.engine = s.engine) (ports : u.ports = s.ports)
    (none : ∀ l, s.portReady l = false) (l : Fin 4) : u.portReady l = false := (portReady_congr engine ports l).trans (none l)

/-- The comparison as the statements about the end of a change have it (R175). -/
theorem heldCompared {s x t : State} (sweep : ∀ n, x.sweep n = (s.sweep n).compared x.change.table)
    (change : t.change = x.change) (engine : x.engine = s.engine) (ports : x.ports = s.ports)
    (quiet : (∀ l, x.portReady l = false) → t.sweeps = x.sweeps) : HeldCompared s t := by
  intro none n
  have same : t.sweep n = x.sweep n :=
    congrArg (fun v : Vector Sweep 24 => v[n]) (quiet (portReady_of_ports engine ports none))
  rw [same, sweep n, change]
  refine ⟨fun rests => by rw [Sweep.compared, rests], fun h held => ?_⟩
  refine ⟨differing x.change.table h.first h.crcs, differing_ascending _ _ _, by rw [Sweep.compared, held], fun p => ?_⟩
  rw [mem_differing]
  constructor
  · rintro ⟨i, inside, rfl, other⟩
    refine ⟨i, h.crcs[i], List.getElem?_eq_getElem inside, rfl, ?_⟩
    rwa [← List.getElem?_eq_getElem inside]
  · rintro ⟨i, c, found, rfl, other⟩
    obtain ⟨inside, -⟩ := List.getElem?_eq_some_iff.1 found
    exact ⟨i, inside, rfl, found ▸ other⟩

/-- What the end of a batch leaves at the end of its step. -/
structure BatchClosed (s : State) (b : Batch) (u t : State) : Prop where
  change : t.change = { u.change with changing := false, batch := none }
  mem : t.mem = u.mem
  held : HeldCompared s t
  slot : ∀ n, t.slot n = (s.slot n).judged u.change s.editions
  delivery : ∀ n d, s.delivery n = some d → d.mode = .delta ∨ d.mode = .reload →
    t.delivery n = (if b.strip = .priority then insertUrgent b.changed s else s).delivery n
  quiet : (∀ l, s.portReady l = false) → t.sched = (if b.strip = .priority then insertUrgent b.changed s else s).sched
  wanted : t.report.wanted[summaryRec] = true
  waiting : t.report.waiting = s.report.waiting ++ (if b.anyFull then [⟨[summaryRec], .notice .saturated⟩] else []) ++
    [⟨[summaryRec], .outcome b.strip b.result⟩]

theorem batchClosed {s u : State} {b : Batch} (healthy : s.isFaulted = false) (dirty : b.changed ≠ [])
    (stamped : BatchStamped s b u (s.stampBatch b)) :
    BatchClosed s b u (settle s (boundaries (endBatch b (s.stampBatch b)))) := by
  generalize s.stampBatch b = w at stamped ⊢
  obtain ⟨change, mem, ports, engine, slot, sweep, sched, report⟩ := stamped
  obtain ⟨now, ends, wanted, waiting⟩ := endBatch_waits ((isFaulted_of_engine engine).trans healthy) dirty
  have later := later_boundaries s (endBatch b w)
  have settled := settled_boundaries s (endBatch b w)
  generalize settle s (boundaries (endBatch b w)) = t at later settled ⊢
  rw [ends] at later settled
  have sameChange : t.change = { u.change with changing := false, batch := none } := by
    rw [settled.change]
    exact congrArg (fun c : ChangeEngine => { c with batch := none }) change
  refine ⟨sameChange, settled.mem.trans mem, ?_, fun n => ?_, fun n d has update => ?_, fun none => ?_, ?_, ?_⟩
  · refine heldCompared (x := { batchOver w with report := now }) (fun n => (sweep n).trans ?_) settled.change engine ports
      fun none => (settled.quiet none).2.1
    have table : w.change.table = u.change.table := by rw [change]
    exact congrArg (fun table => (s.sweep n).compared table) table.symm
  · rw [later.slot]
    refine (slot n).trans ?_
    rw [change]
    rfl
  · have same : w.delivery n = (if b.strip = .priority then insertUrgent b.changed s else s).delivery n :=
      congrArg (fun x : Sched => x.deliveries[n]) sched
    have there : ∃ d', w.delivery n = some d' ∧ (d'.mode = .delta ∨ d'.mode = .reload) := by
      rw [same]
      split
      · refine ⟨_, insertUrgent_delivery b.changed has update, ?_⟩
        split <;> exact update
      · exact ⟨d, has, update⟩
    obtain ⟨d', has', update'⟩ := there
    obtain ⟨kept, -⟩ := later.book_of_update (n := n) (d := d') has' update'
    exact kept.trans same
  · obtain ⟨quiet, -⟩ := settled.quiet (portReady_of_ports engine ports none)
    exact quiet.trans sched
  · exact settled.wanted _ wanted
  · rw [settled.waiting]
    exact waiting.trans (by rw [report])

/-- Settles O22: the pages are brought up, the image stops changing, and the open deliveries take the urgent pages. -/
theorem batchEndStampsChangedPages : Obligations.BatchEndStampsChangedPages := by
  unfold Obligations.BatchEndStampsChangedPages
  intro s b high work wf has last dirty inside few g base
  have brought := brought_all (decide (b.strip = .priority)) (s := raiseG s) wf inside
  have digest := bringUpAll_digestOk (decide (b.strip = .priority)) b.changed (s := raiseG s)
  have closed := batchClosed (not_isFaulted_of_working work) dirty (batchStamped rfl brought.same)
  refine ⟨_, exec_batchEnd high work has last dirty, ?_⟩
  generalize settle s (boundaries (endBatch b (s.stampBatch b))) = t at closed ⊢
  generalize bringUpAll (decide (b.strip = .priority)) b.changed (raiseG s) = u at brought digest closed
  obtain ⟨change, mem, held, slot, delivery, quiet, wanted, waiting⟩ := closed
  obtain ⟨same, -, -, others, brought, outside⟩ := brought
  have head : u.change.gen = g ∧ u.change.identity = s.change.identity := by
    obtain ⟨_, _, _, rfl⟩ := same
    exact ⟨rfl, rfl⟩
  obtain ⟨gen, identity⟩ := head
  refine ⟨by rw [change, ← gen], by rw [change], by rw [change], fun p r found other => ?_, fun p r found among => ?_,
    fun a apart => ?_, fun ok => ?_, wanted, held, fun ok low n => ?_, fun n d open' update => ⟨fun routine => ?_, fun urgent => ?_⟩,
    fun urgent none => ?_, ?_⟩
  · rw [change]
    exact others p r found other
  · obtain ⟨stamped, shows⟩ := brought p r found among
    simp only [decide_eq_true_iff] at stamped
    rw [change, mem]
    exact ⟨stamped, shows⟩
  · rw [mem]
    exact outside a apart
  · rw [State.digestOk, change]
    exact digest ok
  · rw [slot]
    exact judged_raised gen low fun same => ok n (same.trans identity)
  · rw [delivery n d open' update, if_neg (by rw [routine]; decide), open']
  · rw [delivery n d open' update, if_pos urgent, insertUrgent_delivery b.changed open' update]
    refine ⟨_, rfl, fun closing => ?_, fun opened => ?_⟩
    · rw [if_pos closing]
      exact ⟨rfl, fun p => mem_mergePages _ _⟩
    · rw [if_neg opened]
      refine ⟨?_, fun p => mem_mergePages _ _, mergePages_ascending _⟩
      rw [← insert_inFlight]
      rfl
  · rw [quiet none, if_pos urgent]
    rfl
  · rw [waiting, Batch.result_eq]

end Sys2Proof.Machine

/-!
The purge job (R37): the entries it takes out of each page, and the pages it brings up.
-/
namespace Sys2Proof.Machine

/-! ### The pages purged -/

/-- The live entries of page `p` as they stand. -/
def State.entriesAt (s : State) (p : Nat) : List Entry :=
  readEntries s.mem (s.imageBase s.change.region) p (liveCount s.change.table p)

/-- The live entries of page `p` that a purge before day `sd` leaves. -/
def State.keptAt (s : State) (sd p : Nat) : List Entry := (s.entriesAt p).filter fun e => !e.expiredBefore sd

theorem liveCount_some {table : List StampRec} {p : Nat} {r : StampRec} (here : table[p]? = some r) :
    liveCount table p = r.live := by simp [liveCount, here]

theorem entriesAt_length (s : State) (p : Nat) : (s.entriesAt p).length = liveCount s.change.table p := readEntries_length ..

theorem keptAt_length_le (s : State) (sd p : Nat) : (s.keptAt sd p).length ≤ liveCount s.change.table p :=
  (List.length_filter_le _ _).trans (le_of_eq (entriesAt_length s p))

theorem keptAt_expiry {s : State} {sd p : Nat} : ∀ e ∈ s.keptAt sd p, e.expiry < 65536 := fun _ among =>
  readEntries_expiry (List.mem_of_mem_filter among)

theorem keptAt_eq_iff (s : State) (sd p : Nat) : s.keptAt sd p = s.entriesAt p ↔ (s.keptAt sd p).length = (s.entriesAt p).length :=
  ⟨congrArg List.length, fun same => List.Sublist.eq_of_length List.filter_sublist same⟩

/-- `x` is `s` with the pages below `n` purged, and the list of those that lost an entry. -/
structure Purged (sd : Nat) (s : State) (n : Nat) (x : State × List Nat) : Prop where
  same : ∃ mem table changing, x.1 = { s with
    mem := mem, change := { s.change with table := table, changing := changing } }
  wf : Memory.wf x.1.mem = true
  size : x.1.change.table.length = s.change.table.length
  table : ∀ (p : Nat) (r : StampRec), s.change.table[p]? = some r →
    x.1.change.table[p]? = some (if p < n then { r with live := (s.keptAt sd p).length } else r)
  listed : ∀ p, p ∈ x.2 ↔ p < n ∧ s.keptAt sd p ≠ s.entriesAt p
  entries : ∀ p, p < n → readEntries x.1.mem (s.imageBase s.change.region) p (s.keptAt sd p).length = s.keptAt sd p
  outside : ∀ a, (∀ p ∈ x.2, a < s.imageBase s.change.region + 256 * p + 16 ∨
      s.imageBase s.change.region + 256 * p + 256 ≤ a) → Memory.read x.1.mem a = Memory.read s.mem a
  none : x.2 = [] → x.1 = s

theorem purged_zero (sd : Nat) {s : State} (wf : Memory.wf s.mem = true) : Purged sd s 0 (s, []) where
  same := ⟨s.mem, s.change.table, s.change.changing, rfl⟩
  wf := wf
  size := rfl
  table p r here := by rw [if_neg (by omega)]; exact here
  listed p := by simp
  entries p low := by omega
  outside _ _ := rfl
  none _ := rfl

/-- A page whose purge has not begun reads as before. -/
theorem Purged.entriesAt {sd n : Nat} {s : State} {x : State × List Nat} (purged : Purged sd s n x) {p : Nat} (later : n ≤ p)
    (inside : p < s.change.table.length) (few : liveCount s.change.table p ≤ 20) : x.1.entriesAt p = s.entriesAt p := by
  have here := List.getElem?_eq_getElem inside
  have table := purged.table p _ here
  rw [if_neg (by omega)] at table
  have live : liveCount x.1.change.table p = liveCount s.change.table p := by rw [liveCount_some table, liveCount_some here]
  have base : x.1.imageBase x.1.change.region = s.imageBase s.change.region := by
    obtain ⟨_, _, _, same⟩ := purged.same
    rw [same]
    rfl
  rw [State.entriesAt, State.entriesAt, live, base]
  refine readEntries_congr fun a low high => purged.outside a fun q among => ?_
  obtain ⟨below, -⟩ := (purged.listed q).1 among
  omega

theorem purgePage_eq (sd p : Nat) (x : State × List Nat) : purgePage sd p x =
    if x.1.keptAt sd p = x.1.entriesAt p then x
    else ({ x.1 with
        mem := writeEntries x.1.mem (x.1.imageBase x.1.change.region) p (x.1.keptAt sd p)
        change := { x.1.change with table := setLive x.1.change.table p (x.1.keptAt sd p).length, changing := true } },
      x.2 ++ [p]) := by
  simp only [keptAt_eq_iff]
  rfl

theorem setLive_some {table : List StampRec} {p : Nat} {r : StampRec} (here : table[p]? = some r) (k : Nat) :
    setLive table p k = table.set p { r with live := k } := by simp only [setLive, here]

theorem Purged.step {sd n : Nat} {s : State} {x : State × List Nat} (purged : Purged sd s n x)
    (inside : n < s.change.table.length) (few : ∀ p, liveCount s.change.table p ≤ 20) :
    Purged sd s (n + 1) (purgePage sd n x) := by
  have read := purged.entriesAt (Nat.le_refl n) inside (few n)
  have kept : x.1.keptAt sd n = s.keptAt sd n := by rw [State.keptAt, read, State.keptAt]
  have short : (s.keptAt sd n).length ≤ 20 := (keptAt_length_le s sd n).trans (few n)
  have base : x.1.imageBase x.1.change.region = s.imageBase s.change.region := by
    obtain ⟨_, _, _, same⟩ := purged.same
    rw [same]
    rfl
  have here := List.getElem?_eq_getElem inside
  have found := purged.table n _ here
  rw [if_neg (Nat.lt_irrefl n)] at found
  generalize s.change.table[n] = r at here found
  have upTo (p : Nat) : p < n + 1 ↔ p < n ∨ p = n := by omega
  rw [purgePage_eq, read, kept, base]
  split
  · next full =>
    have live : (s.keptAt sd n).length = r.live := by rw [full, entriesAt_length, liveCount_some here]
    refine ⟨purged.same, purged.wf, purged.size, fun p r' there => ?_, fun p => ?_, fun p below => ?_, purged.outside, purged.none⟩
    · rw [purged.table p r' there]
      by_cases at' : p = n
      · subst at'
        cases there.symm.trans here
        rw [if_neg (Nat.lt_irrefl p), if_pos (Nat.lt_succ_self p), live]
      · simp only [upTo, at', or_false]
    · rw [purged.listed, upTo, or_and_right, iff_self_or]
      rintro ⟨rfl, lost⟩
      exact absurd full lost
    · rcases (upTo p).1 below with below | rfl
      · exact purged.entries p below
      · rw [live, full, ← read, State.entriesAt, base, liveCount_some found]
  · next lost =>
    have wf := writeEntries_wf purged.wf (s.imageBase s.change.region) n (s.keptAt sd n)
    refine ⟨?_, wf, ?_, fun p r' there => ?_, fun p => ?_, fun p below => ?_, fun a outside => ?_, ?_⟩
    · obtain ⟨_, _, _, same⟩ := purged.same
      rw [same]
      exact ⟨_, _, _, rfl⟩
    · dsimp only
      rw [setLive_some found, List.length_set, purged.size]
    · dsimp only
      rw [setLive_some found]
      by_cases at' : p = n
      · subst at'
        cases there.symm.trans here
        rw [if_pos (Nat.lt_succ_self p), List.getElem?_set_self (by rw [purged.size]; exact inside)]
      · rw [List.getElem?_set_ne (Ne.symm at'), purged.table p r' there]
        simp only [upTo, at', or_false]
    · rw [List.mem_append, List.mem_singleton, purged.listed, upTo, or_and_right]
      exact or_congr_right ⟨fun at' => ⟨at', at' ▸ lost⟩, And.left⟩
    · rcases (upTo p).1 below with earlier | rfl
      · have kept' : (s.keptAt sd p).length ≤ 20 := (keptAt_length_le s sd p).trans (few p)
        refine (readEntries_congr fun a low high => ?_).trans (purged.entries p earlier)
        exact writeEntries_outside short (by omega)
      · exact readEntries_writeEntries purged.wf short keptAt_expiry
    · have apart := outside n (List.mem_append_right _ (List.mem_singleton_self n))
      refine (writeEntries_outside short apart).trans (purged.outside a fun p among => ?_)
      exact outside p (List.mem_append_left _ among)
    · intro empty
      exact absurd empty (List.append_ne_nil_of_right_ne_nil _ (List.cons_ne_nil n []))

theorem purged_pages {sd : Nat} {s : State} (wf : Memory.wf s.mem = true) (few : ∀ p, liveCount s.change.table p ≤ 20) :
    ∀ n, n ≤ s.change.table.length → Purged sd s n ((List.range n).foldl (fun x p => purgePage sd p x) (s, []))
  | 0, _ => purged_zero sd wf
  | n + 1, inside => by
    rw [List.range_succ, List.foldl_append]
    exact (purged_pages wf few n (by omega)).step inside few

/-! ### The purge job -/

/-- What a purge before day `sd` of a part in state `s` leaves of the live image, as `w` has it. -/
structure PurgeLeft (sd : Nat) (s w : State) : Prop where
  entries : ∀ p, p < s.change.table.length →
    readEntries w.mem (s.imageBase s.change.region) p (s.keptAt sd p).length = s.keptAt sd p
  table : ∀ (p : Nat) (r : StampRec), s.change.table[p]? = some r → w.change.table[p]? = some
    (if s.keptAt sd p = s.entriesAt p then r
     else { r with
       live := (s.keptAt sd p).length, stamp := s.change.gen + 1
       crc := pageCrc (Memory.readBytes w.mem (s.imageBase s.change.region + 256 * p) 256) })
  shows : ∀ p, p < s.change.table.length → s.keptAt sd p ≠ s.entriesAt p →
    ShowsHeader (Memory.readBytes w.mem (s.imageBase s.change.region + 256 * p) 256) p (s.keptAt sd p).length
      (s.change.gen + 1) s.change.identity
  outside : ∀ a, (a < s.imageBase s.change.region ∨
    s.imageBase s.change.region + 256 * s.change.table.length ≤ a) → Memory.read w.mem a = Memory.read s.mem a

/-- The record of a page from which a purge took nothing. -/
theorem Purged.record {sd n : Nat} {s : State} {x : State × List Nat} (purged : Purged sd s n x) {p : Nat} {r : StampRec}
    (here : s.change.table[p]? = some r) (below : p < n) :
    x.1.change.table[p]? = some { r with live := (s.keptAt sd p).length } := by
  rw [purged.table p r here, if_pos below]

theorem live_of_kept {sd p : Nat} {s : State} {r : StampRec} (here : s.change.table[p]? = some r)
    (full : s.keptAt sd p = s.entriesAt p) : { r with live := (s.keptAt sd p).length } = r := by
  rw [full, entriesAt_length, liveCount_some here]

theorem Purged.left_none {sd : Nat} {s : State} {x : State × List Nat} (purged : Purged sd s s.change.table.length x)
    (none : x.2 = []) : PurgeLeft sd s x.1 := by
  have full (p : Nat) (inside : p < s.change.table.length) : s.keptAt sd p = s.entriesAt p := by
    by_contra lost
    have listed := (purged.listed p).2 ⟨inside, lost⟩
    rw [none] at listed
    cases listed
  refine ⟨purged.entries, fun p r here => ?_, fun p inside lost => absurd (full p inside) lost, fun a _ => ?_⟩
  · obtain ⟨inside, -⟩ := List.getElem?_eq_some_iff.1 here
    rw [purged.record here inside, live_of_kept here (full p inside), if_pos (full p inside)]
  · exact purged.outside a fun p among => by rw [none] at among; cases among

theorem Purged.left_some {sd : Nat} {s w : State} {x : State × List Nat} (purged : Purged sd s s.change.table.length x)
    (few : ∀ p, liveCount s.change.table p ≤ 20) (brought : Brought false x.2 (raiseG x.1) w) : PurgeLeft sd s w := by
  obtain ⟨same, -, -, table, listed, entries, outside, -⟩ := purged
  obtain ⟨-, -, -, others, brought, headers⟩ := brought
  have base : (raiseG x.1).imageBase (raiseG x.1).change.region = s.imageBase s.change.region := by
    obtain ⟨_, _, _, same⟩ := same
    rw [same]
    rfl
  have head : (raiseG x.1).change.gen = s.change.gen + 1 ∧ (raiseG x.1).change.identity = s.change.identity := by
    obtain ⟨_, _, _, same⟩ := same
    rw [same]
    exact ⟨rfl, rfl⟩
  rw [base] at brought headers
  rw [head.1, head.2] at brought
  have record (p : Nat) (r : StampRec) (here : s.change.table[p]? = some r) :
      (raiseG x.1).change.table[p]? = some { r with live := (s.keptAt sd p).length } := by
    obtain ⟨inside, -⟩ := List.getElem?_eq_some_iff.1 here
    exact (table p r here).trans (by rw [if_pos inside])
  refine ⟨fun p inside => ?_, fun p r here => ?_, fun p inside lost => ?_, fun a apart => ?_⟩
  · have short := (keptAt_length_le s sd p).trans (few p)
    refine (readEntries_congr fun a low high => headers a fun q among => ?_).trans (entries p inside)
    omega
  · obtain ⟨inside, -⟩ := List.getElem?_eq_some_iff.1 here
    split
    · next full =>
      rw [← live_of_kept here full]
      exact others p _ (record p r here) fun among => absurd full ((listed p).1 among).2
    · next lost => exact (brought p _ (record p r here) ((listed p).2 ⟨inside, lost⟩)).1
  · have here := List.getElem?_eq_getElem inside
    exact (brought p _ (record p _ here) ((listed p).2 ⟨inside, lost⟩)).2
  · refine (headers a fun p among => ?_).trans (outside a fun p among => ?_)
    · have := ((listed p).1 among).1
      omega
    · have := ((listed p).1 among).1
      omega

theorem takePurge_base (s : State) (r : Region) : (takePurge s).imageBase r = s.imageBase r := by
  have desc : (takePurge s).desc = s.desc := by
    have descriptor : (takePurge s).exch.descriptor = s.exch.descriptor := congrArg Spine.descriptor (takePurge_spine s)
    rw [State.desc, descriptor, State.desc]
  cases r
  · exact congrArg Descriptor.imageA desc
  · exact congrArg Descriptor.imageB desc

theorem takePurge_entriesAt (s : State) (p : Nat) : (takePurge s).entriesAt p = s.entriesAt p := by
  rw [State.entriesAt, takePurge_base, takePurge_mem, takePurge_change]
  rfl

theorem exec_purgeJob {s : State} (high : s.resetLow = false) (may : s.mayPurge = true) :
    exec .purgeJob s = .next (settle s (boundaries (purge s))) := by
  have step : exec .purgeJob s = scheduled s fun s => if s.mayPurge then purge s else s := rfl
  rw [step, scheduled_next high, if_pos may]

/-- The purge of the pages of a part that has left the holder. -/
def State.purged (s : State) : State × List Nat := purgePages s.clock.serviceDay s.change.pages s

theorem purge_eq {s : State} (unspent : s.spent = false) : purge s =
    if (takePurge s).purged.2 = [] then (takePurge s).purged.1
    else want summaryRec (imageSettled (bringUpAll false (takePurge s).purged.2 (raiseG (takePurge s).purged.1))) := by
  have still : (takePurge s).spent = false := by rw [State.spent, takePurge_change]; exact unspent
  rw [purge]
  simp only [still, Bool.false_eq_true, if_false]
  change (match (takePurge s).purged.2 with
    | [] => (takePurge s).purged.1
    | _ => want summaryRec (imageSettled (bringUpAll false (takePurge s).purged.2 (raiseG (takePurge s).purged.1)))) = _
  split
  · next none => rw [if_pos none]
  · next some => rw [if_neg some]

/-- What a purge that took an entry leaves besides the image. -/
structure PurgeTold (s w : State) : Prop where
  regs : w.regs = s.regs
  ports : w.ports = s.ports
  engine : w.engine = s.engine
  purge : w.change.purge = s.change.purge
  gen : w.change.gen = s.change.gen + 1
  identity : w.change.identity = s.change.identity
  changing : w.change.changing = false
  slot : ∀ n, w.slot n = (s.slot n).judged w.change s.editions
  sweep : ∀ n, w.sweep n = (s.sweep n).compared w.change.table
  waiting : w.report.waiting = s.report.waiting
  wanted : w.report.wanted[summaryRec] = true

theorem purgeTold {s u : State} {x : State × List Nat}
    (same : ∃ mem table changing, x.1 = { s with mem := mem, change := { s.change with table := table, changing := changing } })
    (brought : ∃ mem table digest, u = { raiseG x.1 with
      mem := mem, change := { (raiseG x.1).change with table := table, digest := digest } }) :
    PurgeTold s (want summaryRec (imageSettled u)) ∧ (want summaryRec (imageSettled u)).mem = u.mem ∧
      (want summaryRec (imageSettled u)).change.table = u.change.table := by
  have slot := imageSettled_slot u
  have sweep := imageSettled_sweep u
  obtain ⟨roster, sweeps, settledEq⟩ := imageSettled_eq u
  rw [settledEq] at slot sweep ⊢
  clear settledEq
  obtain ⟨mem, table, digest, rfl⟩ := brought
  obtain ⟨mem', table', changing, same⟩ := same
  rw [same] at slot sweep ⊢
  exact ⟨⟨rfl, rfl, rfl, rfl, rfl, rfl, rfl, slot, sweep, rfl, want_summary _⟩, rfl, rfl⟩

theorem Purged.some_of_lost {sd n p : Nat} {s : State} {x : State × List Nat} (purged : Purged sd s n x) (inside : p < n)
    (lost : s.keptAt sd p ≠ s.entriesAt p) : x.2 ≠ [] := by
  intro none
  have listed := (purged.listed p).2 ⟨inside, lost⟩
  rw [none] at listed
  cases listed

/-- A purge that found nothing expired leaves the holder empty, and nothing else; any other brings its pages up. -/
theorem purge_left {s : State} (unspent : s.spent = false) (wf : Memory.wf s.mem = true)
    (size : s.change.table.length = s.change.pages) (few : ∀ p, liveCount s.change.table p ≤ 20) :
    PurgeLeft s.clock.serviceDay (takePurge s) (purge s) ∧
    ((∀ p, p < s.change.pages → s.keptAt s.clock.serviceDay p = s.entriesAt p) → purge s = takePurge s) ∧
    (∀ p, p < s.change.pages → s.keptAt s.clock.serviceDay p ≠ s.entriesAt p → PurgeTold (takePurge s) (purge s)) := by
  have eq := purge_eq unspent
  have kept (p : Nat) : (takePurge s).keptAt s.clock.serviceDay p = s.keptAt s.clock.serviceDay p := by
    rw [State.keptAt, takePurge_entriesAt, State.keptAt]
  have entries := takePurge_entriesAt s
  have mem := takePurge_mem s
  have change := takePurge_change s
  have clock := takePurge_clock s
  generalize purge s = w at eq ⊢
  generalize takePurge s = u at eq kept entries mem change clock ⊢
  have few : ∀ p, liveCount u.change.table p ≤ 20 := by rw [change]; exact few
  have purged : Purged s.clock.serviceDay u u.change.table.length u.purged := by
    have range : u.purged = (List.range u.change.table.length).foldl
        (fun x p => purgePage s.clock.serviceDay p x) (u, []) := by
      rw [State.purged, purgePages, clock, change, Nat.min_self, size]
    rw [range]
    exact purged_pages (by rw [mem]; exact wf) few _ (Nat.le_refl _)
  have pages : u.change.table.length = s.change.pages := by rw [change]; exact size
  by_cases none : u.purged.2 = []
  · rw [if_pos none] at eq
    rw [eq]
    refine ⟨purged.left_none none, fun _ => purged.none none, fun p inside lost => ?_⟩
    rw [← kept, ← entries] at lost
    exact absurd none (purged.some_of_lost (pages ▸ inside) lost)
  · rw [if_neg none] at eq
    have inside : ∀ p ∈ u.purged.2, p < (raiseG u.purged.1).change.table.length := fun p among => by
      have size := purged.size
      have below := ((purged.listed p).1 among).1
      exact below.trans_le (le_of_eq size.symm)
    have brought := brought_all false (s := raiseG u.purged.1) purged.wf inside
    obtain ⟨told, mem', table'⟩ := purgeTold purged.same brought.same
    have left := purged.left_some few brought
    rw [eq]
    refine ⟨⟨?_, ?_, ?_, ?_⟩, fun full => ?_, fun _ _ _ => told⟩
    · rw [mem']; exact left.entries
    · rw [mem', table']; exact left.table
    · rw [mem']; exact left.shows
    · rw [mem']; exact left.outside
    · obtain ⟨p, among⟩ := List.exists_mem_of_ne_nil _ none
      obtain ⟨below, lost⟩ := (purged.listed p).1 among
      exact absurd ((kept p).trans ((full p (pages ▸ below)).trans (entries p).symm)) lost

theorem liveCount_le {table : List StampRec} (few : ∀ r ∈ table, r.live ≤ 20) (p : Nat) : liveCount table p ≤ 20 := by
  cases here : table[p]? with
  | none => simp [liveCount, here]
  | some r =>
    rw [liveCount_some here]
    exact few r (List.mem_of_getElem? here)

/-- A purge leaves the holder empty, and raises no notice. -/
theorem purge_quiet {s : State} {lost : Prop} (none : ¬ lost → purge s = takePurge s)
    (told : lost → PurgeTold (takePurge s) (purge s)) :
    (purge s).change.purge = .empty ∧ (purge s).regs = s.regs ∧ (purge s).report.waiting = s.report.waiting := by
  obtain ⟨x, taken⟩ := takePurge_eq s
  by_cases some : lost
  · obtain ⟨regs, -, -, holder, -, -, -, -, -, waiting, -⟩ := told some
    rw [taken] at regs holder waiting
    exact ⟨holder, regs, waiting⟩
  · rw [none some, taken]
    exact ⟨rfl, rfl, rfl⟩

/-- Settles O28: the pages that lose an entry are brought up to the next G, and nothing else changes. -/
theorem purgeJobRemovesExpired : Obligations.PurgeJobRemovesExpired := by
  unfold Obligations.PurgeJobRemovesExpired
  intro s high may low wf size pages few base sd before kept
  have work : s.working = true := by
    simp only [State.mayPurge, Bool.and_eq_true] at may
    exact may.1.1
  have unspent : s.spent = false := by
    rw [State.spent, decide_eq_false_iff_not]
    intro same
    rw [same] at low
    exact absurd low (by decide)
  have digest := (keeps_purge (s := s) (by
    simp only [State.mayPurge, State.changeIdle, Bool.and_eq_true, Option.isNone_iff_eq_none] at may
    tauto)).digest
  obtain ⟨left, none, told⟩ := purge_left unspent wf size (liveCount_le few)
  have keptEq (p : Nat) : (takePurge s).keptAt s.clock.serviceDay p = kept p := by
    rw [State.keptAt, takePurge_entriesAt]
    rfl
  have beforeEq (p : Nat) : (takePurge s).entriesAt p = before p := takePurge_entriesAt s p
  have settled := settled_boundaries s (purge s)
  have later := later_boundaries s (purge s)
  refine ⟨_, exec_purgeJob high may, ?_⟩
  generalize settle s (boundaries (purge s)) = t at settled later ⊢
  have change := settled.change
  obtain ⟨entries, table, shows, outside⟩ := left
  simp only [takePurge_change, takePurge_base, takePurge_mem, keptEq, beforeEq, size, ← settled.mem, ← change]
    at entries table shows outside
  change (∀ p, p < s.change.pages → kept p = before p) → _ at none
  change ∀ p, p < s.change.pages → kept p ≠ before p → _ at told
  have quiet := purge_quiet (s := s) (lost := ∃ p, p < s.change.pages ∧ kept p ≠ before p)
    (fun full => none fun p inside => by
      by_contra lost
      exact full ⟨p, inside, lost⟩)
    (fun ⟨p, inside, lost⟩ => told p inside lost)
  obtain ⟨holder, regs, waiting⟩ := quiet
  refine ⟨by rw [change]; exact holder, by rw [settled.events, regs], settled.waiting.trans waiting, fun p inside => ?_,
    outside, fun ok => ?_, fun full => ?_, fun ⟨p, inside, lost⟩ => ?_⟩
  · have here := List.getElem?_eq_getElem (l := s.change.table) (i := p) (size ▸ inside)
    have record := table p _ here
    have live : s.change.table[p].live = (before p).length := by
      rw [← liveCount_some here]
      exact (readEntries_length ..).symm
    refine ⟨entries p inside, ?_, fun r found => ?_⟩
    · rw [liveCount_some record]
      split
      · next full => rw [live, full]
      · rfl
    · cases here.symm.trans found
      refine ⟨_, record, ?_⟩
      split
      · next full => exact ⟨rfl, rfl, fun _ => rfl, fun lost => absurd full lost⟩
      · next lost => exact ⟨rfl, rfl, fun full => absurd full lost, fun _ => ⟨rfl, shows p inside lost⟩⟩
  · rw [State.digestOk, change]
    exact digest ok
  · have same := none full
    obtain ⟨x, taken⟩ := takePurge_eq s
    rw [taken] at same
    rw [settled.mem, change, same]
    exact ⟨rfl, rfl⟩
  · have told := told p inside lost
    have gen := told.gen
    have identity := told.identity
    have compared (n : Fin 24) : (purge s).sweep n = (s.sweep n).compared (purge s).change.table := by
      obtain ⟨x, taken⟩ := takePurge_eq s
      rw [told.sweep, taken]
      rfl
    have judged (n : Fin 24) : (purge s).slot n = (s.slot n).judged (purge s).change s.editions := by
      rw [told.slot, State.slot, takePurge_roster, takePurge_editions]
      rfl
    have ports : (purge s).ports = s.ports := by
      obtain ⟨x, taken⟩ := takePurge_eq s
      rw [told.ports, taken]
    have engine : (purge s).engine = s.engine := by
      obtain ⟨x, taken⟩ := takePurge_eq s
      rw [told.engine, taken]
    rw [takePurge_change] at gen identity
    refine ⟨by rw [change, gen], by rw [change, told.changing], settled.wanted _ told.wanted,
      heldCompared compared change engine ports fun none => (settled.quiet none).2.1, fun ok n => ?_⟩
    rw [later.slot, judged]
    exact judged_raised gen low fun same => ok n (same.trans identity)

end Sys2Proof.Machine

/-!
The records of a load (R48 to R52, R56): what is stored of each, the page closed behind the last of it, and the end of the load.
-/
namespace Sys2Proof.Machine

/-! ### The record -/

theorem Product.bad_iff (p : Product) (first : Bool) (last : Nat) : p.bad first last = true ↔
    p.code = 0 ∨ (first = false ∧ p.code ≤ last) ∨ 15 < p.concession ∨ p.zones = 0 ∨ 2147483648 ≤ p.price := by
  simp only [Product.bad, Bool.or_eq_true, Bool.and_eq_true, decide_eq_true_iff, Bool.not_eq_true', or_assoc]

/-- The validity stored (R51): the one given, at least 1 and at most 10080. -/
def Product.storedValidity (p : Product) : Nat := max 1 (min 10080 p.validity)

/-- The transfer stored (R51): the one given, at most the validity. -/
def Product.storedTransfer (p : Product) : Nat := min p.storedValidity p.transfer

theorem Product.clamp_eq (p : Product) : p.clamp =
    { p with flags := p.flags % 4, validity := p.storedValidity, transfer := p.storedTransfer } := by
  have validity : p.clamp.validity = p.storedValidity := by
    unfold Product.clamp Product.storedValidity
    dsimp only
    split_ifs <;> omega
  have transfer : p.clamp.transfer = min p.clamp.validity p.transfer := by
    change (if p.clamp.validity < p.transfer then p.clamp.validity else p.transfer) = _
    split <;> omega
  rw [validity] at transfer
  rw [← validity, Product.storedTransfer, ← transfer]
  rfl

theorem Product.clamped_iff (p : Product) :
    p.clamped = true ↔ p.storedValidity ≠ p.validity ∨ p.storedTransfer ≠ p.transfer := by
  rw [Product.clamped, Product.clamp_eq, Bool.or_eq_true, decide_eq_true_iff, decide_eq_true_iff]

theorem leBytes_leNat : ∀ bs : List Byte, leBytes bs.length (leNat bs) = bs
  | [] => rfl
  | b :: bs => by
    have low := b.isLt
    have byte : BitVec.ofNat 8 (b.toNat + 256 * leNat bs) = b := by
      apply BitVec.eq_of_toNat_eq
      rw [BitVec.toNat_ofNat]
      omega
    have rest : (b.toNat + 256 * leNat bs) / 256 = leNat bs := by omega
    rw [List.length_cons, leNat, leBytes, byte, rest, leBytes_leNat bs]

theorem leBytes_fieldAt {bs : List Byte} {o n : Nat} (inside : o + n ≤ bs.length) :
    leBytes n (fieldAt bs o n) = (bs.drop o).take n := by
  have size : ((bs.drop o).take n).length = n := by
    rw [List.length_take, List.length_drop]
    omega
  have whole := leBytes_leNat ((bs.drop o).take n)
  rwa [size] at whole

/-- The bytes of a record stored: those given, but for flags, validity and transfer. -/
theorem clamp_bytes {b : List Byte} (size : b.length = 16) : (parseProduct b).clamp.bytes =
    b.take 3 ++ leBytes 1 (fieldAt b 3 1 % 4) ++ (b.drop 4).take 8 ++ leBytes 2 (parseProduct b).storedValidity ++
      leBytes 2 (parseProduct b).storedTransfer := by
  have head : leBytes 2 (fieldAt b 0 2) ++ leBytes 1 (fieldAt b 2 1) = b.take 3 := by
    rw [leBytes_fieldAt (by omega), leBytes_fieldAt (by omega), List.drop_zero]
    exact (List.take_add (i := 2) (j := 1)).symm
  have middle : leBytes 4 (fieldAt b 4 4) ++ leBytes 4 (fieldAt b 8 4) = (b.drop 4).take 8 := by
    rw [leBytes_fieldAt (by omega), leBytes_fieldAt (by omega)]
    have split := (List.take_add (l := b.drop 4) (i := 4) (j := 4)).symm
    rwa [List.drop_drop] at split
  rw [← head, ← middle, Product.clamp_eq]
  simp only [Product.bytes, parseProduct, List.append_assoc]

theorem clamp_bytes_length (p : Product) : p.clamp.bytes.length = 16 := by simp [Product.bytes, leBytes_length]

/-! ### The page -/

theorem editionHeader_length (e : PendingSlot) (page k : Nat) : (editionHeader e page k).length = 16 := by
  simp [editionHeader, leBytes_length]

theorem editionHeader_take (e : PendingSlot) (page k : Nat) : (editionHeader e page k).take 12 =
    leBytes 2 e.number.toNat ++ [BitVec.ofNat 8 page, BitVec.ofNat 8 e.total, BitVec.ofNat 8 k, 0, 0, 0] ++
      leBytes 4 e.effective.toNat := by
  rw [editionHeader, List.take_left' (by simp [leBytes_length])]
  simp only [leBytes, List.append_assoc]
  rfl

section
variable (m : List Host.Cell) (addr : Nat) (e : PendingSlot) (page : Nat) {k : Nat} (few : k ≤ 15)

/-- The bytes of an edition page before its CRC is put in. -/
def rawEditionPage (k : Nat) : List Byte :=
  editionHeader e page k ++ Memory.readBytes m (addr + 16) (16 * k) ++ List.replicate (16 * (15 - k)) 0

include few

theorem rawEditionPage_length : (rawEditionPage m addr e page k).length = 256 := by
  rw [rawEditionPage, List.length_append, List.length_append, editionHeader_length, Memory.readBytes_length,
    List.length_replicate]
  omega

theorem editionPage_length : (editionPageBytes m addr e page k).length = 256 := by
  have raw := rawEditionPage_length m addr e page few
  exact (sealPage_length (page := rawEditionPage m addr e page k) (by omega)).trans raw

theorem editionPage_head : (editionPageBytes m addr e page k).take 12 =
    leBytes 2 e.number.toNat ++ [BitVec.ofNat 8 page, BitVec.ofNat 8 e.total, BitVec.ofNat 8 k, 0, 0, 0] ++
      leBytes 4 e.effective.toNat := by
  have raw := rawEditionPage_length m addr e page few
  refine (sealPage_take (page := rawEditionPage m addr e page k) (by omega)).trans ?_
  rw [← editionHeader_take, rawEditionPage, List.append_assoc,
    List.take_append_of_le_length (by rw [editionHeader_length]; omega)]

theorem editionPage_body : (editionPageBytes m addr e page k).drop 16 =
    Memory.readBytes m (addr + 16) (16 * k) ++ List.replicate (16 * (15 - k)) 0 := by
  have raw := rawEditionPage_length m addr e page few
  refine (sealPage_drop (page := rawEditionPage m addr e page k) (by omega)).trans ?_
  rw [rawEditionPage, List.append_assoc, List.drop_left' (editionHeader_length e page k)]

theorem editionPage_crc : pageCrcField (editionPageBytes m addr e page k) = pageCrc (editionPageBytes m addr e page k) ∧
    ((editionPageBytes m addr e page k).drop 12).take 4 = leBytes 4 (pageCrc (editionPageBytes m addr e page k)).toNat := by
  have raw := rawEditionPage_length m addr e page few
  have long : 16 ≤ (rawEditionPage m addr e page k).length := by omega
  have sealed : editionPageBytes m addr e page k = sealPage (rawEditionPage m addr e page k) := rfl
  rw [sealed, pageCrcField_sealPage long, pageCrc_sealPage long, sealPage_crc long]
  exact ⟨rfl, rfl⟩

end

/-- The memory once a page is closed behind a record stored last in it. -/
def closedMemory (m : List Host.Cell) (addr : Nat) (e : PendingSlot) (page j : Nat) (stored : List Byte) : List Host.Cell :=
  let m := Memory.writeBytes m (addr + 16 + 16 * j) stored
  Memory.writeBytes m addr (editionPageBytes m addr e page (j + 1))

/-- What a closed page shows (R52): its header, its CRC, the records before the last, the last, and zeros. -/
structure PageClosed (m : List Host.Cell) (addr : Nat) (e : PendingSlot) (page j : Nat) (stored p : List Byte) : Prop where
  head : p.take 12 = leBytes 2 e.number.toNat ++
    [BitVec.ofNat 8 page, BitVec.ofNat 8 e.total, BitVec.ofNat 8 (j + 1), 0, 0, 0] ++ leBytes 4 e.effective.toNat
  crc : (p.drop 12).take 4 = leBytes 4 (pageCrc p).toNat
  before : (p.drop 16).take (16 * j) = Memory.readBytes m (addr + 16) (16 * j)
  last : (p.drop (16 + 16 * j)).take 16 = stored
  zeros : p.drop (32 + 16 * j) = List.replicate (224 - 16 * j) 0

theorem pageClosed {m : List Host.Cell} (wf : Memory.wf m = true) (addr : Nat) (e : PendingSlot) (page : Nat) {j : Nat}
    (low : j ≤ 14) {stored : List Byte} (size : stored.length = 16) :
    PageClosed m addr e page j stored
      (editionPageBytes (Memory.writeBytes m (addr + 16 + 16 * j) stored) addr e page (j + 1)) := by
  have few : j + 1 ≤ 15 := by omega
  have own := Memory.readBytes_writeBytes wf (addr + 16 + 16 * j) stored
  rw [size] at own
  have before := Memory.readBytes_writeBytes_apart m (a := addr + 16 + 16 * j) (x := addr + 16) (n := 16 * j) (bs := stored)
    (.inl (by omega))
  generalize Memory.writeBytes m (addr + 16 + 16 * j) stored = m' at own before ⊢
  have body := editionPage_body m' addr e page few
  rw [Nat.mul_succ, Memory.readBytes_add, before, own] at body
  have after (n : Nat) : (editionPageBytes m' addr e page (j + 1)).drop (16 + n) =
      ((Memory.readBytes m (addr + 16) (16 * j) ++ stored) ++ List.replicate (16 * (15 - (j + 1))) 0).drop n := by
    rw [← List.drop_drop, body]
  have width := Memory.readBytes_length m (addr + 16) (16 * j)
  refine ⟨editionPage_head m' addr e page few, (editionPage_crc m' addr e page few).2, ?_, ?_, ?_⟩
  · rw [body, List.append_assoc, List.take_left' width]
  · rw [after, List.append_assoc, List.drop_left' width, List.take_left' size]
  · have here : 32 + 16 * j = 16 + (16 * j + 16) := by omega
    rw [here, after, List.drop_left' (by rw [List.length_append, width, size])]
    congr 1
    omega

theorem closedMemory_page {m : List Host.Cell} (wf : Memory.wf m = true) (addr : Nat) (e : PendingSlot) (page : Nat) {j : Nat}
    (low : j ≤ 14) (stored : List Byte) : Memory.readBytes (closedMemory m addr e page j stored) addr 256 =
      editionPageBytes (Memory.writeBytes m (addr + 16 + 16 * j) stored) addr e page (j + 1) := by
  have few : j + 1 ≤ 15 := by omega
  have whole := Memory.readBytes_writeBytes (Memory.writeBytes_wf (addr + 16 + 16 * j) stored wf) addr
    (editionPageBytes (Memory.writeBytes m (addr + 16 + 16 * j) stored) addr e page (j + 1))
  rwa [editionPage_length _ _ _ _ few] at whole

theorem closedMemory_outside (m : List Host.Cell) (addr : Nat) (e : PendingSlot) (page : Nat) {j : Nat} (low : j ≤ 14)
    {stored : List Byte} (size : stored.length = 16) {a : Nat} (outside : a < addr ∨ addr + 256 ≤ a) :
    Memory.read (closedMemory m addr e page j stored) a = Memory.read m a := by
  have width := editionPage_length (Memory.writeBytes m (addr + 16 + 16 * j) stored) addr e page (k := j + 1) (by omega)
  refine (Memory.read_writeBytes_outside _ _ _ (by omega)).trans ?_
  exact Memory.read_writeBytes_outside m _ _ (by omega)

/-! ### The command -/

theorem exec_productRecord {s : State} {l : Load} (high : s.resetLow = false) (work : s.working = true)
    (has : s.editions.load = some l) : exec .productRecord s = .next (settle s (boundaries
      (if (s.nextProduct l).bad (decide (l.next = 0)) l.lastCode then failLoad l s else storeProduct l (s.nextProduct l) s))) := by
  have step : exec .productRecord s = execProductRecord s := rfl
  rw [step, execProductRecord, scheduled_next high]
  simp only [has, work, if_true]

/-- The load with one more record read. -/
def Load.counted (l : Load) (p : Product) : Load :=
  { l with next := l.next + 1, lastCode := p.code, clamped := if p.clamped then l.clamped + 1 else l.clamped }

/-- The state with the record stored, and its page closed if it is the last of it. -/
def State.withProduct (s : State) (l : Load) (p : Product) : State :=
  let e := s.editions.pending
  let addr := s.editionBase e.region + 256 * (l.next / 15)
  if l.next % 15 = 14 ∨ l.next + 1 = l.count then
    setPending { e with crcs := e.crcs ++ [pageCrcField (editionPageBytes
        (Memory.writeBytes s.mem (addr + 16 + 16 * (l.next % 15)) p.clamp.bytes) addr e (l.next / 15) (l.next % 15 + 1))] }
      { s with mem := closedMemory s.mem addr e (l.next / 15) (l.next % 15) p.clamp.bytes }
  else { s with mem := Memory.writeBytes s.mem (addr + 16 + 16 * (l.next % 15)) p.clamp.bytes }

theorem storeProduct_eq (l : Load) (p : Product) (s : State) : storeProduct l p s =
    if l.next + 1 = l.count then endLoad (l.counted p) (s.withProduct l p)
    else setLoad (some (l.counted p)) (s.withProduct l p) := rfl

/-! ### The end of the load -/

theorem failLoad_settled (s : State) {u : State} (l : Load) (work : u.working = true) :
    Settled { u with
        editions := { u.editions with load := none, pending := .empty u.editions.pending.region }
        report := { u.report with
          wanted := u.report.wanted.set summaryRec true
          waiting := u.report.waiting ++ [⟨[summaryRec], .outcome l.strip ⟨4, false, l.next⟩⟩] } }
      (settle s (boundaries (failLoad l u))) := by
  have rests : editionTests (emptyPending (setLoad none u)) = emptyPending (setLoad none u) := by
    rcases editionTests_cases (s := emptyPending (setLoad none u)) work with ⟨due, -⟩ | ⟨risk, -⟩ | ⟨-, -, rests⟩
    · exact nomatch due.1
    · exact nomatch risk.1
    · exact rests
  rw [failLoad, rests]
  exact settled_boundaries s _

/-- The PENDING slot at the end of its load (R56). -/
def PendingSlot.filled (e : PendingSlot) : PendingSlot := { e with state := .pending, digest := e.crcs.foldl (· + ·) 0 }

/-- The state at the end of a load, before the tests. -/
def State.loaded (s : State) : State :=
  editionsChanged (want summaryRec (setLoad none (setPending s.editions.pending.filled s)))

theorem endLoad_eq (l : Load) (s : State) :
    endLoad l s = completeAfterSummary l.strip ⟨Outcome.ok, decide (l.clamped ≠ 0), l.clamped⟩ (editionTests s.loaded) := rfl

theorem loaded_fields (s : State) : s.loaded.engine = s.engine ∧ s.loaded.change = s.change ∧ s.loaded.clock = s.clock ∧
    s.loaded.mem = s.mem ∧ s.loaded.report.waiting = s.report.waiting ∧
    s.loaded.editions = { s.editions with load := none, pending := s.editions.pending.filled } := by
  have frame := editionsChanged_frame (want summaryRec (setLoad none (setPending s.editions.pending.filled s)))
  obtain ⟨-, engine, -, -, change, editions, clock, -, mem, -, -, waiting, -⟩ := of_frame frame
  refine ⟨engine, change, clock, mem, ?_, editions⟩
  rw [State.loaded, waiting]
  rfl

/-- Tests made before the roster of `t` are tests made on it: an activation finds no risk, and nothing else moves the roster. -/
theorem tested_roster {u t : State} (work : u.working = true) (tested : EditionTested u t)
    (roster : t.roster = (editionTests u).roster) : EditionTested { u with roster := t.roster } t := by
  have still (same : t.roster = u.roster) : EditionTested { u with roster := t.roster } t :=
    tested.of_slots rfl rfl rfl same.symm
  rcases editionTests_cases work with ⟨due, -⟩ | ⟨-, same⟩ | ⟨-, -, same⟩
  · have due' : State.dueNow { u with roster := t.roster } := due
    exact ⟨fun _ => tested.activates due, fun risk => absurd risk (not_riskNow_of_dueNow due'), fun noDue => absurd due' noDue⟩
  · have quiet := congrArg State.roster same
    exact still (roster.trans quiet)
  · exact still (roster.trans (congrArg State.roster same))

/-- What the end of a load leaves (R56, R60 to R63). -/
structure LoadEnded (l : Load) (u t : State) : Prop where
  mem : t.mem = u.mem
  change : t.change = u.change
  clock : t.clock = u.clock
  wanted : t.report.wanted[summaryRec] = true
  load : t.editions.load = none
  tested : EditionTested { u with
    roster := t.roster, editions := { u.editions with load := none, pending := u.editions.pending.filled } } t
  waits : ∃ ws, t.report.waiting = u.report.waiting ++ ws ++
    [⟨[summaryRec], .outcome l.strip ⟨1, decide (l.clamped ≠ 0), l.clamped⟩⟩]
  unset : u.clock.isSet = false → t.editions = { u.editions with load := none, pending := u.editions.pending.filled } ∧
    t.report.waiting = u.report.waiting ++ [⟨[summaryRec], .outcome l.strip ⟨1, decide (l.clamped ≠ 0), l.clamped⟩⟩]

theorem loadEnded (s : State) {u : State} (l : Load) (work : u.working = true) :
    LoadEnded l u (settle s (boundaries (endLoad l u))) := by
  obtain ⟨engine, change, clock, mem, waiting, editions⟩ := loaded_fields u
  rw [endLoad_eq]
  generalize u.loaded = v at engine change clock mem waiting editions ⊢
  have work : v.working = true := by rw [State.working, engine]; exact work
  have settled := settled_boundaries s
    (completeAfterSummary l.strip ⟨Outcome.ok, decide (l.clamped ≠ 0), l.clamped⟩ (editionTests v))
  obtain ⟨mem', change', clock', wanted, tested, ws, waits⟩ := tested_settled (s := s) (u := v) (t := l.strip)
    (r := ⟨Outcome.ok, decide (l.clamped ≠ 0), l.clamped⟩) work rfl
  generalize settle s (boundaries (completeAfterSummary l.strip ⟨Outcome.ok, decide (l.clamped ≠ 0), l.clamped⟩
    (editionTests v))) = t at settled mem' change' clock' wanted tested waits ⊢
  obtain ⟨-, -, -, -, -, load⟩ := editionTests_fields work
  have sameEditions : t.editions = (editionTests v).editions := settled.editions
  have sameRoster : t.roster = (editionTests v).roster := settled.roster
  refine ⟨mem'.trans mem, change'.trans change, clock'.trans clock, wanted, ?_, ?_, ⟨ws, ?_⟩, fun unset => ?_⟩
  · rw [sameEditions, load, editions]
  · refine (tested_roster work tested sameRoster).of_slots ?_ ?_ clock rfl
    · exact congrArg EditionMgr.active editions
    · exact congrArg EditionMgr.pending editions
  · rw [waits, waiting]
    rfl
  · have off : v.clock.isSet = false := by rw [clock]; exact unset
    have rests : editionTests v = v := by
      rcases editionTests_cases work with ⟨due, -⟩ | ⟨risk, -⟩ | ⟨-, -, rests⟩
      · exact absurd (off.symm.trans due.2.1) (by decide)
      · exact absurd (off.symm.trans risk.2.1) (by decide)
      · exact rests
    rw [rests] at sameEditions settled
    exact ⟨sameEditions.trans editions, settled.waiting.trans (congrArg (· ++ _) waiting)⟩

/-! ### What a record leaves -/

/-- The address of the page of the load's next record. -/
def State.productPage (s : State) (l : Load) : Nat := s.editionBase s.editions.pending.region + 256 * (l.next / 15)

theorem withProduct_open {s : State} {l : Load} (p : Product) (within : ¬ (l.next % 15 = 14 ∨ l.next + 1 = l.count)) :
    s.withProduct l p =
      { s with mem := Memory.writeBytes s.mem (s.productPage l + 16 + 16 * (l.next % 15)) p.clamp.bytes } := if_neg within

theorem withProduct_closes {s : State} {l : Load} (p : Product) (wf : Memory.wf s.mem = true)
    (closes : l.next % 15 = 14 ∨ l.next + 1 = l.count) :
    let page := Memory.readBytes (s.withProduct l p).mem (s.productPage l) 256
    PageClosed s.mem (s.productPage l) s.editions.pending (l.next / 15) (l.next % 15) p.clamp.bytes page ∧
    (∀ a, a < s.productPage l ∨ s.productPage l + 256 ≤ a → Memory.read (s.withProduct l p).mem a = Memory.read s.mem a) ∧
    (s.withProduct l p).editions = { s.editions with
      pending := { s.editions.pending with crcs := s.editions.pending.crcs ++ [pageCrc page] } } := by
  have low : l.next % 15 ≤ 14 := by omega
  have size := clamp_bytes_length p
  have eq : s.withProduct l p = setPending { s.editions.pending with crcs := s.editions.pending.crcs ++
      [pageCrcField (editionPageBytes (Memory.writeBytes s.mem (s.productPage l + 16 + 16 * (l.next % 15)) p.clamp.bytes)
        (s.productPage l) s.editions.pending (l.next / 15) (l.next % 15 + 1))] }
      { s with mem := closedMemory s.mem (s.productPage l) s.editions.pending (l.next / 15) (l.next % 15) p.clamp.bytes } :=
    if_pos closes
  have mem : (s.withProduct l p).mem =
      closedMemory s.mem (s.productPage l) s.editions.pending (l.next / 15) (l.next % 15) p.clamp.bytes := by
    rw [eq, setPending_mem]
  have editions := congrArg State.editions eq
  clear eq
  generalize s.productPage l = addr at mem editions ⊢
  intro page
  have here : page = editionPageBytes (Memory.writeBytes s.mem (addr + 16 + 16 * (l.next % 15)) p.clamp.bytes) addr
      s.editions.pending (l.next / 15) (l.next % 15 + 1) := by
    have read := closedMemory_page wf addr s.editions.pending (l.next / 15) low p.clamp.bytes
    rwa [← mem] at read
  refine ⟨?_, fun a outside => ?_, ?_⟩
  · rw [here]
    exact pageClosed wf addr s.editions.pending (l.next / 15) low size
  · rw [mem]
    exact closedMemory_outside s.mem addr s.editions.pending (l.next / 15) low size outside
  · rw [editions, (editionPage_crc _ addr s.editions.pending (l.next / 15) (k := l.next % 15 + 1) (by omega)).1, ← here]
    rfl

theorem withProduct_keeps (s : State) (l : Load) (p : Product) : ∃ mem pending, s.withProduct l p =
    { s with mem := mem, editions := { s.editions with pending := pending } } := by
  unfold State.withProduct
  dsimp only
  split
  · exact ⟨_, _, rfl⟩
  · exact ⟨_, _, rfl⟩

theorem counted_clamped (l : Load) (p : Product) : (l.counted p).clamped =
    if p.storedValidity ≠ p.validity ∨ p.storedTransfer ≠ p.transfer then l.clamped + 1 else l.clamped := by
  simp only [Load.counted, Product.clamped_iff]

/-- What the step that stores a record leaves. -/
structure ProductStored (s : State) (l : Load) (p : Product) (t : State) : Prop where
  mem : t.mem = (s.withProduct l p).mem
  change : t.change = s.change
  clock : t.clock = s.clock
  goesOn : l.next + 1 ≠ l.count → t.editions = { s.editions with
    pending := (s.withProduct l p).editions.pending, load := some (l.counted p) }
  ended : l.next + 1 = l.count → LoadEnded (l.counted p) (s.withProduct l p) t

theorem productStored {s : State} (l : Load) (p : Product) (work : s.working = true) :
    ProductStored s l p (settle s (boundaries (storeProduct l p s))) := by
  have eq := storeProduct_eq l p s
  obtain ⟨mem, pending, keeps⟩ := withProduct_keeps s l p
  by_cases last : l.next + 1 = l.count
  · rw [if_pos last] at eq
    rw [eq]
    have ended := loadEnded s (l.counted p) (u := s.withProduct l p) (by rw [keeps]; exact work)
    exact ⟨ended.mem, ended.change.trans (by rw [keeps]), ended.clock.trans (by rw [keeps]), fun more => absurd last more,
      fun _ => ended⟩
  · rw [if_neg last] at eq
    have settled := settled_boundaries s (setLoad (some (l.counted p)) (s.withProduct l p))
    rw [eq]
    generalize settle s (boundaries (setLoad (some (l.counted p)) (s.withProduct l p))) = t at settled ⊢
    rw [keeps] at settled
    refine ⟨settled.mem.trans (by rw [keeps]; rfl), settled.change, settled.clock, fun _ => ?_, fun least => absurd least last⟩
    rw [settled.editions, keeps]
    rfl

theorem filled_closed (e : PendingSlot) (c : Word) : PendingSlot.filled { e with crcs := e.crcs ++ [c] } =
    { e with state := .pending, crcs := e.crcs ++ [c], digest := e.crcs.foldl (· + ·) 0 + c } := by
  rw [PendingSlot.filled]
  simp only [List.foldl_append, List.foldl_cons, List.foldl_nil]

/-- Settles O30: a bad record ends the load; any other is stored, with the page closed and the load ended behind it. -/
theorem productRecordRead : Obligations.ProductRecordRead := by
  unfold Obligations.ProductRecordRead
  intro s l high work wf has e b f bad validity transfer clamped stored page j base closes
  have run := exec_productRecord high work has
  have badIff : (s.nextProduct l).bad (decide (l.next = 0)) l.lastCode = true ↔ bad := by
    rw [Product.bad_iff, decide_eq_false_iff_not]
    rfl
  have bytes : (s.nextProduct l).clamp.bytes = stored := clamp_bytes (Memory.readBytes_length ..)
  have counted : (l.counted (s.nextProduct l)).clamped = clamped := counted_clamped ..
  by_cases refused : bad
  · rw [if_pos (badIff.2 refused)] at run
    have settled := failLoad_settled s l work
    generalize settle s (boundaries (failLoad l s)) = t at run settled
    exact ⟨t, run, settled.change, settled.clock,
      fun _ => ⟨settled.mem, settled.editions, settled.wanted summaryRec (want_summary s), settled.waiting⟩,
      fun good => absurd refused good, fun good => absurd refused good, fun good => absurd refused good⟩
  · rw [if_neg (mt badIff.1 refused)] at run
    obtain ⟨mem, change, clock, goesOn, ended⟩ := productStored l (s.nextProduct l) work
    generalize settle s (boundaries (storeProduct l (s.nextProduct l) s)) = t at run mem change clock goesOn ended
    refine ⟨t, run, change, clock, fun bad => absurd bad refused, fun _ within => ?_, fun _ more => ⟨?_, fun within => ?_⟩,
      fun _ closes => ?_⟩
    · rw [mem, withProduct_open _ within, bytes]
      rfl
    · rw [goesOn more, ← counted]
      rfl
    · rw [goesOn more, withProduct_open _ within]
    · obtain ⟨shows, outside, editions⟩ := withProduct_closes (s.nextProduct l) wf closes
      rw [← mem, bytes] at shows
      rw [← mem] at outside editions
      change PageClosed s.mem base e page j stored (Memory.readBytes t.mem base 256) at shows
      change _ = { s.editions with pending := { e with crcs := e.crcs ++ [pageCrc (Memory.readBytes t.mem base 256)] } } at editions
      dsimp only
      generalize Memory.readBytes t.mem base 256 = p at shows editions ⊢
      have filled := filled_closed e (pageCrc p)
      refine ⟨shows.head, shows.crc, shows.before, shows.last, shows.zeros, outside, fun more => ?_, fun last unset => ?_,
        fun last => ?_⟩
      · rw [goesOn more, editions]
      · obtain ⟨mem', pending, keeps⟩ := withProduct_keeps s l (s.nextProduct l)
        obtain ⟨now, waiting⟩ := (ended last).unset (by rw [keeps]; exact unset)
        rw [counted] at waiting
        refine ⟨?_, (ended last).wanted, ?_⟩
        · rw [now, editions, ← filled]
        · rw [waiting, keeps]
          rfl
      · obtain ⟨mem', pending, keeps⟩ := withProduct_keeps s l (s.nextProduct l)
        obtain ⟨ws, waiting⟩ := (ended last).waits
        rw [counted] at waiting
        refine ⟨(ended last).load, (ended last).wanted, ?_, ws, ?_⟩
        · refine (ended last).tested.of_slots ?_ ?_ (by rw [keeps]) rfl
          · rw [editions]
          · rw [editions]
            exact filled
        · rw [waiting, keeps]
          rfl

end Sys2Proof.Machine

/-!
The edits of pages (R24 to R29, R42, R43): what an ADD and a REMOVE make of the pages of an image, and the page of a new image
edited with its record of the working table.
-/
namespace Sys2Proof.Machine

/-! ### Lists of entries -/

theorem insertEntry_length (e : Entry) : ∀ es : List Entry, (insertEntry e es).length = es.length + 1
  | [] => rfl
  | x :: xs => by
    unfold insertEntry
    split
    · rfl
    · rw [List.length_cons, insertEntry_length e xs, List.length_cons]

theorem updateEntry_length (e : Entry) : ∀ es : List Entry, (updateEntry e es).length = es.length
  | [] => rfl
  | x :: xs => by
    unfold updateEntry
    split
    · rfl
    · rw [List.length_cons, updateEntry_length e xs, List.length_cons]

theorem removeEntry_length {key : BitVec 64} : ∀ {es : List Entry}, es.any (fun e => decide (e.key = key)) = true →
    (removeEntry key es).length = es.length - 1
  | [], here => by simp at here
  | x :: xs, here => by
    unfold removeEntry
    split
    · rfl
    · next other =>
      have rest : xs.any (fun e => decide (e.key = key)) = true := by simpa [other] using here
      have some : xs.length ≠ 0 := fun none => by
        rw [List.length_eq_zero_iff.1 none] at rest
        cases rest
      rw [List.length_cons, removeEntry_length rest, List.length_cons]
      omega

theorem mem_insertEntry {e x : Entry} : ∀ {es : List Entry}, x ∈ insertEntry e es → x = e ∨ x ∈ es
  | [], among => .inl (by simpa [insertEntry] using among)
  | y :: ys, among => by
    unfold insertEntry at among
    split at among
    · exact List.mem_cons.1 among
    · rcases List.mem_cons.1 among with rfl | among
      · exact .inr List.mem_cons_self
      · exact (mem_insertEntry among).imp_right (List.mem_cons_of_mem _)

theorem mem_updateEntry {e x : Entry} : ∀ {es : List Entry}, x ∈ updateEntry e es → x = e ∨ x ∈ es
  | [], among => by simp [updateEntry] at among
  | y :: ys, among => by
    unfold updateEntry at among
    split at among
    · exact (List.mem_cons.1 among).imp_right (List.mem_cons_of_mem _)
    · rcases List.mem_cons.1 among with rfl | among
      · exact .inr List.mem_cons_self
      · exact (mem_updateEntry among).imp_right (List.mem_cons_of_mem _)

theorem mem_removeEntry {key : BitVec 64} {x : Entry} : ∀ {es : List Entry}, x ∈ removeEntry key es → x ∈ es
  | [], among => among
  | y :: ys, among => by
    unfold removeEntry at among
    split at among
    · exact List.mem_cons_of_mem _ among
    · rcases List.mem_cons.1 among with rfl | among
      · exact List.mem_cons_self
      · exact List.mem_cons_of_mem _ (mem_removeEntry among)

/-! ### Windows -/

theorem probeWindow_lt {key : BitVec 64} {pages : Nat} {seed : Word} (some : 0 < pages) {q : Nat}
    (among : q ∈ probeWindow key pages seed) : q < pages := by
  simp only [probeWindow, List.mem_cons, List.not_mem_nil, or_false] at among
  rcases among with rfl | rfl | rfl | rfl <;> exact Nat.mod_lt _ some

theorem findPage_some {m : List Host.Cell} {base p : Nat} {lives : Nat → Nat} {key : BitVec 64} : ∀ {ps : List Nat},
    findPage m base lives key ps = some p →
    p ∈ ps ∧ (readEntries m base p (lives p)).any (fun e => decide (e.key = key)) = true
  | [], found => nomatch found
  | q :: ps, found => by
    unfold findPage at found
    split at found
    · next here =>
      cases found
      exact ⟨List.mem_cons_self, here⟩
    · obtain ⟨among, here⟩ := findPage_some found
      exact ⟨List.mem_cons_of_mem _ among, here⟩

theorem findPage_congr {m n : List Host.Cell} {base : Nat} {lives : Nat → Nat} {key : BitVec 64} : ∀ {ps : List Nat},
    (∀ q ∈ ps, readEntries m base q (lives q) = readEntries n base q (lives q)) →
    findPage m base lives key ps = findPage n base lives key ps
  | [], _ => rfl
  | q :: ps, same => by
    unfold findPage
    rw [same q List.mem_cons_self, findPage_congr fun k among => same k (List.mem_cons_of_mem _ among)]

/-! ### One item on an image -/

/-- The page `p` of image `img` holding the entries `es`, as an item that ends `o` leaves it. -/
def Applied.edit (m : List Host.Cell) (img : Surface) (o : ItemOutcome) (p : Nat) (es : List Entry) : Applied :=
  ⟨writeEntries m img.base p es, o, some (p, es.length)⟩

section
variable {m : List Host.Cell} {img : Surface} {lives : Nat → Nat} {e : Entry} {p : Nat}

theorem applyAdd_same (found : findPage m img.base lives e.key (probeWindow e.key img.pages img.seed) = some p)
    (same : e ∈ readEntries m img.base p (lives p)) : applyAdd m img lives e = ⟨m, .unchanged, none⟩ := by
  have among : (readEntries m img.base p (lives p)).any (fun x => decide (x = e)) = true := by simpa using same
  simp only [applyAdd, found, among, if_true]

theorem applyAdd_update (found : findPage m img.base lives e.key (probeWindow e.key img.pages img.seed) = some p)
    (other : e ∉ readEntries m img.base p (lives p)) :
    applyAdd m img lives e = .edit m img .updated p (updateEntry e (readEntries m img.base p (lives p))) := by
  have among : (readEntries m img.base p (lives p)).any (fun x => decide (x = e)) = false := by
    rw [List.any_eq_false]
    intro x here
    rw [decide_eq_true_iff]
    exact fun same => other (same ▸ here)
  simp only [applyAdd, found, among, Bool.false_eq_true, if_false, Applied.edit, updateEntry_length, readEntries_length]

theorem applyAdd_insert (absent : findPage m img.base lives e.key (probeWindow e.key img.pages img.seed) = none)
    (room : (probeWindow e.key img.pages img.seed).find? (fun q => decide (lives q < pageRoom)) = some p) :
    applyAdd m img lives e = .edit m img .added p (insertEntry e (readEntries m img.base p (lives p))) := by
  simp only [applyAdd, absent, room, Applied.edit, insertEntry_length, readEntries_length]

theorem applyAdd_full (absent : findPage m img.base lives e.key (probeWindow e.key img.pages img.seed) = none)
    (full : (probeWindow e.key img.pages img.seed).find? (fun q => decide (lives q < pageRoom)) = none) :
    applyAdd m img lives e = ⟨m, .full, none⟩ := by
  simp only [applyAdd, absent, full]

variable {key : BitVec 64}

theorem applyRemove_some (found : findPage m img.base lives key (probeWindow key img.pages img.seed) = some p) :
    applyRemove m img lives key = .edit m img .removed p (removeEntry key (readEntries m img.base p (lives p))) := by
  simp only [applyRemove, found, Applied.edit, removeEntry_length (findPage_some found).2, readEntries_length]

theorem applyRemove_none (absent : findPage m img.base lives key (probeWindow key img.pages img.seed) = none) :
    applyRemove m img lives key = ⟨m, .absent, none⟩ := by
  simp only [applyRemove, absent]

end

/-- The entries of an edited page fit it. -/
structure Fits (es : List Entry) : Prop where
  few : es.length ≤ 20
  expiry : ∀ e ∈ es, e.expiry < 65536

section
variable {m : List Host.Cell} {base p k : Nat} {e : Entry}

theorem fits_insert (fits : e.expiry < 65536) (room : k < 20) : Fits (insertEntry e (readEntries m base p k)) := by
  refine ⟨by rw [insertEntry_length, readEntries_length]; omega, fun x among => ?_⟩
  rcases mem_insertEntry among with rfl | among
  · exact fits
  · exact readEntries_expiry among

theorem fits_update (fits : e.expiry < 65536) (few : k ≤ 20) : Fits (updateEntry e (readEntries m base p k)) := by
  refine ⟨by rw [updateEntry_length, readEntries_length]; omega, fun x among => ?_⟩
  rcases mem_updateEntry among with rfl | among
  · exact fits
  · exact readEntries_expiry among

theorem removeEntry_length_le (key : BitVec 64) : ∀ es : List Entry, (removeEntry key es).length ≤ es.length
  | [] => Nat.le_refl 0
  | x :: xs => by
    unfold removeEntry
    split
    · exact Nat.le_succ _
    · exact Nat.succ_le_succ (removeEntry_length_le key xs)

theorem fits_remove (key : BitVec 64) (few : k ≤ 20) : Fits (removeEntry key (readEntries m base p k)) := by
  refine ⟨(removeEntry_length_le key _).trans (by rw [readEntries_length]; exact few), fun x among => ?_⟩
  exact readEntries_expiry (mem_removeEntry among)

end

/-! ### The new image of a rebuild (R42, R43) -/

/-- The base of the region that the rebuild writes. -/
def State.newBase (s : State) : Nat := s.imageBase s.change.region.other

/-- The state with another memory and another rebuild. -/
def State.remade (s : State) (m : List Host.Cell) (r : Rebuild) : State :=
  { s with mem := m, change := { s.change with rebuild := some r } }

/-- Page `q` of a new image at `base` edited to hold `es`: from memory `m` and record `w` to `m'` and `w'`. -/
structure NewPage (base : Nat) (r : Rebuild) (q : Nat) (es : List Entry) (hot : Bool) (m : List Host.Cell) (w : WorkRec)
    (m' : List Host.Cell) (w' : WorkRec) : Prop where
  wf : Memory.wf m' = true
  entries : readEntries m' base q es.length = es
  outside : ∀ a, a < base + 256 * q ∨ base + 256 * q + 256 ≤ a → Memory.read m' a = Memory.read m a
  live : w'.live = es.length
  hot : w'.hot = (w.hot || hot)
  finished : r.phase = .finishing ∧ q < r.finished →
    ShowsHeader (Memory.readBytes m' (base + 256 * q) 256) q es.length 1 r.identity ∧
    w'.crc = pageCrc (Memory.readBytes m' (base + 256 * q) 256)
  unfinished : ¬ (r.phase = .finishing ∧ q < r.finished) → w'.crc = w.crc

theorem touchNew_page {s : State} {r : Rebuild} {q : Nat} {w : WorkRec} {es : List Entry} (hot : Bool)
    (wf : Memory.wf s.mem = true) (here : r.table[q]? = some w) (fits : Fits es) :
    ∃ m' w', touchNew true q es.length hot { s with mem := writeEntries s.mem s.newBase q es } r =
        s.remade m' { r with table := r.table.set q w' } ∧ NewPage s.newBase r q es hot s.mem w m' w' := by
  obtain ⟨few, expiry⟩ := fits
  have written := writeEntries_wf wf s.newBase q es
  have read := readEntries_writeEntries (base := s.newBase) (p := q) wf few expiry
  have outside (a : Nat) (apart : a < s.newBase + 256 * q + 16 ∨ s.newBase + 256 * q + 256 ≤ a) :=
    writeEntries_outside (m := s.mem) (base := s.newBase) (p := q) few apart
  have eq (done : Bool) (decided : decide (r.phase = .finishing ∧ q < r.finished) = done) :
      touchNew true q es.length hot { s with mem := writeEntries s.mem s.newBase q es } r = s.remade
        (if done then writeHeader (writeEntries s.mem s.newBase q es) s.newBase q es.length 1 r.identity
          else writeEntries s.mem s.newBase q es)
        { r with table := r.table.set q (
          { live := es.length, hot := w.hot || hot,
            crc := if done then headerCrc (writeEntries s.mem s.newBase q es) s.newBase q es.length 1 r.identity
              else w.crc } : WorkRec) } := by
    unfold touchNew
    rw [here]
    simp only [Bool.true_and, decided]
    rfl
  generalize writeEntries s.mem s.newBase q es = m at written read outside eq ⊢
  by_cases done : r.phase = .finishing ∧ q < r.finished
  · have headed := writeHeader_wf written s.newBase q es.length 1 r.identity
    have page := writeHeader_page (base := s.newBase) (p := q) (live := es.length) (stamp := 1) (identity := r.identity) written
    have apart (a : Nat) (away : a < s.newBase + 256 * q ∨ s.newBase + 256 * q + 16 ≤ a) :=
      writeHeader_outside (m := m) (base := s.newBase) (p := q) (live := es.length) (stamp := 1) (identity := r.identity) away
    refine ⟨_, _, eq true (decide_eq_true done), headed, ?_, fun a away => ?_, rfl, rfl, fun _ => ?_, fun other => absurd done other⟩
    · exact (readEntries_congr fun a low high => apart a (by omega)).trans read
    · exact (apart a (by omega)).trans (outside a (by omega))
    · rw [if_pos rfl, page]
      exact ⟨sealedPage_take .., headerCrc_eq ..⟩
  · refine ⟨_, _, eq false (decide_eq_false done), written, read, fun a away => outside a (by omega), rfl, rfl,
      fun finished => absurd finished done, fun _ => rfl⟩

/-- What the item makes of the new image. -/
def State.mirrorApplied (s : State) (r : Rebuild) (i : Item) : Applied :=
  if i.operation = 1 then applyAdd s.mem (s.newSurface r) (workCount r.table) i.entry
  else applyRemove s.mem (s.newSurface r) (workCount r.table) i.entry.key

section
variable {s : State} {r : Rebuild} {i : Item}

theorem mirror_rests (has : s.change.rebuild = some r) {o : ItemOutcome} (applied : s.mirrorApplied r i = ⟨s.mem, o, none⟩)
    (other : o ≠ .full) : mirror true i s = s := by
  unfold State.mirrorApplied at applied
  simp only [mirror, has, applied, if_neg other]

theorem mirror_full (has : s.change.rebuild = some r) (applied : s.mirrorApplied r i = ⟨s.mem, .full, none⟩) :
    mirror true i s = s.remade s.mem { r with unplaced := r.unplaced + 1 } := by
  unfold State.mirrorApplied at applied
  simp only [mirror, has, applied, if_true]
  rfl

theorem mirror_edit (has : s.change.rebuild = some r) {o : ItemOutcome} {q : Nat} {es : List Entry}
    (applied : s.mirrorApplied r i = .edit s.mem (s.newSurface r) o q es) :
    mirror true i s = touchNew true q es.length true { s with mem := writeEntries s.mem s.newBase q es } r := by
  unfold State.mirrorApplied at applied
  simp only [mirror, has, applied]
  rfl

end

/-! ### An item mirrored -/

/-- `v` is `u` with page `q` of the new image of rebuild `r` edited to hold `es`, hot. -/
def Remade (r : Rebuild) (u v : State) (q : Nat) (es : List Entry) : Prop :=
  ∃ w m' w', r.table[q]? = some w ∧ v = u.remade m' { r with table := r.table.set q w' } ∧
    NewPage u.newBase r q es true u.mem w m' w'

/-- What is asked of a rebuild's new image: it has pages, a record of each, and no page holds more than 20 entries. -/
structure Rebuild.Sound (r : Rebuild) : Prop where
  nonempty : 0 < r.pages
  size : r.table.length = r.pages
  few : ∀ w ∈ r.table, w.live ≤ 20

theorem Rebuild.Sound.record {r : Rebuild} (sound : r.Sound) {q : Nat} (inside : q < r.pages) :
    ∃ w, r.table[q]? = some w ∧ workCount r.table q = w.live ∧ w.live ≤ 20 := by
  have here := List.getElem?_eq_getElem (sound.size.symm ▸ inside)
  exact ⟨_, here, by simp [workCount, here], sound.few _ (List.mem_of_getElem? here)⟩

section
variable {u : State} {r : Rebuild} {i : Item} (has : u.change.rebuild = some r) (sound : r.Sound)
  (wf : Memory.wf u.mem = true) (fits : i.entry.expiry < 65536)

/-- The window of the item in the new image. -/
def newWindow (r : Rebuild) (i : Item) : List Nat := probeWindow i.entry.key r.pages r.seed

/-- The page of the new image that holds the item's key. -/
def State.newFound (u : State) (r : Rebuild) (i : Item) : Option Nat :=
  findPage u.mem u.newBase (workCount r.table) i.entry.key (newWindow r i)

/-- The entries of page `q` of the new image. -/
def State.newEntries (u : State) (r : Rebuild) (q : Nat) : List Entry :=
  readEntries u.mem u.newBase q (workCount r.table q)

include has sound wf

theorem mirror_remade {o : ItemOutcome} {q : Nat} {es : List Entry} (among : q ∈ newWindow r i) (room : Fits es)
    (applied : u.mirrorApplied r i = .edit u.mem (u.newSurface r) o q es) : Remade r u (mirror true i u) q es := by
  obtain ⟨w, here, -⟩ := sound.record (probeWindow_lt sound.nonempty among)
  obtain ⟨m', w', touched, page⟩ := touchNew_page true wf here room
  exact ⟨w, m', w', here, (mirror_edit has applied).trans touched, page⟩

include fits

theorem mirror_update (adds : i.operation = 1) {q : Nat} (found : u.newFound r i = some q)
    (other : i.entry ∉ u.newEntries r q) : Remade r u (mirror true i u) q (updateEntry i.entry (u.newEntries r q)) := by
  obtain ⟨among, -⟩ := findPage_some found
  obtain ⟨w, -, count, few⟩ := sound.record (probeWindow_lt sound.nonempty among)
  exact mirror_remade has sound wf among (fits_update fits (count ▸ few))
    ((if_pos adds).trans (applyAdd_update (img := u.newSurface r) found other))

theorem mirror_insert (adds : i.operation = 1) (absent : u.newFound r i = none) {q : Nat}
    (room : (newWindow r i).find? (fun q => decide (workCount r.table q < 20)) = some q) :
    Remade r u (mirror true i u) q (insertEntry i.entry (u.newEntries r q)) := by
  have low : workCount r.table q < 20 := by simpa using List.find?_some room
  exact mirror_remade has sound wf (List.mem_of_find?_eq_some room) (fits_insert fits low)
    ((if_pos adds).trans (applyAdd_insert (img := u.newSurface r) absent room))

omit fits

theorem mirror_remove (removes : i.operation = 2) {q : Nat} (found : u.newFound r i = some q) :
    Remade r u (mirror true i u) q (removeEntry i.entry.key (u.newEntries r q)) := by
  obtain ⟨among, -⟩ := findPage_some found
  obtain ⟨w, -, count, few⟩ := sound.record (probeWindow_lt sound.nonempty among)
  exact mirror_remade has sound wf among (fits_remove _ (count ▸ few))
    ((if_neg (by rw [removes]; decide)).trans (applyRemove_some (img := u.newSurface r) found))

omit sound wf

theorem mirror_same (adds : i.operation = 1) {q : Nat} (found : u.newFound r i = some q)
    (same : i.entry ∈ u.newEntries r q) : mirror true i u = u :=
  mirror_rests has ((if_pos adds).trans (applyAdd_same (img := u.newSurface r) found same)) nofun

theorem mirror_unplaced (adds : i.operation = 1) (absent : u.newFound r i = none)
    (full : (newWindow r i).find? (fun q => decide (workCount r.table q < 20)) = none) :
    mirror true i u = u.remade u.mem { r with unplaced := r.unplaced + 1 } :=
  mirror_full has ((if_pos adds).trans (applyAdd_full (img := u.newSurface r) absent full))

theorem mirror_absent (removes : i.operation = 2) (absent : u.newFound r i = none) : mirror true i u = u :=
  mirror_rests has ((if_neg (by rw [removes]; decide)).trans (applyRemove_none (img := u.newSurface r) absent)) nofun

include sound wf fits

/-- A mirrored item edits a page of the new image, counts an entry unplaced, or does nothing. -/
theorem mirror_does (known : i.operation = 1 ∨ i.operation = 2) :
    (∃ q es, q < r.pages ∧ Remade r u (mirror true i u) q es) ∨
    mirror true i u = u.remade u.mem { r with unplaced := r.unplaced + 1 } ∨ mirror true i u = u := by
  have inside {q : Nat} (among : q ∈ newWindow r i) : q < r.pages := probeWindow_lt sound.nonempty among
  cases found : u.newFound r i with
  | some q =>
    have low := inside (findPage_some found).1
    rcases known with adds | removes
    · by_cases same : i.entry ∈ u.newEntries r q
      · exact .inr (.inr (mirror_same has adds found same))
      · exact .inl ⟨q, _, low, mirror_update has sound wf fits adds found same⟩
    · exact .inl ⟨q, _, low, mirror_remove has sound wf removes found⟩
  | none =>
    rcases known with adds | removes
    · cases room : (newWindow r i).find? (fun q => decide (workCount r.table q < 20)) with
      | some q => exact .inl ⟨q, _, inside (List.mem_of_find?_eq_some room), mirror_insert has sound wf fits adds found room⟩
      | none => exact .inr (.inl (mirror_unplaced has adds found room))
    · exact .inr (.inr (mirror_absent has removes found))

end

/-! ### An item that changes a page -/

/-- The state with page `p` of the live image edited to hold `es`, and in the batch's changed pages. -/
def State.edited (s : State) (b : Batch) (p : Nat) (es : List Entry) : State :=
  { s with
    mem := writeEntries s.mem (s.imageBase s.change.region) p es
    change := { s.change with
      table := setLive s.change.table p es.length, changing := true
      batch := some { b with changed := insertPage p b.changed } } }

theorem applyNext_edit {s : State} {b : Batch} {o : ItemOutcome} {p : Nat} {es : List Entry}
    (applied : s.applied b = .edit s.mem s.liveSurface o p es) (other : o ≠ .full) :
    applyNext b s =
      (if p < s.change.copyCursor then mirror true (s.nextItem b) (s.edited b p es) else s.edited b p es, o) := by
  have live : applyLive b s = s.edited b p es := by
    simp only [applyLive, applied, Applied.edit, if_neg other]
    rfl
  have mirrors : s.mirrors b = decide (p < s.change.copyCursor) := by simp only [State.mirrors, applied, Applied.edit]
  simp only [applyNext, mirrors, live, applied, Applied.edit, decide_eq_true_iff]

/-- What the item makes of the live image: the page edited (R24 to R26). -/
theorem applied_edit {s : State} {b : Batch} {p : Nat} {code : Byte} {after : List Entry}
    (good : (s.nextItem b).bad = false) (fresh : (s.nextItem b).isExpired s.serviceDay? = false)
    (few : liveCount s.change.table p ≤ 20)
    (ends : let i := s.nextItem b
      let live := liveCount s.change.table
      let base := s.imageBase s.change.region
      let window := probeWindow i.entry.key s.change.pages s.change.seed
      let page := findPage s.mem base live i.entry.key window
      let entries := readEntries s.mem base p (live p)
      (i.operation = 1 ∧ page = none ∧ window.find? (fun q => live q < 20) = some p ∧ code = 1 ∧
        after = insertEntry i.entry entries) ∨
      (i.operation = 1 ∧ page = some p ∧ i.entry ∉ entries ∧ code = 2 ∧ after = updateEntry i.entry entries) ∨
      (i.operation = 2 ∧ page = some p ∧ code = 4 ∧ after = removeEntry i.entry.key entries)) :
    ∃ o : ItemOutcome, s.applied b = .edit s.mem s.liveSurface o p after ∧ o.code = code ∧ o.faulty = false ∧
      o ≠ .full ∧ Fits after ∧ ((s.nextItem b).operation = 1 ∨ (s.nextItem b).operation = 2) := by
  have expiry : (s.nextItem b).entry.expiry < 65536 := parseItem_expiry _
  have applies : s.applied b = if (s.nextItem b).operation = 1
      then applyAdd s.mem s.liveSurface (liveCount s.change.table) (s.nextItem b).entry
      else applyRemove s.mem s.liveSurface (liveCount s.change.table) (s.nextItem b).entry.key := by
    simp only [State.applied, applyItem, good, fresh, Bool.false_eq_true, if_false]
  rw [applies]
  rcases ends with ⟨adds, absent, room, rfl, rfl⟩ | ⟨adds, found, other, rfl, rfl⟩ | ⟨removes, found, rfl, rfl⟩
  · have low : liveCount s.change.table p < 20 := by simpa using List.find?_some room
    exact ⟨.added, (if_pos adds).trans (applyAdd_insert (img := s.liveSurface) absent room), rfl, rfl, nofun,
      fits_insert expiry low, .inl adds⟩
  · exact ⟨.updated, (if_pos adds).trans (applyAdd_update (img := s.liveSurface) found other), rfl, rfl, nofun,
      fits_update expiry few, .inl adds⟩
  · exact ⟨.removed, (if_neg (by rw [removes]; decide)).trans (applyRemove_some (img := s.liveSurface) found), rfl, rfl,
      nofun, fits_remove _ few, .inr removes⟩

/-- What the copy in a rebuild's new image leaves of the state `u` with the live page edited. -/
structure Mirrored (s u v : State) (p : Nat) : Prop where
  same : ∃ m rebuild, v = { u with mem := m, change := { u.change with rebuild := rebuild } }
  wf : Memory.wf v.mem = true
  outside : ∀ a, (∀ r, s.change.rebuild = some r → p < s.change.copyCursor →
      a < s.newBase ∨ s.newBase + 256 * r.pages ≤ a) → Memory.read v.mem a = Memory.read u.mem a

theorem remade_outside {r : Rebuild} {u v : State} {q : Nat} {es : List Entry} (remade : Remade r u v q es)
    (inside : q < r.pages) : Memory.wf v.mem = true ∧
      ∀ a, a < u.newBase ∨ u.newBase + 256 * r.pages ≤ a → Memory.read v.mem a = Memory.read u.mem a := by
  obtain ⟨w, m', w', -, rfl, page⟩ := remade
  exact ⟨page.wf, fun a apart => page.outside a (by omega)⟩

theorem mirrored_none {s u : State} {p : Nat} (wf : Memory.wf u.mem = true) : Mirrored s u u p :=
  ⟨⟨u.mem, u.change.rebuild, rfl⟩, wf, fun _ _ => rfl⟩

theorem mirrored_item {s u : State} {p : Nat} {i : Item} (wf : Memory.wf u.mem = true) (rebuild : u.change.rebuild = s.change.rebuild)
    (base : u.newBase = s.newBase) (fits : i.entry.expiry < 65536) (known : i.operation = 1 ∨ i.operation = 2)
    (sound : ∀ r, s.change.rebuild = some r → p < s.change.copyCursor → r.Sound) :
    Mirrored s u (if p < s.change.copyCursor then mirror true i u else u) p := by
  split
  · next copied =>
    cases has : s.change.rebuild with
    | none =>
      have rests : mirror true i u = u := by simp only [mirror, rebuild.trans has]
      rw [rests]
      exact mirrored_none wf
    | some r =>
      rcases mirror_does (rebuild.trans has) (sound r has copied) wf fits known with ⟨q, es, inside, remade⟩ | eq | eq
      · obtain ⟨wf', outside⟩ := remade_outside remade inside
        obtain ⟨w, m', w', -, eq, -⟩ := remade
        exact ⟨⟨_, _, eq⟩, wf', fun a apart => outside a (base ▸ apart r has copied)⟩
      · rw [eq]
        exact ⟨⟨_, _, rfl⟩, wf, fun _ _ => rfl⟩
      · rw [eq]
        exact mirrored_none wf
  · exact mirrored_none wf

/-- The step of an item that changes page `p`: the live page edited, the copy in the new image, the outcome in byte 11. -/
structure ItemEdited (s : State) (b : Batch) (p : Nat) (after : List Entry) (code : Byte) (v t : State) : Prop where
  mem : t.mem = Memory.write v.mem (b.list + 16 * b.next + 11) code
  change : t.change = { v.change with
    batch := some { b with next := b.next + 1, changed := insertPage p b.changed } }
  mirrored : Mirrored s (s.edited b p after) v p

theorem insertPage_ne_nil (p : Nat) (qs : List Nat) : insertPage p qs ≠ [] := fun empty => by
  have among := (mem_insertPage (p := p) (q := p) qs).2 (.inl rfl)
  rw [empty] at among
  cases among

theorem itemEdited {s : State} {b : Batch} {o : ItemOutcome} {p : Nat} {after : List Entry} (high : s.resetLow = false)
    (work : s.working = true) (has : s.change.batch = some b) (more : b.next < b.count)
    (applied : s.applied b = .edit s.mem s.liveSurface o p after) (good : o.faulty = false) (other : o ≠ .full) {v : State}
    (copied : v = if p < s.change.copyCursor then mirror true (s.nextItem b) (s.edited b p after) else s.edited b p after)
    (mirrored : Mirrored s (s.edited b p after) v p) :
    ∃ t, exec .changeItem s = .next t ∧ ItemEdited s b p after o.code v t := by
  refine ⟨_, exec_changeItem high work has more, ?_⟩
  rw [applyNext_edit applied other, ← copied]
  have batch : v.change.batch = some { b with changed := insertPage p b.changed } := by
    obtain ⟨m, rebuild, same⟩ := mirrored.same
    rw [same]
    rfl
  have counted : Batch.counted { b with changed := insertPage p b.changed } o =
      { b with next := b.next + 1, changed := insertPage p b.changed } := by
    simp only [Batch.counted, good, decide_eq_false other, Bool.or_false]
    rfl
  have done := itemDone_eq batch o
  rw [counted] at done
  dsimp only
  rw [done]
  clear copied done
  have settled := settled_boundaries s (closeBatch { v with
    mem := Memory.write v.mem (b.list + 16 * b.next + 11) o.code
    change := { v.change with batch := some { b with next := b.next + 1, changed := insertPage p b.changed } } })
  rw [closeBatch_goesOn (b := { b with next := b.next + 1, changed := insertPage p b.changed }) rfl
    fun clean => insertPage_ne_nil _ _ clean.2] at settled ⊢
  exact ⟨settled.mem, settled.change, mirrored⟩

section
variable {s v t : State} {b : Batch} {p : Nat} {after : List Entry} {code : Byte} (edited : ItemEdited s b p after code v t)
  (wf : Memory.wf s.mem = true) (fits : Fits after)

include edited

/-- Bytes outside the live page, the new image and the item's outcome stay. -/
theorem ItemEdited.read_of_apart {a : Nat} (item : a ≠ b.list + 16 * b.next + 11)
    (apart : ∀ r, s.change.rebuild = some r → p < s.change.copyCursor → a < s.newBase ∨ s.newBase + 256 * r.pages ≤ a) :
    Memory.read t.mem a = Memory.read (s.edited b p after).mem a := by
  rw [edited.mem, Memory.read_write_ne code item]
  exact edited.mirrored.outside a apart

include wf fits

/-- The live page holds what the item made of its entries. -/
theorem ItemEdited.body (clear : ∀ a, s.imageBase s.change.region + 256 * p ≤ a →
      a < s.imageBase s.change.region + 256 * p + 256 → a ≠ b.list + 16 * b.next + 11 ∧
      ∀ r, s.change.rebuild = some r → p < s.change.copyCursor → a < s.newBase ∨ s.newBase + 256 * r.pages ≤ a) :
    Memory.readBytes t.mem (s.imageBase s.change.region + 256 * p + 16) 240 = bodyBytes after := by
  rw [← writeEntries_body (base := s.imageBase s.change.region) (p := p) wf fits.few]
  refine Memory.readBytes_congr _ _ fun a low high => ?_
  obtain ⟨item, apart⟩ := clear a (by omega) (by omega)
  exact edited.read_of_apart item apart

end

/-- Page `q` of the new image as `t` shows it, edited to hold `es` (R42). -/
structure ShowsRemade (r : Rebuild) (base : Nat) (t : State) (q : Nat) (es : List Entry) : Prop where
  entries : readEntries t.mem base q es.length = es
  header : r.phase = .finishing ∧ q < r.finished →
    ShowsHeader (Memory.readBytes t.mem (base + 256 * q) 256) q es.length 1 r.identity
  record : ∃ w', t.change.rebuild = some { r with table := r.table.set q w' } ∧ w'.live = es.length ∧ w'.hot = true ∧
    (r.phase = .finishing ∧ q < r.finished → w'.crc = pageCrc (Memory.readBytes t.mem (base + 256 * q) 256)) ∧
    (¬ (r.phase = .finishing ∧ q < r.finished) → ∀ w, r.table[q]? = some w → w'.crc = w.crc)

theorem showsRemade {r : Rebuild} {u v t : State} {q : Nat} {es : List Entry} (remade : Remade r u v q es) (few : es.length ≤ 20)
    (same : ∀ a, u.newBase + 256 * q ≤ a → a < u.newBase + 256 * q + 256 → Memory.read t.mem a = Memory.read v.mem a)
    (rebuild : t.change.rebuild = v.change.rebuild) : ShowsRemade r u.newBase t q es := by
  obtain ⟨w, m', w', here, rfl, page⟩ := remade
  have bytes : Memory.readBytes t.mem (u.newBase + 256 * q) 256 = Memory.readBytes m' (u.newBase + 256 * q) 256 :=
    Memory.readBytes_congr _ _ same
  refine ⟨?_, fun finished => ?_, w', rebuild, page.live, ?_, fun finished => ?_, fun unfinished w'' there => ?_⟩
  · exact (readEntries_congr fun a low high => same a (by omega) (by omega)).trans page.entries
  · rw [bytes]
    exact (page.finished finished).1
  · rw [page.hot, Bool.or_true]
  · rw [bytes]
    exact (page.finished finished).2
  · cases here.symm.trans there
    exact page.unfinished unfinished

/-- What the live page's edit leaves of what the item finds in the new image. -/
structure SameNew (s u : State) (r : Rebuild) (i : Item) : Prop where
  found : u.newFound r i = s.newFound r i
  entries : ∀ q, q < r.pages → u.newEntries r q = s.newEntries r q

theorem sameNew {s : State} {b : Batch} {p : Nat} {after : List Entry} {r : Rebuild} (i : Item) (sound : r.Sound)
    (few : after.length ≤ 20) (apart : s.imageBase s.change.region + 256 * p + 256 ≤ s.newBase ∨
      s.newBase + 256 * r.pages ≤ s.imageBase s.change.region + 256 * p) : SameNew s (s.edited b p after) r i := by
  have entries (q : Nat) (inside : q < r.pages) : (s.edited b p after).newEntries r q = s.newEntries r q := by
    obtain ⟨w, -, count, short⟩ := sound.record inside
    refine readEntries_congr fun a low high => writeEntries_outside few ?_
    change s.newBase + 256 * q + 16 ≤ a at low
    change a < s.newBase + 256 * q + 16 + 12 * workCount r.table q at high
    omega
  exact ⟨findPage_congr fun q among => entries q (probeWindow_lt sound.nonempty among), entries⟩

theorem ItemEdited.rebuild {s v t : State} {b : Batch} {p : Nat} {after : List Entry} {code : Byte}
    (edited : ItemEdited s b p after code v t) : t.change.rebuild = v.change.rebuild := by rw [edited.change]

theorem mirror_idle {u : State} (idle : u.change.rebuild = none) (i : Item) : mirror true i u = u := by
  simp only [mirror, idle]

/-- Settles O21: the live page is edited (`applied_edit`), and the new image of a rebuild that has copied it (`mirror_does`). -/
theorem itemChangesOnePage : Obligations.ItemChangesOnePage := by
  unfold Obligations.ItemChangesOnePage
  intro s b p code after high work wf has more addr i live base window page entries top new good fresh inside few clear copying ends
  obtain ⟨o, applied, rfl, healthy, other, fits, known⟩ := applied_edit (b := b) good fresh few ends
  have expiry : (s.nextItem b).entry.expiry < 65536 := parseItem_expiry _
  have liveWf : Memory.wf (s.edited b p after).mem = true := writeEntries_wf wf _ _ _
  have mirrored := mirrored_item (s := s) (u := s.edited b p after) (p := p) liveWf rfl rfl expiry known
    fun r has copied => ⟨(copying r has copied).1, (copying r has copied).2.1, (copying r has copied).2.2.1⟩
  generalize copied : (if p < s.change.copyCursor then mirror true (s.nextItem b) (s.edited b p after)
    else s.edited b p after) = v at mirrored
  obtain ⟨t, run, edited⟩ := itemEdited high work has more applied healthy other copied.symm mirrored
  have body := edited.body wf fits fun a low high => ⟨by omega, fun r has copied => by
    obtain ⟨-, -, -, apart, -⟩ := copying r has copied
    change a < new ∨ new + 256 * r.pages ≤ a
    change top ≤ a at low
    change a < top + 256 at high
    omega⟩
  have rest (a : Nat) (item : a ≠ addr) (apart : a < top + 16 ∨ top + 256 ≤ a)
      (left : Memory.read v.mem a = Memory.read (s.edited b p after).mem a) : Memory.read t.mem a = Memory.read s.mem a := by
    rw [edited.mem, Memory.read_write_ne o.code item, left]
    exact writeEntries_outside fits.few apart
  refine ⟨t, run, ?_, readEntries_of_body fits.few body fits.expiry, fun k => slots_of_body fits.few body, ?_, ?_, ?_⟩
  · rw [edited.mem]
    exact Memory.read_write_self mirrored.wf addr o.code
  · rw [edited.change]
    obtain ⟨m, rebuild, same⟩ := mirrored.same
    rw [same]
    rfl
  · intro unmirrored
    have same : v = s.edited b p after := by
      rw [← copied]
      rcases unmirrored with idle | later
      · rw [mirror_idle (u := s.edited b p after) idle, ite_self]
      · rw [if_neg (by omega)]
    rw [edited.rebuild, same]
    exact ⟨rfl, fun a item apart _ => rest a item apart (by rw [same])⟩
  · intro r has below count newWindow newPage old mirrored' nothing
    rw [if_pos below] at copied
    obtain ⟨some, size, short, apart, item⟩ := copying r has below
    have sound : r.Sound := ⟨some, size, short⟩
    have has' : (s.edited b p after).change.rebuild = Option.some r := has
    obtain ⟨found, entries⟩ := sameNew (b := b) (after := after) (s.nextItem b) sound fits.few apart
    have window {q : Nat} (here : newPage = Option.some q) : q < r.pages :=
      probeWindow_lt sound.nonempty (findPage_some here).1
    have edits {q : Nat} {es : List Entry} (inside : q < r.pages) (room : es.length ≤ 20)
        (remade : Remade r (s.edited b p after) v q es) : mirrored' q es := by
      have shows := showsRemade (t := t) remade room (fun a low high => by
        rw [edited.mem]
        refine Memory.read_write_ne o.code ?_ _
        change new + 256 * q ≤ a at low
        change a < new + 256 * q + 256 at high
        change a ≠ addr
        omega) edited.rebuild
      refine ⟨shows.entries, fun a notItem outside away => rest a notItem outside ?_, shows.header, shows.record⟩
      obtain ⟨w, m', w', -, rfl, page⟩ := remade
      exact page.outside a away
    have rests (same : v = s.edited b p after) : nothing := by
      refine ⟨by rw [edited.rebuild, same]; rfl, fun a notItem outside _ => rest a notItem outside (by rw [same])⟩
    have low {q : Nat} (inside : q < r.pages) : workCount r.table q ≤ 20 := by
      obtain ⟨w, -, live, few⟩ := sound.record inside
      exact live ▸ few
    refine ⟨fun adds q here => ⟨fun notIn => ?_, fun isIn => ?_⟩, fun adds absent q room => ?_, fun adds absent full => ?_,
      fun removes q here => ?_, fun removes absent => ?_⟩
    · have inside := window here
      have remade := mirror_update has' sound liveWf expiry adds (found.trans here) (by rw [entries q inside]; exact notIn)
      rw [copied, entries q inside] at remade
      exact edits inside (fits_update expiry (low inside)).few remade
    · have same := mirror_same has' adds (found.trans here) (by rw [entries q (window here)]; exact isIn)
      exact rests (copied.symm.trans same)
    · have inside : q < r.pages := probeWindow_lt sound.nonempty (List.mem_of_find?_eq_some room)
      have vacant : workCount r.table q < 20 := by simpa using List.find?_some room
      have remade := mirror_insert has' sound liveWf expiry adds (found.trans absent) room
      rw [copied, entries q inside] at remade
      exact edits inside (fits_insert expiry vacant).few remade
    · have none : newWindow.find? (fun q => decide (workCount r.table q < 20)) = Option.none := by
        rw [List.find?_eq_none]
        intro q among
        have here := full q among
        rw [decide_eq_true_iff]
        change 20 ≤ workCount r.table q at here
        omega
      have same := copied.symm.trans (mirror_unplaced has' adds (found.trans absent) none)
      refine ⟨by rw [edited.rebuild, same]; rfl, fun a notItem outside _ => rest a notItem outside (by rw [same]; rfl)⟩
    · have inside := window here
      have remade := mirror_remove (i := s.nextItem b) has' sound liveWf removes (found.trans here)
      rw [copied, entries q inside] at remade
      exact edits inside (fits_remove _ (low inside)).few remade
    · exact rests (copied.symm.trans (mirror_absent has' removes (found.trans absent)))

end Sys2Proof.Machine

/-!
The slices of a rebuild (R41, R43 to R45): the pages cleared, the entries copied, the pages finished, and the swap.
-/
namespace Sys2Proof.Machine

/-! ### The command -/

theorem exec_rebuildSlice {s : State} {r : Rebuild} (high : s.resetLow = false) (has : s.change.rebuild = some r)
    (ready : s.sliceReady = true) : exec .rebuildSlice s =
      .next (settle s (boundaries (want summaryRec (lookAround (nextSlice r s))))) := by
  have step : exec .rebuildSlice s = execRebuildSlice s := rfl
  rw [step, execRebuildSlice, scheduled_next high]
  simp only [has, ready, if_true]

theorem remade_self {s : State} {r : Rebuild} (has : s.change.rebuild = some r) : s.remade s.mem r = s := by
  rw [State.remade, ← has]

theorem lookAround_remade (s : State) (m : List Host.Cell) (r : Rebuild) :
    lookAround (s.remade m r) = s.remade m { r with look := s.holdsApply .priority } := rfl

/-! ### FINISHING -/

/-- Pages `first` up to `first + n` of the new image finished: memory `m` and working table `tb`. -/
structure Finished (s : State) (r : Rebuild) (first n : Nat) (m : List Host.Cell) (tb : List WorkRec) : Prop where
  wf : Memory.wf m = true
  size : tb.length = r.table.length
  others : ∀ (q : Nat) (w : WorkRec), r.table[q]? = some w → ¬ (first ≤ q ∧ q < first + n) → tb[q]? = some w
  brought : ∀ (q : Nat) (w : WorkRec), r.table[q]? = some w → first ≤ q ∧ q < first + n →
    tb[q]? = some { w with crc := pageCrc (Memory.readBytes m (s.newBase + 256 * q) 256) } ∧
    (Memory.readBytes m (s.newBase + 256 * q) 256).drop 16 = Memory.readBytes s.mem (s.newBase + 256 * q + 16) 240 ∧
    ShowsHeader (Memory.readBytes m (s.newBase + 256 * q) 256) q w.live 1 r.identity
  outside : ∀ a, (∀ q, first ≤ q → q < first + n → a < s.newBase + 256 * q ∨ s.newBase + 256 * q + 16 ≤ a) →
    Memory.read m a = Memory.read s.mem a

theorem finished_none {s : State} (r : Rebuild) (first : Nat) (wf : Memory.wf s.mem = true) :
    Finished s r first 0 s.mem r.table where
  wf := wf
  size := rfl
  others _ _ here _ := here
  brought q _ _ within := by omega
  outside _ _ := rfl

theorem finishPage_remade {s : State} {r : Rebuild} {q : Nat} {m : List Host.Cell} {tb : List WorkRec} {w : WorkRec}
    (here : tb[q]? = some w) : finishPage q (s.remade m { r with table := tb }) =
      s.remade (writeHeader m s.newBase q w.live 1 r.identity) { r with
        table := tb.set q { w with crc := headerCrc m s.newBase q w.live 1 r.identity } } := by
  have has : (s.remade m { r with table := tb }).change.rebuild = some { r with table := tb } := rfl
  simp only [finishPage, has, here]
  rfl

theorem Finished.step {s : State} {r : Rebuild} {first n : Nat} {m : List Host.Cell} {tb : List WorkRec}
    (finished : Finished s r first n m tb) {w : WorkRec} (here : r.table[first + n]? = some w) :
    tb[first + n]? = some w ∧ Finished s r first (n + 1) (writeHeader m s.newBase (first + n) w.live 1 r.identity)
      (tb.set (first + n) { w with crc := headerCrc m s.newBase (first + n) w.live 1 r.identity }) := by
  obtain ⟨wf, size, others, brought, outside⟩ := finished
  have there := others _ w here (by omega)
  obtain ⟨inside, -⟩ := List.getElem?_eq_some_iff.1 there
  have kept := writeHeader_wf wf s.newBase (first + n) w.live 1 r.identity
  have page := writeHeader_page (base := s.newBase) (p := first + n) (live := w.live) (stamp := 1) (identity := r.identity) wf
  have apart (a : Nat) (away : a < s.newBase + 256 * (first + n) ∨ s.newBase + 256 * (first + n) + 16 ≤ a) :=
    writeHeader_outside (m := m) (base := s.newBase) (p := first + n) (live := w.live) (stamp := 1)
      (identity := r.identity) away
  have crc := headerCrc_eq m s.newBase (first + n) w.live 1 r.identity
  have body := sealedPage_drop m s.newBase (first + n) w.live 1 r.identity
  have head := sealedPage_take m s.newBase (first + n) w.live 1 r.identity
  generalize headerCrc m s.newBase (first + n) w.live 1 r.identity = c at crc ⊢
  generalize sealedPage m s.newBase (first + n) w.live 1 r.identity = sealed at page crc body head
  generalize writeHeader m s.newBase (first + n) w.live 1 r.identity = m' at kept page apart ⊢
  refine ⟨there, kept, by rw [List.length_set, size], fun q w' found far => ?_, fun q w' found near => ?_, fun a away => ?_⟩
  · rw [List.getElem?_set_ne (by omega)]
    exact others q w' found (by omega)
  · by_cases at' : q = first + n
    · subst at'
      cases here.symm.trans found
      rw [List.getElem?_set_self inside, page, crc]
      refine ⟨rfl, body.trans ?_, head⟩
      exact Memory.readBytes_congr _ _ fun a low high => outside a fun k _ below => by unfold pageAddr at low; omega
    · rw [List.getElem?_set_ne (Ne.symm at')]
      have same : Memory.readBytes m' (s.newBase + 256 * q) 256 = Memory.readBytes m (s.newBase + 256 * q) 256 :=
        Memory.readBytes_congr _ _ fun a low high => apart a (by omega)
      rw [same]
      exact brought q w' found (by omega)
  · exact (apart a (away _ (by omega) (by omega))).trans (outside a fun q low high => away q low (by omega))

theorem finishPages_remade {s : State} {r : Rebuild} (has : s.change.rebuild = some r) (wf : Memory.wf s.mem = true)
    (first : Nat) : ∀ n, (∀ i, i < n → first + i < r.table.length) → ∃ m tb,
      finishPages first n s = s.remade m { r with table := tb } ∧ Finished s r first n m tb
  | 0, _ => ⟨s.mem, r.table, (remade_self has).symm, finished_none r first wf⟩
  | n + 1, inside => by
    obtain ⟨m, tb, eq, finished⟩ := finishPages_remade has wf first n fun i low => inside i (by omega)
    have here := List.getElem?_eq_getElem (inside n (Nat.lt_succ_self n))
    obtain ⟨there, next⟩ := finished.step here
    refine ⟨_, _, ?_, next⟩
    have step : finishPages first (n + 1) s = finishPage (first + n) (finishPages first n s) := by
      rw [finishPages, List.range_succ, List.foldl_append]
      rfl
    rw [step, eq, finishPage_remade there]

/-! ### COPYING -/

theorem workCount_some {tb : List WorkRec} {q : Nat} {w : WorkRec} (here : tb[q]? = some w) : workCount tb q = w.live := by
  simp [workCount, here]

section
variable {s : State} {r : Rebuild} {m : List Host.Cell} {hot : Bool} {e : Entry}

theorem placeCopied_none (has : (s.remade m r).change.rebuild = some r)
    (full : (probeWindow e.key r.pages r.seed).find? (fun q => decide (workCount r.table q < pageRoom)) = none) :
    placeCopied hot (s.remade m r) e = s.remade m { r with unplaced := r.unplaced + 1 } := by
  simp only [placeCopied, has, State.newSurface, full]
  rfl

theorem placeCopied_some (has : (s.remade m r).change.rebuild = some r) (wf : Memory.wf m = true) (fits : e.expiry < 65536)
    {q : Nat} {w : WorkRec} (here : r.table[q]? = some w)
    (room : (probeWindow e.key r.pages r.seed).find? (fun q => decide (workCount r.table q < pageRoom)) = some q) :
    ∃ m' w', placeCopied hot (s.remade m r) e = s.remade m' { r with table := r.table.set q w' } ∧
      NewPage s.newBase r q (insertEntry e (readEntries m s.newBase q w.live)) hot m w m' w' := by
  have low : workCount r.table q < pageRoom := by simpa only [decide_eq_true_iff] using List.find?_some room
  rw [workCount_some here] at low
  have count := workCount_some here
  obtain ⟨m', w', touched, page⟩ := touchNew_page (s := s.remade m r) hot wf here
    (fits_insert (m := m) (base := s.newBase) (p := q) (k := w.live) fits low)
  refine ⟨m', w', ?_, page⟩
  rw [insertEntry_length, readEntries_length] at touched
  have placed : placeCopied hot (s.remade m r) e = touchNew true q (w.live + 1) hot
      { s.remade m r with mem := writeEntries m s.newBase q (insertEntry e (readEntries m s.newBase q w.live)) } r := by
    simp only [placeCopied, has, State.newSurface, room, count]
    rfl
  exact placed.trans touched

end

/-- What the copying of entries spares: the shared memory outside the new image, and all but the rebuild's counts. -/
structure Spared (s : State) (r : Rebuild) (m : List Host.Cell) (tb : List WorkRec) : Prop where
  wf : Memory.wf m = true
  size : tb.length = r.table.length
  outside : ∀ a, a < s.newBase ∨ s.newBase + 256 * r.pages ≤ a → Memory.read m a = Memory.read s.mem a

/-- The state with memory `m`, working table `tb` and `u` entries unplaced. -/
def State.copying (s : State) (r : Rebuild) (m : List Host.Cell) (tb : List WorkRec) (u : Nat) : State :=
  s.remade m { r with table := tb, unplaced := u }

theorem placeCopied_spared {s : State} {r : Rebuild} (nonempty : 0 < r.pages) (size : r.table.length = r.pages)
    {m : List Host.Cell} {tb : List WorkRec} {u : Nat} (spared : Spared s r m tb) (hot : Bool) {e : Entry}
    (fits : e.expiry < 65536) :
    ∃ m' tb' u', placeCopied hot (s.copying r m tb u) e = s.copying r m' tb' u' ∧ Spared s r m' tb' := by
  cases room : (probeWindow e.key r.pages r.seed).find? (fun q => decide (workCount tb q < pageRoom)) with
  | none => exact ⟨m, tb, u + 1, placeCopied_none (r := { r with table := tb, unplaced := u }) rfl room, spared⟩
  | some q =>
    have inside : q < r.pages := probeWindow_lt nonempty (List.mem_of_find?_eq_some room)
    have below : q < tb.length := by rw [spared.size, size]; exact inside
    have here : tb[q]? = some tb[q] := List.getElem?_eq_getElem below
    obtain ⟨m', w', placed, page⟩ := placeCopied_some (s := s) (hot := hot) (r := { r with table := tb, unplaced := u })
      rfl spared.wf fits here room
    refine ⟨m', tb.set q w', u, placed, page.wf, by rw [List.length_set, spared.size], fun a away => ?_⟩
    exact (page.outside a (by omega)).trans (spared.outside a away)

theorem placeAll_spared {s : State} {r : Rebuild} (nonempty : 0 < r.pages) (size : r.table.length = r.pages) (hot : Bool) :
    ∀ (es : List Entry), (∀ e ∈ es, e.expiry < 65536) → ∀ {m : List Host.Cell} {tb : List WorkRec} {u : Nat},
      Spared s r m tb →
      ∃ m' tb' u', es.foldl (placeCopied hot) (s.copying r m tb u) = s.copying r m' tb' u' ∧ Spared s r m' tb'
  | [], _, m, tb, u, spared => ⟨m, tb, u, rfl, spared⟩
  | e :: es, fits, _, _, _, spared => by
    obtain ⟨m', tb', u', placed, spared'⟩ := placeCopied_spared nonempty size spared hot (fits e List.mem_cons_self)
    rw [List.foldl_cons, placed]
    exact placeAll_spared nonempty size hot es (fun x among => fits x (List.mem_cons_of_mem _ among)) spared'

theorem copyPage_spared {s : State} {r : Rebuild} (nonempty : 0 < r.pages) (size : r.table.length = r.pages) (p : Nat)
    {m : List Host.Cell} {tb : List WorkRec} {u : Nat} (spared : Spared s r m tb) :
    ∃ m' tb' u', copyPage p (s.copying r m tb u) = s.copying r m' tb' u' ∧ Spared s r m' tb' := by
  unfold copyPage
  split
  · next r' rec _ _ =>
    exact placeAll_spared nonempty size _ _ (fun e among => readEntries_expiry among) spared
  · exact ⟨m, tb, u, rfl, spared⟩

theorem copyPages_spared {s : State} {r : Rebuild} (has : s.change.rebuild = some r) (wf : Memory.wf s.mem = true)
    (nonempty : 0 < r.pages) (size : r.table.length = r.pages) :
    ∀ k, ∃ m tb u, copyPages k s = s.copying r m tb u ∧ Spared s r m tb
  | 0 => ⟨s.mem, r.table, r.unplaced, (remade_self has).symm, wf, rfl, fun _ _ => rfl⟩
  | k + 1 => by
    obtain ⟨m, tb, u, eq, spared⟩ := copyPages_spared has wf nonempty size k
    have step : copyPages (k + 1) s = copyPage ((copyPages k s).change.copyCursor + k) (copyPages k s) := by
      rw [copyPages, List.range_succ, List.foldl_append]
      rfl
    rw [step, eq]
    exact copyPage_spared nonempty size _ spared

/-! ### The new image as lists -/

/-- Memory `m` and working table `tb` hold the new image `img`, no page of which has lost an entry or its hot mark. -/
structure Copied (s : State) (r : Rebuild) (img : NewImage) (m : List Host.Cell) (tb : List WorkRec) : Prop
    extends Spared s r m tb where
  pages : img.pages.length = r.table.length
  page : ∀ (q : Nat) (w : WorkRec), r.table[q]? = some w → ∃ es hot,
    img.pages[q]? = some (es, hot) ∧ tb[q]? = some { w with live := es.length, hot := hot } ∧
    readEntries m s.newBase q es.length = es ∧ es.length ≤ 20 ∧ w.live ≤ es.length ∧ (w.hot = true → hot = true)

section
variable {s : State} {r : Rebuild} (nonempty : 0 < r.pages) (size : r.table.length = r.pages)

theorem copied_start (wf : Memory.wf s.mem = true) (few : ∀ w ∈ r.table, w.live ≤ 20) :
    Copied s r (s.newImage r) s.mem r.table where
  wf := wf
  size := rfl
  outside _ _ := rfl
  pages := List.length_mapIdx
  page q w here := by
    refine ⟨readEntries s.mem s.newBase q w.live, w.hot, ?_, ?_, ?_, ?_, ?_, id⟩
    · simp only [State.newImage, List.getElem?_mapIdx, here, Option.map_some]
      rfl
    · rw [readEntries_length]
      exact here
    · rw [readEntries_length]
    · rw [readEntries_length]
      exact few w (List.mem_of_getElem? here)
    · rw [readEntries_length]

/-- Page `q` of the new image has room for one more entry. -/
def NewImage.room (img : NewImage) (q : Nat) : Bool :=
  match img.pages[q]? with
  | some x => decide (x.1.length < 20)
  | none => false

theorem place_eq (P : Nat) (seed : Word) (hot : Bool) (img : NewImage) (e : Entry) : img.place P seed hot e =
    match (probeWindow e.key P seed).find? img.room with
    | some q => { img with pages := img.pages.modify q fun x => (insertEntry e x.1, x.2 || hot) }
    | none => { img with unplaced := img.unplaced + 1 } := rfl

include nonempty size

theorem Copied.step {img : NewImage} {m : List Host.Cell} {tb : List WorkRec} (copied : Copied s r img m tb)
    (copying : r.phase = .copying) (hot : Bool) {e : Entry} (fits : e.expiry < 65536) :
    ∃ m' tb', placeCopied hot (s.copying r m tb img.unplaced) e =
        s.copying r m' tb' (img.place r.pages r.seed hot e).unplaced ∧
      Copied s r (img.place r.pages r.seed hot e) m' tb' := by
  have rooms : (probeWindow e.key r.pages r.seed).find? (fun q => decide (workCount tb q < pageRoom)) =
      (probeWindow e.key r.pages r.seed).find? img.room := by
    refine List.find?_congr fun q among => ?_
    have inside := probeWindow_lt nonempty among
    obtain ⟨es, hot, listed, record, -⟩ := copied.page q _ (List.getElem?_eq_getElem (size.symm ▸ inside))
    rw [NewImage.room, listed, workCount_some record]
    rfl
  rw [place_eq, ← rooms]
  cases room : (probeWindow e.key r.pages r.seed).find? (fun q => decide (workCount tb q < pageRoom)) with
  | none =>
    exact ⟨m, tb, placeCopied_none (r := { r with table := tb, unplaced := img.unplaced }) rfl room,
      copied.toSpared, copied.pages, copied.page⟩
  | some q =>
    have inside : q < r.pages := probeWindow_lt nonempty (List.mem_of_find?_eq_some room)
    have low : workCount tb q < pageRoom := by simpa only [decide_eq_true_iff] using List.find?_some room
    have old := List.getElem?_eq_getElem (l := r.table) (i := q) (size.symm ▸ inside)
    obtain ⟨es, h, listed, record, reads, few, grows, keeps⟩ := copied.page q _ old
    rw [workCount_some record] at low
    obtain ⟨m', w', placed, page⟩ := placeCopied_some (s := s) (hot := hot)
      (r := { r with table := tb, unplaced := img.unplaced }) rfl copied.wf fits record room
    dsimp only at page
    rw [reads] at page
    have w'eq : w' = { r.table[q] with live := (insertEntry e es).length, hot := h || hot } := by
      obtain ⟨live, crc, warm⟩ := w'
      have crc' := page.unfinished (by rw [copying]; nofun)
      have live' := page.live
      have hot' := page.hot
      dsimp only at crc' live' hot'
      rw [crc', live', hot']
    refine ⟨m', tb.set q w', placed, ⟨page.wf, by rw [List.length_set, copied.size], fun a away => ?_⟩, ?_,
      fun k w here => ?_⟩
    · exact (page.outside a (by omega)).trans (copied.outside a away)
    · rw [List.length_modify, copied.pages]
    · by_cases at' : k = q
      · subst at'
        cases old.symm.trans here
        refine ⟨insertEntry e es, h || hot, ?_, ?_, page.entries, ?_, ?_, ?_⟩
        · rw [List.getElem?_modify_eq, listed]
          rfl
        · rw [List.getElem?_set_self (by rw [copied.size]; exact size.symm ▸ inside), w'eq]
        · rw [insertEntry_length]
          exact low
        · rw [insertEntry_length]
          omega
        · intro was
          rw [keeps was, Bool.true_or]
      · obtain ⟨es', h', listed', record', reads', few', rest⟩ := copied.page k w here
        refine ⟨es', h', ?_, ?_, ?_, few', rest⟩
        · rw [List.getElem?_modify_ne _ _ (Ne.symm at')]
          exact listed'
        · rw [List.getElem?_set_ne (Ne.symm at')]
          exact record'
        · refine (readEntries_congr fun a low high => page.outside a ?_).trans reads'
          omega

theorem Copied.all (copying : r.phase = .copying) (hot : Bool) : ∀ (es : List Entry), (∀ e ∈ es, e.expiry < 65536) →
    ∀ {img : NewImage} {m : List Host.Cell} {tb : List WorkRec}, Copied s r img m tb →
      ∃ m' tb', es.foldl (placeCopied hot) (s.copying r m tb img.unplaced) =
          s.copying r m' tb' (es.foldl (NewImage.place r.pages r.seed hot) img).unplaced ∧
        Copied s r (es.foldl (NewImage.place r.pages r.seed hot) img) m' tb'
  | [], _, _, m, tb, copied => ⟨m, tb, rfl, copied⟩
  | e :: es, fits, _, _, _, copied => by
    obtain ⟨m', tb', placed, copied'⟩ := copied.step nonempty size copying hot (fits e List.mem_cons_self)
    rw [List.foldl_cons, placed]
    exact Copied.all copying hot es (fun x among => fits x (List.mem_cons_of_mem _ among)) copied'

/-- The old image is apart from the new one, and its pages hold no more entries than they have room for. -/
structure OldApart (s : State) (r : Rebuild) : Prop where
  apart : s.imageBase s.change.region + 256 * s.change.pages ≤ s.newBase ∨
    s.newBase + 256 * r.pages ≤ s.imageBase s.change.region
  few : ∀ rec ∈ s.change.table, rec.live ≤ 20
  short : s.change.table.length ≤ s.change.pages

theorem Copied.copyPage (copying : r.phase = .copying) (old : OldApart s r) (p : Nat) {img : NewImage}
    {m : List Host.Cell} {tb : List WorkRec} (copied : Copied s r img m tb) :
    ∃ m' tb', copyPage p (s.copying r m tb img.unplaced) = s.copying r m' tb' (s.copiedInto r img p).unplaced ∧
      Copied s r (s.copiedInto r img p) m' tb' := by
  have has : (s.copying r m tb img.unplaced).change.rebuild = some { r with table := tb, unplaced := img.unplaced } := rfl
  have table : (s.copying r m tb img.unplaced).change.table = s.change.table := rfl
  unfold State.copiedInto Sys2Proof.Machine.copyPage
  rw [has, table]
  cases here : s.change.table[p]? with
  | none => exact ⟨m, tb, rfl, copied⟩
  | some rec =>
    have reads : readEntries m (s.imageBase s.change.region) p rec.live =
        readEntries s.mem (s.imageBase s.change.region) p rec.live := by
      refine readEntries_congr fun a low high => copied.outside a ?_
      obtain ⟨below, -⟩ := List.getElem?_eq_some_iff.1 here
      have few := old.few rec (List.mem_of_getElem? here)
      have short := old.short
      rcases old.apart with before | behind <;> omega
    have copies := Copied.all nonempty size copying (decide (r.startG < rec.hot))
      (readEntries s.mem (s.imageBase s.change.region) p rec.live) (fun e among => readEntries_expiry among) copied
    dsimp only
    rw [← reads] at copies ⊢
    exact copies

theorem copyPages_copied (has : s.change.rebuild = some r) (wf : Memory.wf s.mem = true) (few : ∀ w ∈ r.table, w.live ≤ 20)
    (copying : r.phase = .copying) (old : OldApart s r) : ∀ k,
    let img := ((List.range k).map fun i => s.change.copyCursor + i).foldl (s.copiedInto r) (s.newImage r)
    ∃ m tb, copyPages k s = s.copying r m tb img.unplaced ∧ Copied s r img m tb
  | 0 => ⟨s.mem, r.table, (remade_self has).symm, copied_start wf few⟩
  | k + 1 => by
    obtain ⟨m, tb, eq, copied⟩ := copyPages_copied has wf few copying old k
    have step : copyPages (k + 1) s = Sys2Proof.Machine.copyPage ((copyPages k s).change.copyCursor + k) (copyPages k s) := by
      rw [copyPages, List.range_succ, List.foldl_append]
      rfl
    rw [step, eq]
    simp only [List.range_succ, List.map_append, List.map_cons, List.map_nil, List.foldl_append, List.foldl_cons, List.foldl_nil]
    exact Copied.copyPage nonempty size copying old (s.change.copyCursor + k) copied

end

/-! ### What a slice leaves -/

/-- The state at the end of the step of a slice. -/
def State.sliced (s : State) (r : Rebuild) : State := settle s (boundaries (want summaryRec (lookAround (nextSlice r s))))

/-- The state with the copy cursor at page `c`. -/
def State.movedTo (s : State) (c : Nat) : State := { s with change := { s.change with copyCursor := c } }

theorem lookAround_none {s : State} (none : s.change.rebuild = none) : lookAround s = s := by
  rw [lookAround, none, Option.map_none, ← none]

theorem sliced_wanted (s : State) (r : Rebuild) : (s.sliced r).report.wanted[summaryRec] = true :=
  (settled_boundaries s (want summaryRec (lookAround (nextSlice r s)))).wanted _ (want_summary _)

theorem sliced_remade {s : State} {r r' : Rebuild} {c : Nat} {m : List Host.Cell}
    (next : nextSlice r s = (s.movedTo c).remade m r') : (s.sliced r).mem = m ∧
      (s.sliced r).change = { s.change with
        copyCursor := c, rebuild := some { r' with look := s.holdsApply .priority } } := by
  have settled := settled_boundaries s (want summaryRec (lookAround (nextSlice r s)))
  change Settled _ (s.sliced r) at settled
  generalize s.sliced r = t at settled ⊢
  rw [next, lookAround_remade] at settled
  exact ⟨settled.mem, settled.change⟩

theorem sliced_failed {s u : State} {r r' : Rebuild} {c : Nat} {m : List Host.Cell} (next : nextSlice r s = failRebuild r' u)
    (same : ∃ r'', u = (s.movedTo c).remade m r'') : (s.sliced r).mem = m ∧
      (s.sliced r).change = { s.change with rebuild := none, copyCursor := c } ∧
      (⟨[summaryRec], .outcome r'.strip ⟨7, false, min r'.unplaced 65535⟩⟩ : Waiting) ∈ (s.sliced r).report.waiting := by
  have settled := settled_boundaries s (want summaryRec (lookAround (nextSlice r s)))
  change Settled _ (s.sliced r) at settled
  generalize s.sliced r = t at settled ⊢
  obtain ⟨r'', rfl⟩ := same
  rw [next, lookAround_none rfl] at settled
  refine ⟨settled.mem, settled.change, ?_⟩
  rw [settled.waiting]
  exact List.mem_append_right _ (List.mem_singleton_self _)

/-- The image of the rebuild `r` as it goes live (R44). -/
def State.swapped (s : State) (r : Rebuild) (tb : List WorkRec) : ChangeEngine :=
  { s.change with
    region := s.change.region.other, identity := r.identity, pages := r.pages, seed := r.seed, gen := 1
    table := tb.map fun w => ⟨1, if w.hot then 1 else 0, w.crc, w.live⟩
    digest := (tb.map (·.crc)).foldl (· + ·) 0, purgeSkipped := false, rebuild := none }

theorem swapTo_change {s u : State} {r : Rebuild} {m : List Host.Cell} (same : ∃ r'', u = s.remade m r'') :
    (swapTo r u).change = s.swapped r r.table := by
  obtain ⟨r'', rfl⟩ := same
  have digest : digestOf (installedTable r.table) = (r.table.map (·.crc)).foldl (· + ·) 0 := by
    rw [digestOf_map, installedTable, List.map_map]
    rfl
  rw [swapTo, digest]
  rfl

theorem sliced_swapped {s u : State} {r r' : Rebuild} {m : List Host.Cell} (next : nextSlice r s =
      completeAfterSummary r'.strip (.plain Outcome.ok) (switchEffects (swapTo r' u)))
    (same : ∃ r'', u = s.remade m r'') : (s.sliced r).mem = m ∧ (s.sliced r).change = s.swapped r' r'.table ∧
      (s.sliced r).heldOk ∧ BlocksFollow s (s.sliced r) ∧
      (⟨[summaryRec], .outcome r'.strip ⟨1, false, 0⟩⟩ : Waiting) ∈ (s.sliced r).report.waiting := by
  have settled := settled_boundaries s (want summaryRec (lookAround (nextSlice r s)))
  have later := later_boundaries s (want summaryRec (lookAround (nextSlice r s)))
  change Settled _ (s.sliced r) at settled
  change Later _ (s.sliced r) at later
  have swap := swapTo_change (r := r') same
  have mem : (swapTo r' u).mem = m := by
    obtain ⟨r'', rfl⟩ := same
    rfl
  have slots (n : Fin 24) : (swapTo r' u).slot n = s.slot n := by
    obtain ⟨r'', rfl⟩ := same
    rfl
  obtain ⟨mem', -, -, -, -, change', -⟩ := of_fixed (switchEffects_fixed (swapTo r' u))
  have editions := switchEffects_editions (swapTo r' u)
  have follows {v t : State} := switch_follows (s := s) (u := swapTo r' u) (v := v) (t := t)
  rw [next] at settled later
  generalize s.sliced r = t at settled later ⊢
  generalize swapTo r' u = x at *
  generalize switchEffects x = v at *
  have idle : (completeAfterSummary r'.strip (.plain Outcome.ok) v).change.rebuild = none :=
    congrArg ChangeEngine.rebuild (change'.trans swap)
  rw [lookAround_none idle] at settled later
  have change : t.change = x.change := settled.change.trans change'
  have blocks : BlocksFollow s t := follows later slots rfl rfl rfl change (settled.editions.trans editions)
  refine ⟨settled.mem.trans (mem'.trans mem), change.trans swap, heldOk_of_follows blocks (by rw [change, swap]; rfl),
    blocks, ?_⟩
  rw [settled.waiting]
  exact List.mem_append_right _ (List.mem_singleton_self _)

/-! ### The slice of each phase -/

section
variable {s : State} {r : Rebuild}

/-- The number of pages of the next slice, `done` of `n` being done. -/
def sliceSize (n done : Nat) : Nat := min 64 (n - done)

theorem nextSlice_clearing (clearing : r.phase = .clearing) : nextSlice r s =
    (s.movedTo s.change.copyCursor).remade
      (writeVoids s.mem s.newBase r.cleared r.identity (sliceSize r.pages r.cleared))
      { r with
        cleared := r.cleared + sliceSize r.pages r.cleared
        phase := if r.cleared + sliceSize r.pages r.cleared = r.pages then .copying else .clearing } := by
  rw [nextSlice, clearing]
  rfl

/-- The copy of a slice as the phase goes on from it: with more pages to copy, at its failure, and on to FINISHING. -/
theorem nextSlice_copying (copying : r.phase = .copying) {m : List Host.Cell} {tb : List WorkRec} {u : Nat}
    (eq : copyPages (sliceSize s.change.pages s.change.copyCursor) s = s.copying r m tb u) :
    let c := s.change.copyCursor + sliceSize s.change.pages s.change.copyCursor
    nextSlice r s =
      if c < s.change.pages then (s.movedTo c).copying r m tb u
      else if u ≠ 0 then failRebuild { r with table := tb, unplaced := u } ((s.movedTo c).copying r m tb u)
      else (s.movedTo c).remade m { r with table := tb, unplaced := u, phase := .finishing } := by
  have slice : nextSlice r s = copySlice s := by rw [nextSlice, copying]
  have copies : copySlice s = (
      let c := s.change.copyCursor + sliceSize s.change.pages s.change.copyCursor
      let x := copyPages (sliceSize s.change.pages s.change.copyCursor) s
      let v : State := { x with change := { x.change with
        copyCursor := x.change.copyCursor + sliceSize s.change.pages s.change.copyCursor } }
      match v.change.rebuild with
      | none => v
      | some r =>
        if v.change.copyCursor < v.change.pages then v
        else if r.unplaced ≠ 0 then failRebuild r v
        else setRebuild { r with phase := .finishing } v) := rfl
  rw [slice, copies, eq]
  rfl

/-- The slice of FINISHING as the phase goes on from it: with more pages to finish, at its failure, and at the swap. -/
theorem nextSlice_finishing (finishing : r.phase = .finishing) {m : List Host.Cell} {tb : List WorkRec}
    (eq : finishPages r.finished (sliceSize r.pages r.finished) s = s.remade m { r with table := tb }) :
    let r' : Rebuild := { r with table := tb, finished := r.finished + sliceSize r.pages r.finished }
    nextSlice r s =
      if r'.finished < r.pages then (s.movedTo s.change.copyCursor).remade m r'
      else if r.unplaced ≠ 0 then failRebuild r' (s.remade m { r with table := tb })
      else completeAfterSummary r.strip (.plain Outcome.ok)
        (switchEffects (swapTo r' (s.remade m { r with table := tb }))) := by
  have slice : nextSlice r s = finishSlice r s := by rw [nextSlice, finishing]
  have finishes : finishSlice r s = (
      let x := finishPages r.finished (sliceSize r.pages r.finished) s
      match x.change.rebuild with
      | none => x
      | some r' =>
        let r' := { r' with finished := r'.finished + sliceSize r.pages r.finished }
        if r'.finished < r'.pages then setRebuild r' x
        else if r'.unplaced ≠ 0 then failRebuild r' x
        else completeAfterSummary r'.strip (.plain Outcome.ok) (switchEffects (swapTo r' x))) := rfl
  rw [slice, finishes, eq]
  rfl

end

/-- What a slice of COPYING leaves, memory and working table `m` and `tb` holding the new image `img` (R41 to R43). -/
structure CopyEnds (s : State) (r : Rebuild) (cursor : Nat) (img : NewImage) (m : List Host.Cell) (tb : List WorkRec) :
    Prop where
  mem : (s.sliced r).mem = m
  goesOn : cursor < s.change.pages → (s.sliced r).change = { s.change with
    copyCursor := cursor
    rebuild := some { r with table := tb, unplaced := img.unplaced, look := s.holdsApply .priority } }
  finishes : cursor = s.change.pages → img.unplaced = 0 → (s.sliced r).change = { s.change with
    copyCursor := cursor
    rebuild := some { r with table := tb, unplaced := 0, phase := .finishing, look := s.holdsApply .priority } }
  fails : cursor = s.change.pages → img.unplaced ≠ 0 →
    (s.sliced r).change = { s.change with rebuild := none, copyCursor := cursor } ∧
    (⟨[summaryRec], .outcome r.strip ⟨7, false, min img.unplaced 65535⟩⟩ : Waiting) ∈ (s.sliced r).report.waiting

theorem copyEnds {s : State} {r : Rebuild} (copying : r.phase = .copying) {img : NewImage} {m : List Host.Cell}
    {tb : List WorkRec}
    (eq : copyPages (sliceSize s.change.pages s.change.copyCursor) s = s.copying r m tb img.unplaced) :
    CopyEnds s r (s.change.copyCursor + sliceSize s.change.pages s.change.copyCursor) img m tb := by
  have next := nextSlice_copying copying eq
  dsimp only at next
  generalize s.change.copyCursor + sliceSize s.change.pages s.change.copyCursor = c at next ⊢
  by_cases below : c < s.change.pages
  · rw [if_pos below] at next
    obtain ⟨mem, change⟩ := sliced_remade next
    exact ⟨mem, fun _ => change, fun least => by omega, fun least => by omega⟩
  · rw [if_neg below] at next
    by_cases placed : img.unplaced = 0
    · rw [if_neg (not_not.2 placed)] at next
      obtain ⟨mem, change⟩ := sliced_remade next
      rw [placed] at change
      exact ⟨mem, fun more => absurd more below, fun _ _ => change, fun _ some => absurd placed some⟩
    · rw [if_pos placed] at next
      obtain ⟨mem, change, waits⟩ := sliced_failed (c := c) next ⟨_, rfl⟩
      exact ⟨mem, fun more => absurd more below, fun _ none => absurd none placed, fun _ _ => ⟨change, waits⟩⟩

/-- What a slice of FINISHING leaves, memory and working table `m` and `tb` holding the new image (R44, R45). -/
structure FinishEnds (s : State) (r : Rebuild) (upTo : Nat) (m : List Host.Cell) (tb : List WorkRec) : Prop where
  mem : (s.sliced r).mem = m
  goesOn : upTo < r.pages → (s.sliced r).change = { s.change with
    rebuild := some { r with finished := upTo, table := tb, look := s.holdsApply .priority } }
  swaps : upTo = r.pages → r.unplaced = 0 → (s.sliced r).change = s.swapped r tb ∧ (s.sliced r).heldOk ∧
    BlocksFollow s (s.sliced r) ∧
    (⟨[summaryRec], .outcome r.strip ⟨1, false, 0⟩⟩ : Waiting) ∈ (s.sliced r).report.waiting
  fails : upTo = r.pages → r.unplaced ≠ 0 →
    (s.sliced r).change = { s.change with rebuild := none } ∧
    (⟨[summaryRec], .outcome r.strip ⟨7, false, min r.unplaced 65535⟩⟩ : Waiting) ∈ (s.sliced r).report.waiting

theorem finishEnds {s : State} {r : Rebuild} (finishing : r.phase = .finishing) {m : List Host.Cell} {tb : List WorkRec}
    (eq : finishPages r.finished (sliceSize r.pages r.finished) s = s.remade m { r with table := tb }) :
    FinishEnds s r (r.finished + sliceSize r.pages r.finished) m tb := by
  have next := nextSlice_finishing finishing eq
  dsimp only at next
  generalize r.finished + sliceSize r.pages r.finished = c at next ⊢
  by_cases below : c < r.pages
  · rw [if_pos below] at next
    obtain ⟨mem, change⟩ := sliced_remade next
    exact ⟨mem, fun _ => change, fun least => by omega, fun least => by omega⟩
  · rw [if_neg below] at next
    by_cases placed : r.unplaced = 0
    · rw [if_neg (not_not.2 placed)] at next
      obtain ⟨mem, swapped⟩ := sliced_swapped (r' := { r with table := tb, finished := c }) next ⟨_, rfl⟩
      exact ⟨mem, fun more => absurd more below, fun _ _ => swapped, fun _ some => absurd placed some⟩
    · rw [if_pos placed] at next
      obtain ⟨mem, change, waits⟩ := sliced_failed (c := s.change.copyCursor) next ⟨_, rfl⟩
      exact ⟨mem, fun more => absurd more below, fun _ none => absurd none placed, fun _ _ => ⟨change, waits⟩⟩

/-- No slice writes outside the pages of the new image. -/
theorem sliced_outside {s : State} {r : Rebuild} (has : s.change.rebuild = some r) (wf : Memory.wf s.mem = true)
    (nonempty : 0 < r.pages) (size : r.table.length = r.pages) {a : Nat}
    (away : a < s.newBase ∨ s.newBase + 256 * r.pages ≤ a) : Memory.read (s.sliced r).mem a = Memory.read s.mem a := by
  cases phase : r.phase with
  | clearing =>
    obtain ⟨mem, -⟩ := sliced_remade (nextSlice_clearing (s := s) phase)
    rw [mem]
    refine writeVoids_outside _ _ _ _ _ ?_
    unfold sliceSize
    omega
  | copying =>
    obtain ⟨m, tb, u, eq, spared⟩ := copyPages_spared has wf nonempty size (sliceSize s.change.pages s.change.copyCursor)
    rw [(copyEnds (img := ⟨[], u⟩) phase eq).mem]
    exact spared.outside a away
  | finishing =>
    obtain ⟨m, tb, eq, finished⟩ := finishPages_remade has wf r.finished (sliceSize r.pages r.finished)
      fun i low => by
        unfold sliceSize at low
        omega
    rw [(finishEnds phase eq).mem]
    refine finished.outside a fun q low high => ?_
    unfold sliceSize at high
    omega

/-- Settles O26: each phase does its pages (`nextSlice_clearing`, `copyEnds`, `finishEnds`), and writes nowhere else. -/
theorem rebuildSliceKeepsLiveImage : Obligations.RebuildSliceKeepsLiveImage := by
  unfold Obligations.RebuildSliceKeepsLiveImage
  intro s r high has ready wf some few size base old look ended failed
  have nonempty : 0 < r.pages := by omega
  refine ⟨s.sliced r, exec_rebuildSlice high has ready, sliced_wanted s r,
    fun a away => sliced_outside has wf nonempty size away, fun phase more => ?_, fun phase more apart fits fitsOld short => ?_,
    fun phase more => ?_⟩
  · obtain ⟨mem, change⟩ := sliced_remade (nextSlice_clearing (s := s) phase)
    refine ⟨change, fun n low high => ?_⟩
    rw [mem]
    exact writeVoids_page base r.identity _ r.cleared wf low high
  · obtain ⟨m, tb, eq, copied⟩ := copyPages_copied nonempty size has wf fits phase ⟨apart, fitsOld, short⟩
      (sliceSize s.change.pages s.change.copyCursor)
    obtain ⟨mem, goesOn, finishes, fails⟩ := copyEnds phase eq
    refine ⟨tb, _, rfl, copied.size, fun q w w' here there => ?_, goesOn, finishes, fails⟩
    obtain ⟨es, hot, listed, record, reads, -, grows, keeps⟩ := copied.page q w here
    cases there.symm.trans record
    rw [mem]
    exact ⟨es, hot, listed, reads, rfl, grows, keeps⟩
  · obtain ⟨m, tb, eq, finished⟩ := finishPages_remade has wf r.finished (sliceSize r.pages r.finished)
      fun i low => by
        unfold sliceSize at low
        omega
    obtain ⟨mem, goesOn, swaps, fails⟩ := finishEnds phase eq
    refine ⟨tb, finished.size, fun q w w' here there => ?_, goesOn, swaps, fails⟩
    dsimp only
    rw [mem]
    split
    · next within =>
      obtain ⟨record, body, shows⟩ := finished.brought q w here within
      cases there.symm.trans record
      exact ⟨rfl, body, shows⟩
    · next beyond =>
      refine ⟨Option.some_inj.1 (there.symm.trans (finished.others q w here beyond)), ?_⟩
      refine Memory.readBytes_congr _ _ fun a low high => finished.outside a fun k first last => ?_
      change s.newBase + 256 * q ≤ a at low
      change a < s.newBase + 256 * q + 256 at high
      change ¬ (r.finished ≤ q ∧ q < r.finished + sliceSize r.pages r.finished) at beyond
      omega

end Sys2Proof.Machine
